-- ==== Sys2Proof/Word.lean ====
section
/-! DEFINITION. Word.lean: the word types of the module and their plainest arithmetic. Registers and words are 64 bits
(R6), bytes are 8 bits and structures in memory are little-endian (R5). -/

namespace Sys2Proof

/-- One byte of memory. -/
abbrev Byte := BitVec 8

/-- Bytes of 128-bit words on the move, each with the poison mark its word's code carries. -/
abbrev MBytes := List (Byte × Bool)

/-- Bytes with no poison. -/
def plain (bs : List Byte) : MBytes := bs.map (fun x => (x, false))

/-- The bytes alone. -/
def MBytes.bytes (m : MBytes) : List Byte := m.map (·.1)

/-- Is any of the bytes poisoned? -/
def MBytes.pois (m : MBytes) : Bool := m.any (·.2)

/-- A 32-bit word of a tile register (R88). -/
abbrev W32 := BitVec 32

/-- A 64-bit word: a register, a scalar register or a word of a structure in memory. -/
abbrev W64 := BitVec 64

/-- A 256-bit descriptor (R97). -/
abbrev W256 := BitVec 256

/-- A logical tile number L (R55). -/
abbrev LTile := Fin 512

/-- A flat site index P (R56). -/
abbrev SiteIx := Fin 576

end Sys2Proof
end

