-- ==== Sys2Proof/Formats.lean ====
section
/-! DEFINITION. Formats.lean: the operand fields of a Novger instruction by format (R94). ENG and OP are the command
itself; a format's reserved bits stand as `res`, so that an instruction with a nonzero reserved field can be written down
and is refused by the machine as R95 states. -/

namespace Sys2Proof

/-- Format R. -/
structure FmtR where
  sd : BitVec 5
  sa : BitVec 5
  sb : BitVec 5
  fn : BitVec 7
  res : BitVec 32
  deriving DecidableEq, Repr

/-- Format I. -/
structure FmtI where
  sd : BitVec 5
  sa : BitVec 5
  fn : BitVec 12
  imm : BitVec 32
  deriving DecidableEq, Repr

/-- Format B. -/
structure FmtB where
  sa : BitVec 5
  sb : BitVec 5
  cond : BitVec 4
  res : BitVec 8
  off : BitVec 32
  deriving DecidableEq, Repr

/-- Format T. -/
structure FmtT where
  da : BitVec 4
  db : BitVec 4
  dc : BitVec 4
  ta : BitVec 3
  tb : BitVec 3
  tc : BitVec 3
  md : BitVec 16
  we : Bool
  wsem : BitVec 5
  se : Bool
  ssem : BitVec 5
  res : BitVec 5
  deriving DecidableEq, Repr

/-- Format W. -/
structure FmtW where
  sd : BitVec 5
  sa : BitVec 5
  sb : BitVec 5
  sm : BitVec 5
  cmp : BitVec 2
  wide : Bool
  res : BitVec 3
  timeout : BitVec 28
  deriving DecidableEq, Repr

/-- What goes wrong in one block sum of a Twill pass: a fault of the array flips bits of the sum of output (row, col),
a fault of the checker makes it mispredict the row. Such faults are facts of the part, not of the program. -/
structure Upset where
  row : BitVec 6
  col : BitVec 6
  block : BitVec 2
  flips : W32
  checker : Bool
  deriving DecidableEq, Repr

/-- The header of a remote-bag or update message (R319, R353). -/
structure BagHdr where
  tick : Nat
  ctx : Nat
  ltile : Nat
  instr : Nat
  deriving DecidableEq, Repr

/-- A part item of a remote-bag message with its row entries (R319): rows with their weights. -/
structure PartItem where
  table : Nat
  mode : Nat
  tag : Nat
  rows : List (Nat × Nat)
  deriving DecidableEq, Repr

/-- A return item of a pooled-return message with its data (R321). -/
structure RetItem where
  tag : Nat
  pstatus : Nat
  rows : Nat
  data : MBytes
  deriving DecidableEq, Repr

/-- A contribution item of an update message with its data items (R353): the FP32 elements. -/
structure ContribItem where
  table : Nat
  tver : Nat
  row : Nat
  seq : Nat
  vals : List Nat
  pois : Bool
  deriving DecidableEq, Repr

/-- What a command brings with which a semaphore signal comes, and whether the signal falls in the cycle of the next update
of its semaphore (R104). -/
structure Timed (α : Type) where
  val : α
  same : Bool
  deriving DecidableEq, Repr

/-- A row of a plane on its way: the logical tile it reaches and the one whose `twl.ldm` sent it (R172). -/
structure RowFrom where
  l : LTile
  src : LTile
  deriving DecidableEq, Repr

/-- What Bracken knows of programs that no rule derives from its tables: those whose steps swap planes at their start (R28),
issue bags to remote owners, or fetch from the fabric pool (R44). -/
structure PlanHints where
  swap : List (BitVec 32)
  remote : List (BitVec 32)
  fabric : List (BitVec 32)
  deriving DecidableEq, Repr

/-- What a memory request asks for: a read or write of bytes, an atomic (R143), or, of a control core, the answer to a FENCE
that orders its earlier stores (R503). -/
inductive MemOp where
  | read (n : Fin 129)
  | write (data : MBytes)
  | fetchAdd (wide : Bool) (v : W64)
  | cas (wide : Bool) (v cmp : W64)
  | fence
  deriving DecidableEq, Repr

/-- Words 0 and 1 of a group control payload (R523): the sender's TICK, GROUP_ID, TERM and SRC_NODE. -/
structure GrpHdr where
  tick : W64
  group : BitVec 16
  term : BitVec 16
  node : BitVec 10
  deriving DecidableEq, Repr

/-- The epoch fields of a group message (R528). -/
structure EpochFields where
  ns : W64
  tick : W64
  per : BitVec 12
  next : BitVec 12
  at_ : W64
  deriving DecidableEq, Repr

/-- Who manages a group, as a module's GRP_ROLE names it (R519). -/
structure GrpLead where
  manager : BitVec 10
  deputy : BitVec 10
  depValid : Bool
  deriving DecidableEq, Repr

/-- Words 2 to 8 of HEARTBEAT (R523), and what the sender's GRP_ROLE holds, which a heartbeat with a higher TERM makes the
receiver take (R526) and no word of the payload carries. -/
structure HbMsg where
  state : BitVec 3
  unaligned : Bool
  inSvc : Bool
  role : BitVec 2
  latch : W64
  latchTick : W64
  epoch : EpochFields
  lead : GrpLead
  deriving DecidableEq, Repr

/-- One entry of PLACEMENT (R523). -/
structure OmapEntry where
  bucket : BitVec 12
  node : BitVec 10
  valid : Bool
  deriving DecidableEq, Repr

/-- One item of DIGEST_REPORT (R539). -/
structure DigestItem where
  w0 : W64
  digest : W64
  passTick : W64
  w3 : W64
  deriving DecidableEq, Repr

/-- What every RoCEv2 packet that reaches the module carries: the QPN it names, its PSN (of a message: its first packet's),
the sub-port it arrived on, whether its ICRC holds and whether it is marked CE; `malformed`: its opcode is one the module
does not support, or its header is malformed (R485). -/
structure RocePkt where
  qpn : BitVec 24
  psn : BitVec 24
  sub : Fin 64
  icrc : Bool
  ce : Bool
  malformed : Bool
  deriving DecidableEq, Repr

/-- The memory a RoCEv2 request names (R426): remote key and client address. -/
structure RoceTarget where
  key : BitVec 32
  addr : W64
  deriving DecidableEq, Repr

/-- The header of a Damask packet (R488) with its IPv6 source address, the sub-port it arrived on and its CE mark. -/
structure DmHdr where
  ver : BitVec 4
  dst : BitVec 10
  node : BitVec 10
  addr : BitVec 128
  path : BitVec 12
  seq : BitVec 32
  bulk : Bool
  rel : BitVec 2
  ctx : BitVec 12
  off : BitVec 46
  ce : Bool
  sub : Fin 64
  deriving DecidableEq, Repr

/-- What a frame holds (R477), with its IPv6 destination address. -/
inductive Inner where
  | damask (dst : BitVec 128)
  | roce (dst : BitVec 128)
  | ptpUdp (dst : BitVec 128)
  | ptpEth
  | pfc
  | solicit (dst : BitVec 128)
  | echo (dst : BitVec 128) (data : List Byte)
  | other
  deriving DecidableEq, Repr

/-- A frame as a sub-port receives it: with a wrong FCS, bare, or protected by MACsec (association number, packet number,
whether its integrity check holds). -/
inductive Frame where
  | bad
  | bare (i : Inner)
  | msec (an : BitVec 2) (pn : W64) (ok : Bool) (i : Inner)
  deriving DecidableEq, Repr

/-- A time of the module clock (R508): TAI seconds and nanoseconds. -/
structure ClockTime where
  sec : BitVec 34
  ns : BitVec 30
  deriving DecidableEq, Repr

/-- A PLDM sensor (R616, R621): a numeric one by its identifier, or a state sensor. -/
inductive PldmSensor where
  | numeric (id : BitVec 16)
  | idKey
  | alarms
  | slot (c : Fin 4)
  deriving DecidableEq, Repr

/-- What a PLDM firmware transfer carries (R626, R633), with what verification of its signatures finds: `sig` the signature
by the Horpoal key, `cosig` the one by the operator key. An image names its component, version and interface version. A test
pack gives its header of eight words with the place Lichen gives it, and the writes by which Lichen places its program. -/
inductive FwItem where
  | image (comp : Fin 4) (ver iface : BitVec 32) (sig cosig : Bool)
  | pack (at_ : BitVec 40) (head : List W64) (places : List (BitVec 46 × List Byte)) (sig cosig : Bool)
  deriving DecidableEq, Repr

/-- What the site tests of bring-up find at one site (R657): a fault confined to one physical row of the array, or anything
worse. -/
inductive SiteFault where
  | row (q : Fin 65)
  | other
  deriving DecidableEq, Repr

end Sys2Proof
end

