-- ==== Sys2Proof/Syntax.lean ====
section
/-! DEFINITION. Syntax.lean: the commands the module takes: one constructor for each row of spec/opcode_table.json, in the
table's order, with its operands. A tile instruction names the logical tile whose step fetched it and the fields of its
format. Where a row stands for an event (a time that has passed, a level that was reached, an agent outside the module that
sends something), its operands carry what the event brings. -/

namespace Sys2Proof

/-- A command. -/
inductive Instr where
  /-- TICK_BOUNDARY (R14): The boundary T(n) arrives from the always-on domain, TK_COUNT rises by one and every
  block acts on the new tick. -/
  | tickBoundary (ns : W64)
  /-- TRANSIENT_WINDOW_CLEAR (R553): At a multiple of WINDOW_TICKS the per-site transient and checker counts clear.
  -/
  | transientWindowClear
  /-- HOLDOVER_EXPIRE (R47): After HOLDOVER_TICKS boundaries without the reference the module enters FREE_RUN. -/
  | holdoverExpire
  /-- REFERENCE_LOST (R510): REF_LOST becomes 1 and the alignment state moves to HOLDOVER or FREE_RUN. -/
  | referenceLost
  /-- REFERENCE_REGAINED (R47): The reference returns and the state moves to SLEWING or RESYNC by the offset. -/
  | referenceRegained (d : W64)
  /-- CLOCK_LOCKED (R47): In ACQUIRING the clock locks within LIMIT_NS and the module resyncs to LOCKED. -/
  | clockLocked (d : W64)
  /-- RESYNC_BOUNDARY (R49): The first reference boundary with m greater than TK_COUNT sets TK_COUNT to m and ends
  RESYNC. -/
  | resyncBoundary (m ns : W64)
  /-- TICK_ENABLE (R47): A write of TK_CTRL.ENABLE = 1 leaves STOPPED for ACQUIRING or FREE_RUN. -/
  | tickEnable
  /-- TICK_DISABLE (R47): A write of TK_CTRL.ENABLE = 0 stops boundaries at the next boundary, or at once from
  ACQUIRING or RESYNC. -/
  | tickDisable
  /-- EPOCH_LOAD (R22): A write of TK_CTRL.EPOCH_LOAD applies the stored epoch through the resync procedure. -/
  | epochLoad
  /-- TK_PERIOD_AT_WRITE (R17): A write of TK_PERIOD_AT is checked against the lead and, on the manager, triggers
  the EPOCH message. -/
  | tkPeriodAtWrite (v : W64)
  /-- PLAN_CLOSE (R29): At T(t+1) − PLAN_LEAD_US Bracken closes the plan, places steps and streams the lists and
  headers. -/
  | planClose (m : W64) (hints : PlanHints)
  /-- PAGE_LOAD_END (R121): A page load ends and the tile writes PROG_ID and sets VALID. -/
  | pageLoadEnd (l : LTile) (page : BitVec 4)
  /-- SEED_READ_RETURN (R256): A seed read issued when a list header became COMPLETE returns and the step's seed
  becomes valid or failed. -/
  | seedReadReturn (p : SiteIx) (index : BitVec 5)
  /-- ABORT_DRAIN_END (R38): An abort ends its drain and the tile starts its next list. -/
  | abortDrainEnd (l : LTile)
  /-- TL_RETIRE_GO (R61): A write of TL_RETIRE.GO submits a retirement request, accepted or rejected. -/
  | tlRetireGo (ltile : BitVec 9) (site : BitVec 5) (cause : BitVec 4)
  /-- RETIREMENT_COPY_END (R62): The retirement copy ends; held requests are delivered and the new site starts its
  list. -/
  | retirementCopyEnd (region : Fin 32)
  /-- UNMAPPED_REGISTER_ACCESS (R82): An unaligned, narrow or unmapped register access is discarded or reads 0 and
  writes a fault record. -/
  | unmappedRegisterAccess (src : Nat) (ctx : BitVec 12) (off : BitVec 32) (n : Fin 129) (write : Bool)
  /-- REGISTER_WRITE (R7): A write to a register field without a row of its own acts under its access code and range
  checks. -/
  | registerWrite (lichen : Bool) (ctx : BitVec 12) (off : BitVec 29) (v : W64)
  /-- PRESET_REGISTER_WRITE (R12): A write to a register with PRESET and EXPERT_EN loads a preset, enters expert
  mode or sets governed fields. -/
  | presetRegisterWrite (m : Fin 12) (preset : BitVec 4) (expert : Bool) (share : BitVec 7) (depth : BitVec 8)
  /-- SC_NOP (R136): No operation. -/
  | scNop (l : LTile) (rest : BitVec 54)
  /-- SC_ARITH (R137): Register–register arithmetic and logic selected by FN. -/
  | scArith (l : LTile) (f : FmtR)
  /-- SC_ARITH_IMM (R137): Register–immediate arithmetic and logic selected by FN. -/
  | scArithImm (l : LTile) (f : FmtI)
  /-- SC_LI (R139): Load a sign-extended immediate. -/
  | scLi (l : LTile) (f : FmtI)
  /-- SC_LIH (R139): Load an immediate into bits [63:32]. -/
  | scLih (l : LTile) (f : FmtI)
  /-- SC_LD (R141): Scalar load from local store or a virtual address. -/
  | scLd (l : LTile) (f : FmtI)
  /-- SC_LD_RETURN (R142): The value of a scalar or descriptor load returns and the sequencer resumes. -/
  | scLdReturn (l : LTile)
  /-- SC_ST (R141): Scalar store with release attribute. -/
  | scSt (l : LTile) (f : FmtI)
  /-- SC_AADD (R143): Atomic fetch-and-add at the owning memory. -/
  | scAadd (l : LTile) (f : FmtR)
  /-- SC_CAS (R143): Atomic compare-and-swap at the owning memory. -/
  | scCas (l : LTile) (f : FmtR)
  /-- SC_BR (R146): Conditional branch. -/
  | scBr (l : LTile) (f : FmtB)
  /-- SC_JAL (R147): Jump relative and link. -/
  | scJal (l : LTile) (f : FmtI)
  /-- SC_JR (R147): Jump to register and link. -/
  | scJr (l : LTile) (f : FmtR)
  /-- DSC_LD (R148): Load a descriptor register from memory. -/
  | dscLd (l : LTile) (f : FmtI)
  /-- DSC_ST (R148): Store a descriptor register to memory. -/
  | dscSt (l : LTile) (f : FmtI)
  /-- DSC_MV (R150): Copy a descriptor register. -/
  | dscMv (l : LTile) (f : FmtR)
  /-- DSC_PUT (R150): Write one 64-bit quarter of a descriptor register. -/
  | dscPut (l : LTile) (f : FmtR)
  /-- DSC_GET (R150): Read one 64-bit quarter of a descriptor register. -/
  | dscGet (l : LTile) (f : FmtR)
  /-- DSC_ADV (R150): Add to a descriptor's BASE. -/
  | dscAdv (l : LTile) (f : FmtR)
  /-- TCK_CNT (R152): Write the tick number of the running list. -/
  | tckCnt (l : LTile) (f : FmtR)
  /-- TCK_NS (R152): Write the nanoseconds since the boundary. -/
  | tckNs (l : LTile) (f : FmtR) (ns : W64)
  /-- STP_CYC (R152): Write the cycles since step start. -/
  | stpCyc (l : LTile) (f : FmtR) (cyc : W64)
  /-- STP_END (R115): End the step once every operation has completed, returned or been accepted. -/
  | stpEnd (l : LTile) (rest : BitVec 54)
  /-- SEM_SIG (R155): Signal a semaphore of a logical tile. -/
  | semSig (l : LTile) (f : FmtI)
  /-- SEM_WAIT (R156): Wait for and consume a semaphore count. -/
  | semWait (l : LTile) (f : FmtI)
  /-- SEM_SUB (R157): Subtract from a semaphore without waiting. -/
  | semSub (l : LTile) (f : FmtI)
  /-- SEM_SET (R156): Replace a semaphore count. -/
  | semSet (l : LTile) (f : FmtI)
  /-- SEM_RD (R156): Read a semaphore count. -/
  | semRd (l : LTile) (f : FmtI)
  /-- SIGNAL_ARRIVE (R102): A semaphore signal from another tile arrives over the mesh and is counted. -/
  | signalArrive (src dst : LTile) (sem : Timed (BitVec 5))
  /-- TL_SEM_SIGNAL (R108): A write of TL_SEM[s].SIGNAL signals the semaphore with amount 1. -/
  | tlSemSignal (l : LTile) (sem : Timed (BitVec 5))
  /-- WT_MEM (R111): Memory-value wait. -/
  | wtMem (l : LTile) (f : FmtW)
  /-- WAIT_READ_RETURN (R111): A wait read returns and either satisfies the wait or schedules the next poll. -/
  | waitReadReturn (l : LTile)
  /-- WAIT_POLL_TIMER (R111): A poll interval expires and the sync unit issues the next wait read. -/
  | waitPollTimer (l : LTile)
  /-- MEM_WAIT_TIMEOUT (R112): TIMEOUT expires and the wait completes with the last value read. -/
  | memWaitTimeout (l : LTile)
  /-- ENGINE_INSTRUCTION_START (R91): An engine starts the head instruction of its queue once its order, room and
  semaphore wait allow. -/
  | engineInstructionStart (l : LTile) (eng : Fin 6)
  /-- ENGINE_INSTRUCTION_COMPLETE (R102): An engine instruction completes and signals SSEM if SE is set. -/
  | engineInstructionComplete (l : LTile) (eng : Fin 6) (n : Timed Nat)
  /-- DMA_CP (R161): Copy a tensor. -/
  | dmaCp (l : LTile) (t : FmtT)
  /-- DMA_FILL (R163): Fill a tensor with its PAD value. -/
  | dmaFill (l : LTile) (t : FmtT)
  /-- DMA_CMPL (R165): Write the command's completion record and increment. -/
  | dmaCmpl (l : LTile) (t : FmtT)
  /-- TWL_MM (R175): Matrix pass over the active weight plane. -/
  | twlMm (l : LTile) (t : FmtT)
  /-- TWL_LD (R169): Load the shadow weight plane. -/
  | twlLd (l : LTile) (t : FmtT)
  /-- TWL_LDM (R172): Load shadow planes of the quad by multicast. -/
  | twlLdm (l : LTile) (t : FmtT)
  /-- TWILL_LOAD_COMPLETE (R170): A plane load ends and the shadow plane becomes valid unless loads overlapped. -/
  | twillLoadComplete (l : LTile)
  /-- MULTICAST_ROW_ARRIVE (R172): A multicast row reaches a receiving tile; after the last row its plane becomes
  valid and RSEM is signalled. -/
  | multicastRowArrive (row : Timed RowFrom)
  /-- TWILL_PASS_COMPLETE (R177): A Twill pass writes its last word of TC and its residue check is decided. -/
  | twillPassComplete (l : LTile) (us : List Upset)
  /-- REPLAY_START (R548): Within 2 µs of a mismatch the tile restarts the step at ENTRY with its step-start state
  restored. -/
  | replayStart (l : LTile)
  /-- SAMPLE_SEND_TIMEOUT (R555): A sample that cannot leave the port within 20 µs is dropped and counted. -/
  | sampleSendTimeout (p : SiteIx)
  /-- SAMPLE_RESULT (R556): The spare's two results, and any referee run, decide the sample outcome. -/
  | sampleResult (p : SiteIx) (twoEqual same pois : Bool) (referee : Option Bool)
  /-- FRD_EW (R179): Element-wise operation. -/
  | frdEw (l : LTile) (t : FmtT)
  /-- FRD_CHN (R283): Chain of up to eight element-wise operations. -/
  | frdChn (l : LTile) (t : FmtT)
  /-- FRD_CVT (R185): Format conversion and quantisation. -/
  | frdCvt (l : LTile) (t : FmtT)
  /-- FRD_RED (R187): Reduction along one axis of a tile register. -/
  | frdRed (l : LTile) (t : FmtT)
  /-- FRD_TOPK (R190): Top-k selection. -/
  | frdTopk (l : LTile) (t : FmtT)
  /-- FRD_PERM (R192): Permute by index register. -/
  | frdPerm (l : LTile) (t : FmtT)
  /-- FRD_SHF (R194): Fixed shuffle patterns and transpose. -/
  | frdShf (l : LTile) (t : FmtT)
  /-- FRD_PACK (R196): Pack narrow elements into words. -/
  | frdPack (l : LTile) (t : FmtT)
  /-- FRD_UNPK (R196): Unpack words into narrow elements. -/
  | frdUnpk (l : LTile) (t : FmtT)
  /-- MSS_BAG (R199): Issue bag requests. -/
  | mssBag (l : LTile) (t : FmtT)
  /-- MSS_RAW (R201): Fetch raw rows from the fabric pool. -/
  | mssRaw (l : LTile) (t : FmtT)
  /-- MSS_UPD (R202): Send row update contributions. -/
  | mssUpd (l : LTile) (t : FmtT)
  /-- TABLE_ENTRY_READ_RETURN (R308): A table-entry cache miss returns its directory entry and issue resumes. -/
  | tableEntryReadReturn (l : LTile)
  /-- PART_ACCEPT (R296): A Moss engine accepts a waiting part once its part table and row buffer have room. -/
  | partAccept (m : Fin 12)
  /-- RECORD_READ_RETURN (R342): A row record read returns and passes, or is read again, under the reader rule. -/
  | recordReadReturn (m : Fin 12) (k row : Nat)
  /-- PART_POOLED (R309): An engine finishes pooling a part and sends its return item. -/
  | partPooled (m : Fin 12) (k : Nat)
  /-- POOLED_RETURN_ARRIVE (R315): A return item reaches the issue unit and completes its part. -/
  | pooledReturnArrive (l : LTile) (tag : W32)
  /-- PART_TIMEOUT (R315): A remote part fails with TIMEOUT after its allowance passes. -/
  | partTimeout (l : LTile) (tag : W32)
  /-- UPDATE_TIMEOUT (R354): A contribution without acknowledgement within its allowance is marked TIMEOUT. -/
  | updateTimeout (l : LTile) (seq : W32)
  /-- APPLY_PASS (R358): At T(t) + CLOSE_US the engine applies held merge entries of earlier windows. -/
  | applyPass (m : Fin 12)
  /-- MS_TDIR_INVAL (R332): A write of MS_TDIR.INVAL discards every cached directory entry on the module. -/
  | msTdirInval
  /-- MEMORY_REQUEST (R386): A request reaches a memory controller, which acts on the snoop filter, checks codes and
  tags and performs it. -/
  | memoryRequest (src : Nat) (ctx : BitVec 12) (pa : BitVec 56) (op : MemOp) (parity : Bool) (flip : BitVec 144)
  /-- REGION_CACHE_ACCESS (R388): A region master's access looks up the region cache and hits or misses. -/
  | regionCacheAccess (r : Fin 32) (port : Nat) (ctx : BitVec 12) (off : BitVec 46) (w : Option MBytes) (n : Fin
      129) (hurt : Option (BitVec 39)) (flip : BitVec 144)
  /-- CACHE_FILL_RETURN (R389): A miss's whole line arrives and the blocked port is released. -/
  | cacheFillReturn (r : Fin 32) (line : BitVec 39)
  /-- LOCK_MASK_WRITE (R392): Setting or clearing LOCK_MASK bits writes back and invalidates the ways. -/
  | lockMaskWrite (r : Fin 32) (mask : BitVec 16)
  /-- RC_PRELOAD_GO (R392): A write of RC_PRELOAD.GO starts filling and locking COUNT lines. -/
  | rcPreloadGo (r : Fin 32) (way : BitVec 4) (addr : BitVec 39)
  /-- RC_PRELOAD_END (R392): A preload finishes and RC_PRELOAD_STATUS holds its result. -/
  | rcPreloadEnd (r : Fin 32)
  /-- LOCK_WINDOW_ACCESS (R393): An access to a region's lock window reads or writes a locked line's stored words.
  -/
  | lockWindowAccess (src : Nat) (ctx : BitVec 12) (r : Fin 32) (w : BitVec 23) (op : MemOp)
  /-- SCRUB_READ (R382): The patrol scrub reads a word and writes back its corrected or poisoned form. -/
  | scrubRead (off : BitVec 46) (flip : BitVec 144)
  /-- MEM_MAPOUT_GO (R371): A write of MEM_MAPOUT.GO maps out a channel live and starts migration. -/
  | memMapoutGo (m : Fin 12) (ch : BitVec 5)
  /-- MIGRATION_MOVE (R372): The controller moves the next granule to its location under the new channel count. -/
  | migrationMove (m : Fin 12)
  /-- PEAT_PACKAGE_FAIL (R375): A package stops answering and is marked FAILED in MEM_PKGMAP. -/
  | peatPackageFail (p : Fin 16)
  /-- MEM_PPR_GO (R395): A write of MEM_PPR.GO starts a hard repair of a DRAM row. -/
  | memPprGo (m : Fin 12) (ch : BitVec 5) (pc : Bool) (bank : BitVec 4) (row : BitVec 18)
  /-- PPR_COMPLETE (R395): A hard repair ends and MEM_PPR_STATUS reports it. -/
  | pprComplete (m : Fin 12) (ok : Bool) (spares : BitVec 8)
  /-- WALK_COMPLETE (R413): A page-table walk ends with a translation or a fault cause. -/
  | walkComplete (site : Option SiteIx) (ctx : BitVec 12) (va : W64) (write stale : Bool)
  /-- XL_INVAL_GO (R415): A write of XL_INVAL.GO starts an invalidation of the selected scope. -/
  | xlInvalGo (scope : BitVec 2) (ctx : BitVec 12) (pages : BitVec 20)
  /-- INVALIDATION_ARRIVE (R417): An invalidation reaches a tile, which removes the matching TLB entries. -/
  | invalidationArrive (p : SiteIx)
  /-- DRAIN_REPORT (R417): A tile reports completion once every access under removed entries has drained. -/
  | drainReport (p : SiteIx)
  /-- INVALIDATION_COMPLETE (R417): The last report arrives; BUSY clears and DONE_SEQ increments. -/
  | invalidationComplete
  /-- XL_TAG_SET_GO (R421): A write of XL_TAG_SET.GO writes context tags at every holder and region cache. -/
  | xlTagSetGo (first : BitVec 25) (count : BitVec 20) (tag : BitVec 12)
  /-- TAG_SET_COMPLETE (R421): Every holder and region cache has applied the tag change; BUSY clears. -/
  | tagSetComplete
  /-- XL_TAG_RD (R422): Reads one granule's tag as the holder has it. -/
  | xlTagRd (g : BitVec 25)
  /-- XL_WINVAL_GO (R430): A write of XL_WINVAL.GO removes a window entry from both N-die caches. -/
  | xlWinvalGo (index : BitVec 13) (all : Bool)
  /-- WINDOW_REMOVAL_COMPLETE (R430): Both caches have removed the entry and its accesses drained; BUSY clears. -/
  | windowRemovalComplete
  /-- DOORBELL_NOTIFY (R446): A write to a queue's doorbell word notifies Bracken and sets DB_PEND. -/
  | doorbellNotify (q : BitVec 10)
  /-- RING_ENTRY_FETCH (R446): A ring entry or doorbell-word read returns and the queue accepts, waits, arms or
  parks. -/
  | ringEntryFetch (q : BitVec 10) (far : Option (List Byte))
  /-- STALE_ENTRY_REREAD (R446): 32 ns after a stale read the entry is read again. -/
  | staleEntryReread (t : BitVec 10 ⊕ Fin 8) (far : Option (List Byte))
  /-- QUEUE_ENABLE (R440): BK_QCMD ENABLE reads the queue entry and arms the queue. -/
  | queueEnable (q : BitVec 10) (skip : BitVec 32)
  /-- QUEUE_DISABLE (R440): BK_QCMD DISABLE stops reading entries and releases a held watch. -/
  | queueDisable (q : BitVec 10)
  /-- QUEUE_PARK (R440): BK_QCMD PARK parks the queue with cause SOFTWARE. -/
  | queuePark (q : BitVec 10)
  /-- QUEUE_RESUME (R440): BK_QCMD RESUME skips SKIP entries and serves the queue again. -/
  | queueResume (q : BitVec 10) (skip : BitVec 32)
  /-- BRACKEN_ENABLE (R665): Setting BK_CTRL.ENABLE aborts overdue commands, rereads watches and resumes queues and
  plans. -/
  | brackenEnable
  /-- BRACKEN_DISABLE (R665): Clearing BK_CTRL.ENABLE stops entry reads, acceptance and plan closes. -/
  | brackenDisable
  /-- WATCH_READ_RETURN (R448): A watched value is read and compared; satisfied entries are accepted. -/
  | watchReadReturn (q : BitVec 10)
  /-- WATCH_NOTIFY (R448): A write performed to a watched local line triggers a new read. -/
  | watchNotify (q : BitVec 10)
  /-- WATCH_POLL (R448): REMOTE_POLL_US expires and a remote watched value is read again. -/
  | watchPoll (q : BitVec 10)
  /-- WAIT_TIMEOUT (R449): WAIT_TICKS boundaries pass unsatisfied and the command completes WAIT_TIMEOUT. -/
  | waitTimeout (q : BitVec 10)
  /-- WORK_DOORBELL (R451): A control core writes BK_WORK_DB.PROD and Bracken consumes its work ring. -/
  | workDoorbell (h : Fin 8) (prod : BitVec 32)
  /-- WORK_ROWS (R452): A ROWS work record adds a segment of candidate rows. -/
  | workRows (tag prog key : BitVec 32) (rows : BitVec 7) (va : BitVec 48)
  /-- WORK_STEP (R459): A STEP work record adds a step to place. -/
  | workStep (tag prog : BitVec 32) (va : BitVec 48) (last : Bool) (tile : Option LTile)
  /-- WORK_CLOSE (R452): A CLOSE work record states that the command has no further records. -/
  | workClose (tag : BitVec 32)
  /-- WORK_DONE (R452): A DONE work record completes the command with its status. -/
  | workDone (tag : BitVec 32) (status : BitVec 8)
  /-- STEP_RELEASED (R505): A tile reports a step released once its writes have completed for release. -/
  | stepReleased (tag : BitVec 32) (p : SiteIx)
  /-- COMPLETION_RECORD_WRITE (R464): Once its release conditions hold the source sends a completion record with
  release. -/
  | completionRecordWrite (tag : BitVec 32) (src : Option SiteIx)
  /-- COMPLETION_INCREMENT (R464): After the record completes for release the increment is performed. -/
  | completionIncrement (tag : BitVec 32)
  /-- CONS_PUBLISH (R447): Bracken writes a queue's consumer index to CONS_VA. -/
  | consPublish (q : BitVec 10)
  /-- FRAME_RECEIVE (R477): A sub-port receives a frame and accepts, answers or drops it. -/
  | frameReceive (sub : Fin 64) (f : Frame)
  /-- PFC_FRAME (R476): A received PFC frame pauses the named priority. -/
  | pfcFrame (sub : Fin 64) (pause resume : BitVec 8)
  /-- LINK_UP (R475): A sub-port link comes up and joins the links in service. -/
  | linkUp (sub : Fin 64)
  /-- LINK_DOWN (R518): A sub-port goes down; queued messages are retransmitted elsewhere and QPs move. -/
  | linkDown (sub : Fin 64) (lanes : BitVec 8)
  /-- FEC_DEG_WINDOW (R514): A 100 ms window ends and FEC_DEG is set or cleared. -/
  | fecDegWindow (sub : Fin 64) (errors bitsIn : W64) (uncorr : BitVec 16)
  /-- MSEC_INSTALL (R515): DM_MSEC_SEL OP install loads key, salt, SSCI and PN into an association. -/
  | msecInstall (p : Fin 16) (k : Fin 4) (rx : Bool) (an : BitVec 2)
  /-- MSEC_DELETE (R515): DM_MSEC_SEL OP delete removes an association. -/
  | msecDelete (p : Fin 16) (k : Fin 4) (rx : Bool) (an : BitVec 2)
  /-- MSEC_ACTIVATE (R515): DM_MSEC_SEL OP make active switches the transmit association. -/
  | msecActivate (p : Fin 16) (k : Fin 4) (rx : Bool) (an : BitVec 2)
  /-- QP_ENABLE (R482): DM_QPCMD ENABLE reads the QP entry and makes the QP READY. -/
  | qpEnable (i : BitVec 12)
  /-- QP_DISABLE (R482): DM_QPCMD DISABLE drops the QP's state. -/
  | qpDisable (i : BitVec 12)
  /-- RDMA_WRITE (R483): A RoCEv2 RDMA Write is admitted through its window and performed in PSN order. -/
  | rdmaWrite (p : RocePkt) (t : RoceTarget) (data : List Byte)
  /-- WRITE_WITH_IMMEDIATE (R484): A RoCEv2 Write with Immediate is performed and writes a receive slot header. -/
  | writeWithImmediate (p : RocePkt) (t : RoceTarget) (data : List Byte) (imm : BitVec 32)
  /-- RDMA_READ (R483): A RoCEv2 RDMA Read returns data including earlier writes of the QP. -/
  | rdmaRead (p : RocePkt) (t : RoceTarget) (len : BitVec 32) (full : Bool)
  /-- SEND (R484): A RoCEv2 Send writes its payload and header into the next receive slot. -/
  | send (p : RocePkt) (data : List Byte) (imm : Option (BitVec 32))
  /-- FETCH_AND_ADD (R480): A RoCEv2 atomic Fetch-and-Add is performed as target. -/
  | fetchAndAdd (p : RocePkt) (t : RoceTarget) (v : W64) (full : Bool)
  /-- COMPARE_AND_SWAP (R480): A RoCEv2 atomic Compare-and-Swap is performed as target. -/
  | compareAndSwap (p : RocePkt) (t : RoceTarget) (v cmp : W64) (full : Bool)
  /-- CNP (R486): A received CNP halves the QP's send rate. -/
  | cnp (p : RocePkt)
  /-- CNP_GAP_TIMER (R486): CNP_GAP_US without a CNP raises the QP's rate by 1 Gb/s. -/
  | cnpGapTimer (i : BitVec 12)
  /-- ROCE_ACK (R487): An ACK for a requester record or increment arrives and completes it for release. -/
  | roceAck (p : RocePkt)
  /-- ROCE_NAK (R487): A NAK for a requester operation diverts the record and moves the QP to ERROR. -/
  | roceNak (p : RocePkt) (syndrome : BitVec 8)
  /-- ROCE_ACK_TIMEOUT (R487): ACK_TIMEOUT expires and the operation is retried or diverted ROCE_TIMEOUT. -/
  | roceAckTimeout (i : BitVec 12)
  /-- ROCE_RNR_RETRY (R487): The RNR timer expires and the operation is retried or diverted. -/
  | roceRnrRetry (i : BitVec 12)
  /-- OPEN (R492): A Damask OPEN opens a receive path. -/
  | dmOpen (h : DmHdr)
  /-- CLOSE (R492): A Damask CLOSE is performed in order and frees the receive path. -/
  | dmClose (h : DmHdr)
  /-- ACK (R494): A Damask ACK acknowledges messages, triggers SACK retransmission and adjusts the window. -/
  | dmAck (h : DmHdr) (sack : W64) (ece : Bool)
  /-- RESET (R492): A Damask RESET fails the path's unacknowledged messages and reopens a path. -/
  | dmReset (h : DmHdr)
  /-- WRITE (R493): A Damask WRITE is performed, or held until its predecessors are performed. -/
  | dmWrite (h : DmHdr) (data : MBytes)
  /-- READ (R490): A Damask READ is performed and answered with READ_RESP. -/
  | dmRead (h : DmHdr) (tag : BitVec 32) (len : BitVec 14)
  /-- READ_RESP (R490): A READ_RESP delivers data or status to the requester. -/
  | dmReadResp (h : DmHdr) (tag : BitVec 32) (status : BitVec 8) (data : MBytes)
  /-- ATOMIC (R490): A Damask ATOMIC is performed and answered with ATOMIC_RESP. -/
  | dmAtomic (h : DmHdr) (tag : BitVec 32) (cas wide : Bool) (v cmp : W64)
  /-- ATOMIC_RESP (R490): An ATOMIC_RESP delivers the old value to the requester. -/
  | dmAtomicResp (h : DmHdr) (tag : BitVec 32) (status : BitVec 8) (old : W64) (pois : Bool)
  /-- WRITE_ERR (R490): A WRITE_ERR names a discarded write and may raise an exception on the running step. -/
  | dmWriteErr (h : DmHdr) (seq : BitVec 32) (status : BitVec 8) (path : BitVec 12)
  /-- REMOTE_BAG (R320): An owner receives a remote-bag message and serves or refuses each part. -/
  | dmRemoteBag (h : DmHdr) (g : BagHdr) (raw : Bool) (parts : List PartItem)
  /-- POOLED_RETURN (R321): A pooled-return message delivers return items to the requester. -/
  | dmPooledReturn (h : DmHdr) (l : LTile) (items : List RetItem)
  /-- UPDATE (R354): An owner receives update contributions and gives each a USTATUS. -/
  | dmUpdate (h : DmHdr) (g : BagHdr) (cs : List ContribItem)
  /-- UPDATE_ACK (R355): Update acknowledgements arrive and complete update groups. -/
  | dmUpdateAck (h : DmHdr) (l : LTile) (acks : List (BitVec 32 × BitVec 8))
  /-- ACK_DELAY_TIMER (R494): ACK_DELAY_NS after a change the receiver sends an ACK. -/
  | ackDelayTimer (node : BitVec 10) (path : BitVec 12)
  /-- DAMASK_RETRANSMIT_TIMER (R495): A message's retransmission timer expires and it is retransmitted or the path
  fails. -/
  | damaskRetransmitTimer (path : BitVec 12) (seq : BitVec 32)
  /-- PATH_IDLE_CLOSE (R492): A path idle for IDLE_MS is closed with CLOSE. -/
  | pathIdleClose (path : BitVec 12)
  /-- PTP_FRAME_RECEIVE (R509): A PTP message is timestamped and written to the receive ring. -/
  | ptpFrameReceive (sub : Fin 64) (t : ClockTime) (frame : List Byte)
  /-- PTP_TRANSMIT (R509): A write of TX_PROD sends PTP messages from the transmit ring with timestamps. -/
  | ptpTransmit (prod : BitVec 16) (times : List ClockTime)
  /-- PTP_TIME_STEP (R508): A write of DM_PTP_TIME steps the module clock. -/
  | ptpTimeStep (t : ClockTime)
  /-- PPS_IN_EDGE (R511): A 1PPS input edge is timestamped into DM_PPS_IN. -/
  | ppsInEdge (t : ClockTime)
  /-- PPS_OUT (R511): The 1PPS output rises at each whole TAI second. -/
  | ppsOut
  /-- HEARTBEAT (R526): A HEARTBEAT arrives, is checked for term and updates member state and digests. -/
  | heartbeat (h : DmHdr) (g : GrpHdr) (m : HbMsg)
  /-- HEARTBEAT_MISSED (R525): A due heartbeat has not arrived by T(k + HB_TICKS). -/
  | heartbeatMissed (node : BitVec 10) (k : W64)
  /-- DIGEST_LATE (R533): No latch for interval k has arrived by T(k + 2 × HB_TICKS). -/
  | digestLate (node : BitVec 10) (k : W64)
  /-- EPOCH (R529): An EPOCH message makes a worker apply a period change or resync its epoch. -/
  | epoch (h : DmHdr) (g : GrpHdr) (e : EpochFields)
  /-- TAKEOVER (R526): A TAKEOVER message updates manager, deputy and term. -/
  | takeover (h : DmHdr) (g : GrpHdr) (l : GrpLead)
  /-- SERVICE (R530): A SERVICE message writes IN_SERVICE, BY_MGR and CAUSE. -/
  | service (h : DmHdr) (g : GrpHdr) (inSvc : Bool) (cause : BitVec 8)
  /-- PLACEMENT (R536): A PLACEMENT message writes owner map entries as pending. -/
  | placement (h : DmHdr) (g : GrpHdr) (at_ : W64) (es : List OmapEntry)
  /-- DIGEST_REPORT (R539): A DIGEST_REPORT arrives at the manager and its items enter the report ring. -/
  | digestReport (h : DmHdr) (g : GrpHdr) (items : List DigestItem)
  /-- MAINT_REQ (R541): The manager queues a maintenance request and grants it when allowed. -/
  | maintReq (h : DmHdr) (g : GrpHdr) (kind : BitVec 2) (arg : BitVec 12)
  /-- MAINT_GRANT (R541): A worker receives its grant and records the grant tick. -/
  | maintGrant (h : DmHdr) (g : GrpHdr) (kind : BitVec 2) (arg : BitVec 12) (tick : W64)
  /-- MAINT_DONE (R541): The manager receives MAINT_DONE and frees or counts the operation. -/
  | maintDone (h : DmHdr) (g : GrpHdr) (kind : BitVec 2) (arg : BitVec 12) (unplanned : Bool)
  /-- SNAP_AT (R651): A member accepts a SNAP_AT and sets a pending group snapshot. -/
  | snapAt (h : DmHdr) (g : GrpHdr) (at_ : W64) (tag : BitVec 16)
  /-- DIGEST_PASS_END (R539): A weight digest pass ends, writes its digests and sends DIGEST_REPORT items. -/
  | digestPassEnd
  /-- DEPUTY_WRITE (R521): On an enabled manager a write of DEPUTY_NODE and DEP_VALID sends TAKEOVER. -/
  | deputyWrite (dep : BitVec 10) (valid : Bool)
  /-- SVC_CMD_GO (R530): A write of GRP_SVC_CMD.GO sends SERVICE to a member. -/
  | svcCmdGo (node : BitVec 10) (inSvc : Bool)
  /-- OMAP_SEND (R536): A write of GRP_OMAP_CMD.SEND sends PLACEMENT messages to every member. -/
  | omapSend
  /-- MAINT_GO (R541): A write of GRP_MAINT.GO sends MAINT_REQ. -/
  | maintGo (kind : BitVec 2) (arg : BitVec 12)
  /-- MAINT_DONE_CMD (R541): A write of GRP_MAINT.DONE sends MAINT_DONE. -/
  | maintDoneCmd
  /-- FAULT_RECORD (R565): A fault record reaches the collector, takes its SEQ and enters the ring or overflows. -/
  | faultRecord
  /-- FAULT_IRQ (R570): The coalescing interval expires and the collector interrupts the control cores. -/
  | faultIrq
  /-- OVERFLOW_CLEAR (R569): Writing 1 to FLT_STATUS.OVERFLOW clears the sticky record and counts and re-arms the
  ring. -/
  | overflowClear
  /-- CONTEXT_CLEAR (R609): A write of FLT_CTX.CLEAR ends a context's termination as a context reset. -/
  | contextClear (ctx : BitVec 12)
  /-- SWREC_GO (R576): A write of FLT_SWREC.GO sends a class 22 record. -/
  | swrecGo (cause : BitVec 8) (level : BitVec 3) (aux : BitVec 31)
  /-- INPUT_POWER_PRESENT (R654): The input reaches 40.0 V and the standby domain and Lichen start. -/
  | inputPowerPresent (mesh lid : Bool)
  /-- POWER_REMOVAL (R595): The input falls below 40.0 V and everything stops. -/
  | powerRemoval
  /-- PWR_EN_ASSERT (R580): PWR_EN asserted in range closes the switch and starts the main rails. -/
  | pwrEnAssert (inRange : Bool)
  /-- PWR_EN_DEASSERT (R580): PWR_EN deasserted opens the switch within 10 µs. -/
  | pwrEnDeassert
  /-- RAILS_IN_REGULATION (R580): Every main rail is in regulation and PWR_GOOD is asserted. -/
  | railsInRegulation
  /-- OVERVOLTAGE (R581): Input above 61.0 V for 10 µs opens the switch. -/
  | overvoltage
  /-- OVERVOLTAGE_RECOVERY (R581): Input below 59.0 V for 100 ms closes the switch as a module reset. -/
  | overvoltageRecovery
  /-- SHORT (R581): Current above 120 A for 1 µs opens the switch, latched. -/
  | short
  /-- OVERCURRENT (R581): Current above 75 A for 100 µs opens the switch, latched. -/
  | overcurrent
  /-- OPEN_PAIR (R581): An open or high-resistance pair sets OPEN_PAIR and lowers the cap to 1,800 W. -/
  | openPair
  /-- OPEN_PAIR_RECOVER (R581): The pair recovers for 1 s and the cap limit is restored. -/
  | openPairRecover
  /-- C_DIE_RAIL_FAULT (R581): A C-die rail leaves ±6 % for 5 µs and the die is isolated. -/
  | cDieRailFault (die : Fin 8)
  /-- RAIL_FAULT (R581): Another main rail leaves regulation and the switch opens, latched. -/
  | railFault (rail : BitVec 8)
  /-- UV_WARN (R583): The input stays below the warning level for 2 µs; UV_STEP rises and a snapshot fires. -/
  | uvWarn
  /-- UV_DWELL_TIMER (R583): Each further DWELL_US below the warning level raises UV_STEP. -/
  | uvDwellTimer
  /-- UV_RECOVER_TIMER (R583): Each RECOVER_US above the recovery level lowers UV_STEP, and UV_RECOVER at 0. -/
  | uvRecoverTimer
  /-- UV_RESET (R584): Input below 42.0 V for 5 µs starts an undervoltage reset. -/
  | uvReset
  /-- CAP_WINDOW (R588): A power window ends and CAP_STEP rises or falls. -/
  | capWindow (avg : BitVec 16)
  /-- PW_CLK_WRITE (R587): A write of PW_CLK.REQ_MHZ sets BASE_MHZ, clamped to the part maximum. -/
  | pwClkWrite (mhz : BitVec 12)
  /-- DIE_TEMP_WARN (R590): A C-die reaches TJ_WARN_C or a further 3 °C and DIE_STEP rises. -/
  | dieTempWarn (die : Fin 8) (t : BitVec 8)
  /-- DIE_STEP_RECOVER (R590): After RECOVER_US below its threshold a die's DIE_STEP falls by 1. -/
  | dieStepRecover (die : Fin 8)
  /-- THERM_DIE_TRIP (R589): A C-die reaches 110 °C and is isolated; THERM_TRIP_N goes low. -/
  | thermDieTrip (die : Fin 8)
  /-- THERM_MODULE_TRIP (R589): An N-die or HBM stack reaches its trip and the switch opens, latched. -/
  | thermModuleTrip (pt : Fin 2 ⊕ Fin 12)
  /-- COOLANT_CONDITION (R590): Coolant inlet or flow leaves its limit and COOL_STEP rises. -/
  | coolantCondition (c : Fin 3) (holds : Bool)
  /-- COOLANT_RECOVER (R590): No coolant condition for 1 s returns COOL_STEP to 0. -/
  | coolantRecover
  /-- TILE_RESET (R604): PW_RST_CMD OP 0 requests a tile reset at tick AT. -/
  | tileReset (target : BitVec 9)
  /-- REGION_RESET (R604): PW_RST_CMD OP 1 requests a region reset at tick AT. -/
  | regionReset (target : BitVec 9)
  /-- REGION_SLEEP (R606): PW_RST_CMD OP 2 requests a region sleep at tick AT. -/
  | regionSleep (target : BitVec 9)
  /-- REGION_WAKE (R607): PW_RST_CMD OP 3 wakes a sleeping region at once. -/
  | regionWake (target : BitVec 9)
  /-- MODULE_RESET_CMD (R602): PW_RST_CMD OP 4 requests a module reset at T(AT), with optional FLUSH. -/
  | moduleResetCmd (flush : Bool)
  /-- RESET_READY (R605): A reset or woken site or region is ready and its held requests are delivered. -/
  | resetReady
  /-- RESET_PIN (R601): RESET_IN_N low for 1 µs starts a module reset. -/
  | resetPin
  /-- MODULE_RESET (R602): A module reset cause stops every engine, records the cause and clears M, T and C fields.
  -/
  | moduleReset (code : BitVec 4)
  /-- MODULE_RESET_RELEASE (R602): The cause ends after 100 µs; L fields are restored and the control cores start.
  -/
  | moduleResetRelease (fails : BitVec 4)
  /-- LICHEN_COMMIT (R598): Lichen commits held and hardware-changed L fields to its store. -/
  | lichenCommit
  /-- STORE_WRITE_FAIL (R615): A store write fails three times and the store is marked degraded. -/
  | storeWriteFail
  /-- SENSOR_POLL (R617): Lichen polls a sensor, marking it lost after 10 invalid polls or recovered. -/
  | sensorPoll (s : BitVec 16) (reading : Option W32)
  /-- SET_ENDPOINT_ID (R621): MCTP Set Endpoint ID. -/
  | setEndpointId (eid : BitVec 8)
  /-- GET_ENDPOINT_ID (R621): MCTP Get Endpoint ID. -/
  | getEndpointId
  /-- GET_MCTP_VERSION_SUPPORT (R621): MCTP Get MCTP Version Support. -/
  | getMctpVersionSupport
  /-- GET_MESSAGE_TYPE_SUPPORT (R621): MCTP Get Message Type Support. -/
  | getMessageTypeSupport
  /-- PLDM_BASE_COMMAND (R621): A PLDM Type 0 command. -/
  | pldmBaseCommand (cmd arg : BitVec 8)
  /-- PLDM_SENSOR_READ (R616): A PLDM Type 2 sensor request returns a reading or unavailable. -/
  | pldmSensorRead (s : PldmSensor)
  /-- PLDM_FIRMWARE_TRANSFER (R626): A PLDM firmware transfer writes an image or test pack into an inactive slot and
  verifies it. -/
  | pldmFirmwareTransfer (x : FwItem)
  /-- ACTIVATE_FIRMWARE (R627): A PLDM ActivateFirmware request sets AT = TK_COUNT + 4. -/
  | activateFirmware (c : Fin 4)
  /-- SV_POLICY_WRITE (R637): A policy change in an SPDM session is written by Lichen to SV_POLICY. -/
  | svPolicyWrite (sid : BitVec 16) (v : BitVec 12)
  /-- GET_VERSION (R621): SPDM GET_VERSION. -/
  | getVersion
  /-- GET_CAPABILITIES (R621): SPDM GET_CAPABILITIES. -/
  | getCapabilities
  /-- NEGOTIATE_ALGORITHMS (R621): SPDM NEGOTIATE_ALGORITHMS. -/
  | negotiateAlgorithms
  /-- GET_DIGESTS (R621): SPDM GET_DIGESTS. -/
  | getDigests
  /-- GET_CERTIFICATE (R621): SPDM GET_CERTIFICATE. -/
  | getCertificate (slot : BitVec 4)
  /-- CHALLENGE (R621): SPDM CHALLENGE, refused while the identity key is locked. -/
  | challenge (slot : BitVec 4)
  /-- GET_MEASUREMENTS (R624): SPDM GET_MEASUREMENTS returns the indexed measurements. -/
  | getMeasurements (ix : BitVec 8) (signed : Bool)
  /-- KEY_EXCHANGE (R621): SPDM KEY_EXCHANGE. -/
  | keyExchange
  /-- FINISH (R621): SPDM FINISH. -/
  | finish (sid : BitVec 16) (ok : Bool)
  /-- END_SESSION (R621): SPDM END_SESSION. -/
  | endSession (sid : BitVec 16)
  /-- FW_ACTIVATE (R627): LC_FW_CTRL OP 0 requests activation of the inactive slot at LC_FW_AT. -/
  | fwActivate (c : BitVec 2)
  /-- FW_REVERT (R627): LC_FW_CTRL OP 1 requests a return to the previously active slot. -/
  | fwRevert (c : BitVec 2)
  /-- FW_READY_BRACKEN (R628): New Bracken firmware writes LC_FW_READY.BRACKEN and the slot is committed. -/
  | fwReadyBracken
  /-- BRACKEN_READY_TIMEOUT (R628): No READY by T(AT) + 50 µs restarts Bracken from the old bank. -/
  | brackenReadyTimeout
  /-- FW_READY_RT (R629): The new serving runtime writes LC_FW_READY.RT. -/
  | fwReadyRt
  /-- RUNTIME_READY_TIMEOUT (R629): No RT by T(AT + 2) interrupts the cores back into the old image. -/
  | runtimeReadyTimeout
  /-- LICHEN_RESTART (R630): Lichen restarts into an activated image or for re-attestation and commits held L
  writes. -/
  | lichenRestart
  /-- TAMPER_ALARM (R635): A tamper source raises an alarm acted on with LOG, LOCK or ERASE. -/
  | tamperAlarm (active : BitVec 5)
  /-- SV_TEST_TRIGGER (R644): A write of SV_TEST.TRIGGER raises source 5. -/
  | svTestTrigger
  /-- REATTEST (R638): Re-attestation verifies images and measurements and clears a lock on a pass. -/
  | reattest (fail : Option (Fin 4))
  /-- SN_TRIG_GO (R649): A write of SN_TRIG.GO fires snapshot source 0. -/
  | snTrigGo
  /-- SNAP_IN (R650): SNAP_IN_N held low fires snapshot source 2. -/
  | snapIn (masked : Bool)
  /-- SNAPSHOT_COPY_END (R647): The snapshot engine finishes copying the shadows and sets VALID. -/
  | snapshotCopyEnd
  /-- SNAPSHOT_ARM (R648): A write of SN_CTRL.ARMED = 1 re-arms the snapshot. -/
  | snapshotArm
  /-- SN_GRP_GO (R651): A write of SN_GRP_CMD.GO on the manager sends SNAP_AT to every member. -/
  | snGrpGo (tag : BitVec 16)
  /-- MEMORY_BRINGUP_END (R655): HBM training, repair, test and map end for a stack. -/
  | memoryBringupEnd (m : Fin 12) (noSpare : BitVec 16) (rows : BitVec 16) (fail : BitVec 32)
  /-- PEAT_BRINGUP_END (R656): Peat training, test and map end. -/
  | peatBringupEnd (fail : BitVec 16)
  /-- TILE_BRINGUP_END (R657): Site tests end, sites are repaired, disabled or remapped and reset. -/
  | tileBringupEnd (found : List (SiteIx × SiteFault))
  /-- CACHE_BRINGUP_END (R654): Region cache, snoop filter and tag array tests end. -/
  | cacheBringupEnd
  /-- BRINGUP_RELEASE (R654): All parallel stages end; reset is released and the boot image starts. -/
  | bringupRelease (ms : BitVec 16) (fails : BitVec 4)
  /-- TAP_ENABLE (R660): Lichen sets SN_TAP.EN and holds the module in reset of cause LICHEN. -/
  | tapEnable (sid : BitVec 16)
  /-- TAP_DISABLE (R660): Clearing SN_TAP.EN releases the module through bring-up from stage 3. -/
  | tapDisable
  /-- BYPASS (R659): IEEE 1149.1 BYPASS instruction. -/
  | bypass
  /-- IDCODE (R659): IEEE 1149.1 IDCODE instruction returns the identification code. -/
  | idcode
  /-- SAMPLE_PRELOAD (R659): IEEE 1149.1 SAMPLE/PRELOAD instruction. -/
  | samplePreload (pins load : BitVec 17)
  /-- EXTEST (R659): IEEE 1149.1 EXTEST drives connector outputs from the boundary-scan register. -/
  | extest
  /-- INSTR_NET (R660): The private instruction selects the IEEE 1687 network while SN_TAP.EN is 1. -/
  | instrNet
  /-- RC_READ (R7): A read of a register field with access code RC returns the current value and then clears the
  field. -/
  | rcRead (src : Nat) (ctx : BitVec 12) (off : BitVec 29)
  /-- RECOVERY_LEVEL_REACHED (R583): The input rises above the warning level, which stops UV_STEP rising, and above
  the recovery level, which starts the RECOVER_US window. -/
  | recoveryLevelReached (recovery : Bool)
  /-- STACK_OR_N_DIE_TEMP_WARN (R590): An N-die or HBM stack reaches or leaves its warning temperature, setting or
  clearing THERM_WARN and, for a stack, doubling the refresh rate. -/
  | stackOrNDieTempWarn (pt : Fin 2 ⊕ Fin 12) (hot : Bool)
  /-- PLLS_LOCKED (R654): In bring-up stage 2 the PLLs lock to the 156.25 MHz reference and the Felt segments and
  memory controllers leave reset, so stage 3 begins. -/
  | pllsLocked
  /-- RESTORE_END (R654): Lichen finishes writing every class L field and loading TK_COUNT, so bring-up stages 4 to
  6 start, or after a module reset release the controllers pass to SERVING. -/
  | restoreEnd
  /-- I3C_DYNAMIC_ADDRESS (R621): The carrier's I3C controller assigns Lichen a dynamic address as an MCTP over I3C
  target. -/
  | i3cDynamicAddress (a : BitVec 7)
  /-- MGMT_NEIGHBOUR_SOLICITATION (R622): Lichen answers a neighbour solicitation for its link-local address on the
  1000BASE-T management link and drops other non-MCTP frames. -/
  | mgmtNeighbourSolicitation (target : Option (BitVec 128))
  deriving DecidableEq, Repr

end Sys2Proof
end

