-- ==== Sys2Proof/Decode.lean ====
section
/-! DEFINITION. Decode.lean: the instruction words of a step (R94, R95, R130): which pairs (ENG, OP) are assigned, the
fields of the five formats, and the command that a word of instruction memory stands for. And the command that a word of the
opcode table's bits spells: the table gives no row any bits (every row's list of fields is empty), so no word spells one. -/

namespace Sys2Proof

/-- The command spelled by the low `nbits` bits of `w`: none, for the table gives bits to no row. -/
def decodeTableWord (_nbits _w : Nat) : Option Instr := none

/-! ### Instruction words -/

/-- Bits `lo + w - 1` to `lo` of an instruction word. -/
def wordBits (v lo w : Nat) : BitVec w := BitVec.ofNat w (v / 2 ^ lo)

/-- ENG: bits [63:61] (R94). -/
def wordEng (v : Nat) : Nat := v / 2 ^ 61 % 8

/-- OP: bits [60:54] (R94). -/
def wordOp (v : Nat) : Nat := v / 2 ^ 54 % 128

/-- Is the pair (ENG, OP) assigned (R130)? ENG 6 and 7 are reserved (R90). -/
def opAssigned (eng op : Nat) : Bool :=
  match eng with
  | 0 => op ≤ 0x04 || (0x08 ≤ op && op ≤ 0x0B) || (0x10 ≤ op && op ≤ 0x12) || (0x18 ≤ op && op ≤ 0x1D)
      || (0x20 ≤ op && op ≤ 0x22) || op == 0x3F
  | 1 => op ≤ 0x04 || op == 0x08
  | 2 => op ≤ 0x02
  | 3 => op ≤ 0x02
  | 4 => op ≤ 0x08
  | 5 => op ≤ 0x02
  | _ => false

/-- Is the word of an assigned pair? -/
def wordAssigned (v : Nat) : Bool := opAssigned (wordEng v) (wordOp v)

/-- The fields of format R. -/
def wordR (v : Nat) : FmtR := ⟨wordBits v 49 5, wordBits v 44 5, wordBits v 39 5, wordBits v 32 7, wordBits v 0 32⟩

/-- The fields of format I. -/
def wordI (v : Nat) : FmtI := ⟨wordBits v 49 5, wordBits v 44 5, wordBits v 32 12, wordBits v 0 32⟩

/-- The fields of format B. -/
def wordB (v : Nat) : FmtB := ⟨wordBits v 49 5, wordBits v 44 5, wordBits v 40 4, wordBits v 32 8, wordBits v 0 32⟩

/-- The fields of format T. -/
def wordT (v : Nat) : FmtT :=
  ⟨wordBits v 50 4, wordBits v 46 4, wordBits v 42 4, wordBits v 39 3, wordBits v 36 3, wordBits v 33 3, wordBits v 17 16,
   wordBits v 16 1 == 1, wordBits v 11 5, wordBits v 10 1 == 1, wordBits v 5 5, wordBits v 0 5⟩

/-- The fields of format W. -/
def wordW (v : Nat) : FmtW :=
  ⟨wordBits v 49 5, wordBits v 44 5, wordBits v 39 5, wordBits v 34 5, wordBits v 32 2, wordBits v 31 1 == 1,
   wordBits v 28 3, wordBits v 0 28⟩

/-- The command that an instruction word stands for when logical tile `l` executes it (R94, R130); none for an unassigned
pair. `time` is what `tck.ns` and `stp.cyc` read. -/
def wordIns (l : LTile) (time : W64) (v : Nat) : Option Instr :=
  match wordEng v, wordOp v with
  | 0, 0x00 => some (.scNop l (wordBits v 0 54))
  | 0, 0x01 => some (.scArith l (wordR v))
  | 0, 0x02 => some (.scArithImm l (wordI v))
  | 0, 0x03 => some (.scLi l (wordI v))
  | 0, 0x04 => some (.scLih l (wordI v))
  | 0, 0x08 => some (.scLd l (wordI v))
  | 0, 0x09 => some (.scSt l (wordI v))
  | 0, 0x0A => some (.scAadd l (wordR v))
  | 0, 0x0B => some (.scCas l (wordR v))
  | 0, 0x10 => some (.scBr l (wordB v))
  | 0, 0x11 => some (.scJal l (wordI v))
  | 0, 0x12 => some (.scJr l (wordR v))
  | 0, 0x18 => some (.dscLd l (wordI v))
  | 0, 0x19 => some (.dscSt l (wordI v))
  | 0, 0x1A => some (.dscMv l (wordR v))
  | 0, 0x1B => some (.dscPut l (wordR v))
  | 0, 0x1C => some (.dscGet l (wordR v))
  | 0, 0x1D => some (.dscAdv l (wordR v))
  | 0, 0x20 => some (.tckCnt l (wordR v))
  | 0, 0x21 => some (.tckNs l (wordR v) time)
  | 0, 0x22 => some (.stpCyc l (wordR v) time)
  | 0, 0x3F => some (.stpEnd l (wordBits v 0 54))
  | 1, 0x00 => some (.semSig l (wordI v))
  | 1, 0x01 => some (.semWait l (wordI v))
  | 1, 0x02 => some (.semSub l (wordI v))
  | 1, 0x03 => some (.semSet l (wordI v))
  | 1, 0x04 => some (.semRd l (wordI v))
  | 1, 0x08 => some (.wtMem l (wordW v))
  | 2, 0x00 => some (.dmaCp l (wordT v))
  | 2, 0x01 => some (.dmaFill l (wordT v))
  | 2, 0x02 => some (.dmaCmpl l (wordT v))
  | 3, 0x00 => some (.twlMm l (wordT v))
  | 3, 0x01 => some (.twlLd l (wordT v))
  | 3, 0x02 => some (.twlLdm l (wordT v))
  | 4, 0x00 => some (.frdEw l (wordT v))
  | 4, 0x01 => some (.frdChn l (wordT v))
  | 4, 0x02 => some (.frdCvt l (wordT v))
  | 4, 0x03 => some (.frdRed l (wordT v))
  | 4, 0x04 => some (.frdTopk l (wordT v))
  | 4, 0x05 => some (.frdPerm l (wordT v))
  | 4, 0x06 => some (.frdShf l (wordT v))
  | 4, 0x07 => some (.frdPack l (wordT v))
  | 4, 0x08 => some (.frdUnpk l (wordT v))
  | 5, 0x00 => some (.mssBag l (wordT v))
  | 5, 0x01 => some (.mssRaw l (wordT v))
  | 5, 0x02 => some (.mssUpd l (wordT v))
  | _, _ => none

end Sys2Proof
end

