-- ==== Sys2Proof/Machine/RegMap.lean ====
section
/-! DEFINITION. Machine/RegMap.lean: every register field the spec gives the module, one named definition per field,
with its block, offset, bits, access code (R7), reset value, clearing class (R10) and /G mark (R11).
A field whose reset value is not one number (a function of its index, of the part or of another field) carries 0
here and is given its value by `Field.resetAt` in Machine/Ops.lean. -/

namespace Sys2Proof.Machine

/-- Register blocks of R83 (the per-tile window holds three of them; the peat package map is the one register a
peat controller has beside the stack controllers', R399). -/
inductive Blk where
  | tk | tlMap | xl | bk | grp | flt | pw | lc | sv | sn | tl | tw | fr | rc | ms | mem | pkg | dmp | dm
  deriving DecidableEq, Repr

/-- Access codes of R7. -/
inductive Acc where
  | ro | rw | wo | w1c | w1s | rc
  deriving DecidableEq, Repr

/-- Class letters of R10. -/
inductive Cls where
  | l | a | m | t | c
  deriving DecidableEq, Repr

/-- One register field. `id` is a unique number of the model's own; `count` is the number of registers of an array
(stride 8 bytes), 1 for a single register. -/
structure Field where
  id : Nat
  blk : Blk
  off : Nat
  count : Nat
  lo : Nat
  width : Nat
  acc : Acc
  reset : Nat
  cls : Cls
  grp : Bool
  deriving DecidableEq, Repr

namespace Reg

/-- TK_COUNT.COUNT, bits [63:0] (R19). -/
def TK_COUNT.COUNT : Field := ⟨1, .tk, 0x0, 1, 0, 64, .ro, 0, .a, false⟩
/-- TK_PERIOD.PERIOD_US, bits [11:0] (R20). -/
def TK_PERIOD.PERIOD_US : Field := ⟨2, .tk, 0x8, 1, 0, 12, .rw, 400, .m, true⟩
/-- TK_PERIOD.NEXT_US, bits [27:16] (R20). -/
def TK_PERIOD.NEXT_US : Field := ⟨3, .tk, 0x8, 1, 16, 12, .rw, 400, .m, true⟩
/-- TK_PERIOD_AT.AT_TICK, bits [63:0] (R21). -/
def TK_PERIOD_AT.AT_TICK : Field := ⟨4, .tk, 0x10, 1, 0, 64, .rw, 0, .m, true⟩
/-- TK_EPOCH_NS.EPOCH_NS, bits [63:0] (R21). -/
def TK_EPOCH_NS.EPOCH_NS : Field := ⟨5, .tk, 0x18, 1, 0, 64, .rw, 0, .m, true⟩
/-- TK_EPOCH_TICK.EPOCH_TICK, bits [63:0] (R21). -/
def TK_EPOCH_TICK.EPOCH_TICK : Field := ⟨6, .tk, 0x20, 1, 0, 64, .rw, 0, .m, true⟩
/-- TK_CTRL.ENABLE, bits [0] (R22). -/
def TK_CTRL.ENABLE : Field := ⟨7, .tk, 0x28, 1, 0, 1, .rw, 0, .m, false⟩
/-- TK_CTRL.SOURCE, bits [2:1] (R22). -/
def TK_CTRL.SOURCE : Field := ⟨8, .tk, 0x28, 1, 1, 2, .rw, 0, .m, true⟩
/-- TK_CTRL.EPOCH_LOAD, bits [3] (R22). -/
def TK_CTRL.EPOCH_LOAD : Field := ⟨9, .tk, 0x28, 1, 3, 1, .wo, 0, .m, false⟩
/-- TK_CTRL.SOFT_SPILL_EN, bits [4] (R22). -/
def TK_CTRL.SOFT_SPILL_EN : Field := ⟨10, .tk, 0x28, 1, 4, 1, .rw, 1, .m, true⟩
/-- TK_CTRL.PLAN_LEAD_US, bits [15:8] (R22). -/
def TK_CTRL.PLAN_LEAD_US : Field := ⟨11, .tk, 0x28, 1, 8, 8, .rw, 20, .m, true⟩
/-- TK_ALIGN.LIMIT_NS, bits [15:0] (R23). -/
def TK_ALIGN.LIMIT_NS : Field := ⟨12, .tk, 0x30, 1, 0, 16, .rw, 1000, .m, true⟩
/-- TK_ALIGN.HOLDOVER_TICKS, bits [31:16] (R23). -/
def TK_ALIGN.HOLDOVER_TICKS : Field := ⟨13, .tk, 0x30, 1, 16, 16, .rw, 2500, .m, true⟩
/-- TK_ALIGN.SLEW_NS, bits [39:32] (R23). -/
def TK_ALIGN.SLEW_NS : Field := ⟨14, .tk, 0x30, 1, 32, 8, .rw, 100, .m, true⟩
/-- TK_ALIGN.RESYNC_US, bits [55:40] (R23). -/
def TK_ALIGN.RESYNC_US : Field := ⟨15, .tk, 0x30, 1, 40, 16, .rw, 10, .m, true⟩
/-- TK_BUDGET.REMOTE_ALLOW_US, bits [11:0] (R23). -/
def TK_BUDGET.REMOTE_ALLOW_US : Field := ⟨16, .tk, 0x38, 1, 0, 12, .rw, 60, .m, true⟩
/-- TK_BUDGET.FABRIC_ALLOW_US, bits [27:16] (R23). -/
def TK_BUDGET.FABRIC_ALLOW_US : Field := ⟨17, .tk, 0x38, 1, 16, 12, .rw, 150, .m, true⟩
/-- TK_STATUS.STATE, bits [2:0] (R24). -/
def TK_STATUS.STATE : Field := ⟨18, .tk, 0x40, 1, 0, 3, .ro, 0, .m, false⟩
/-- TK_STATUS.PLAN_LATE, bits [3] (R24). -/
def TK_STATUS.PLAN_LATE : Field := ⟨19, .tk, 0x40, 1, 3, 1, .w1c, 0, .m, false⟩
/-- TK_STATUS.CFG_ERR, bits [4] (R24). -/
def TK_STATUS.CFG_ERR : Field := ⟨20, .tk, 0x40, 1, 4, 1, .w1c, 0, .m, false⟩
/-- TK_STATUS.RESYNCED, bits [5] (R24). -/
def TK_STATUS.RESYNCED : Field := ⟨21, .tk, 0x40, 1, 5, 1, .w1c, 0, .m, false⟩
/-- TK_STATUS.OFFSET_NS, bits [63:32] (R24). -/
def TK_STATUS.OFFSET_NS : Field := ⟨22, .tk, 0x40, 1, 32, 32, .ro, 0, .m, false⟩
/-- TK_LAST_BOUNDARY.BOUNDARY_NS, bits [63:0] (R24). -/
def TK_LAST_BOUNDARY.BOUNDARY_NS : Field := ⟨23, .tk, 0x48, 1, 0, 64, .ro, 0, .m, false⟩
/-- TK_OVERRUN_CNT.OVERRUN_STEPS, bits [31:0] (R25). -/
def TK_OVERRUN_CNT.OVERRUN_STEPS : Field := ⟨24, .tk, 0x50, 1, 0, 32, .rc, 0, .m, false⟩
/-- TK_OVERRUN_CNT.OVERRUN_TICKS, bits [63:32] (R25). -/
def TK_OVERRUN_CNT.OVERRUN_TICKS : Field := ⟨25, .tk, 0x50, 1, 32, 32, .rc, 0, .m, false⟩
/-- TK_ABORT_CNT.HARD_ABORTS, bits [31:0] (R25). -/
def TK_ABORT_CNT.HARD_ABORTS : Field := ⟨26, .tk, 0x58, 1, 0, 32, .rc, 0, .m, false⟩
/-- TK_ABORT_CNT.SOFT_ABORTS, bits [63:32] (R25). -/
def TK_ABORT_CNT.SOFT_ABORTS : Field := ⟨27, .tk, 0x58, 1, 32, 32, .rc, 0, .m, false⟩
/-- TK_LATE_CNT.LATE_CMDS, bits [31:0] (R25). -/
def TK_LATE_CNT.LATE_CMDS : Field := ⟨28, .tk, 0x60, 1, 0, 32, .rc, 0, .m, false⟩
/-- TK_LATE_CNT.SPILLED_STEPS, bits [63:32] (R25). -/
def TK_LATE_CNT.SPILLED_STEPS : Field := ⟨29, .tk, 0x60, 1, 32, 32, .rc, 0, .m, false⟩
/-- TL_MAP_STATUS.PENDING, bits [31:0] (R58). -/
def TL_MAP_STATUS.PENDING : Field := ⟨30, .tlMap, 0x0, 1, 0, 32, .ro, 0, .m, false⟩
/-- TL_MAP_STATUS.CFG_ERR, bits [32] (R58). -/
def TL_MAP_STATUS.CFG_ERR : Field := ⟨31, .tlMap, 0x0, 1, 32, 1, .w1c, 0, .m, false⟩
/-- TL_MAP_STATUS.COPY_POISON, bits [33] (R58). -/
def TL_MAP_STATUS.COPY_POISON : Field := ⟨32, .tlMap, 0x0, 1, 33, 1, .w1c, 0, .m, false⟩
/-- TL_MAP_STATUS.DEGRADED, bits [49:40] (R58). -/
def TL_MAP_STATUS.DEGRADED : Field := ⟨33, .tlMap, 0x0, 1, 40, 10, .ro, 0, .m, false⟩
/-- TL_RETIRE_AT.AT_TICK, bits [63:0] (R58). -/
def TL_RETIRE_AT.AT_TICK : Field := ⟨34, .tlMap, 0x8, 1, 0, 64, .rw, 0, .m, false⟩
/-- TL_RETIRE.LTILE, bits [8:0] (R58). -/
def TL_RETIRE.LTILE : Field := ⟨35, .tlMap, 0x10, 1, 0, 9, .rw, 0, .m, false⟩
/-- TL_RETIRE.SITE, bits [20:16] (R58). -/
def TL_RETIRE.SITE : Field := ⟨36, .tlMap, 0x10, 1, 16, 5, .rw, 31, .m, false⟩
/-- TL_RETIRE.CAUSE, bits [27:24] (R58). -/
def TL_RETIRE.CAUSE : Field := ⟨37, .tlMap, 0x10, 1, 24, 4, .rw, 0, .m, false⟩
/-- TL_RETIRE.GO, bits [63] (R58). -/
def TL_RETIRE.GO : Field := ⟨38, .tlMap, 0x10, 1, 63, 1, .wo, 0, .m, false⟩
/-- TL_DROP_CNT.DROPPED_RETURNS, bits [31:0] (R58). -/
def TL_DROP_CNT.DROPPED_RETURNS : Field := ⟨39, .tlMap, 0x18, 1, 0, 32, .rc, 0, .m, false⟩
/-- TL_LMAP.SITE, bits [4:0] (R59). -/
def TL_LMAP.SITE : Field := ⟨40, .tlMap, 0x1000, 512, 0, 5, .ro, 0, .l, false⟩
/-- TL_LMAP.VALID, bits [5] (R59). -/
def TL_LMAP.VALID : Field := ⟨41, .tlMap, 0x1000, 512, 5, 1, .ro, 1, .l, false⟩
/-- TL_SITE.STATE, bits [2:0] (R59). -/
def TL_SITE.STATE : Field := ⟨42, .tlMap, 0x2000, 576, 0, 3, .ro, 0, .l, false⟩
/-- TL_SITE.LTILE, bits [16:8] (R59). -/
def TL_SITE.LTILE : Field := ⟨43, .tlMap, 0x2000, 576, 8, 9, .ro, 0, .l, false⟩
/-- TL_SITE.CAUSE, bits [23:20] (R59). -/
def TL_SITE.CAUSE : Field := ⟨44, .tlMap, 0x2000, 576, 20, 4, .ro, 0, .l, false⟩
/-- TL_SEM.COUNT, bits [7:0] (R108). -/
def TL_SEM.COUNT : Field := ⟨45, .tl, 0x200, 32, 0, 8, .ro, 0, .t, false⟩
/-- TL_SEM.SIGNAL, bits [8] (R108). -/
def TL_SEM.SIGNAL : Field := ⟨46, .tl, 0x200, 32, 8, 1, .wo, 0, .t, false⟩
/-- TL_IMEM_PAGE.PROG_ID, bits [31:0] (R121). -/
def TL_IMEM_PAGE.PROG_ID : Field := ⟨47, .tl, 0x100, 16, 0, 32, .ro, 0, .t, false⟩
/-- TL_IMEM_PAGE.VALID, bits [32] (R121). -/
def TL_IMEM_PAGE.VALID : Field := ⟨48, .tl, 0x100, 16, 32, 1, .ro, 0, .t, false⟩
/-- TL_IMEM_PAGE.LOADING, bits [33] (R121). -/
def TL_IMEM_PAGE.LOADING : Field := ⟨49, .tl, 0x100, 16, 33, 1, .ro, 0, .t, false⟩
/-- TL_CTRL.LOCAL_POLL_NS, bits [15:0] (R128). -/
def TL_CTRL.LOCAL_POLL_NS : Field := ⟨50, .tl, 0x0, 1, 0, 16, .rw, 100, .m, true⟩
/-- TL_CTRL.REMOTE_POLL_NS, bits [31:16] (R128). -/
def TL_CTRL.REMOTE_POLL_NS : Field := ⟨51, .tl, 0x0, 1, 16, 16, .rw, 2000, .m, true⟩
/-- TL_CTRL.SEM_FAULT_STOP, bits [32] (R128). -/
def TL_CTRL.SEM_FAULT_STOP : Field := ⟨52, .tl, 0x0, 1, 32, 1, .rw, 0, .m, true⟩
/-- TL_STATUS.RUN, bits [1:0] (R128). -/
def TL_STATUS.RUN : Field := ⟨53, .tl, 0x8, 1, 0, 2, .ro, 0, .t, false⟩
/-- TL_STATUS.BANK, bits [7] (R128). -/
def TL_STATUS.BANK : Field := ⟨54, .tl, 0x8, 1, 7, 1, .ro, 0, .t, false⟩
/-- TL_STATUS.STEP_INDEX, bits [12:8] (R128). -/
def TL_STATUS.STEP_INDEX : Field := ⟨55, .tl, 0x8, 1, 8, 5, .ro, 0, .t, false⟩
/-- TL_STATUS.CTX, bits [24:13] (R128). -/
def TL_STATUS.CTX : Field := ⟨56, .tl, 0x8, 1, 13, 12, .ro, 0, .t, false⟩
/-- TL_STATUS.PC, bits [37:25] (R128). -/
def TL_STATUS.PC : Field := ⟨57, .tl, 0x8, 1, 25, 13, .ro, 0, .t, false⟩
/-- TL_STATUS.ENG_BUSY, bits [43:38] (R128). -/
def TL_STATUS.ENG_BUSY : Field := ⟨58, .tl, 0x8, 1, 38, 6, .ro, 0, .t, false⟩
/-- TL_STEP.CYCLES, bits [31:0] (R128). -/
def TL_STEP.CYCLES : Field := ⟨59, .tl, 0x10, 1, 0, 32, .ro, 0, .t, false⟩
/-- TL_STEP.STEPS_ENDED, bits [63:32] (R128). -/
def TL_STEP.STEPS_ENDED : Field := ⟨60, .tl, 0x10, 1, 32, 32, .rc, 0, .t, false⟩
/-- TL_EXC.CODE, bits [7:0] (R128). -/
def TL_EXC.CODE : Field := ⟨61, .tl, 0x18, 1, 0, 8, .ro, 0, .t, false⟩
/-- TL_EXC.ENG, bits [10:8] (R128). -/
def TL_EXC.ENG : Field := ⟨62, .tl, 0x18, 1, 8, 3, .ro, 0, .t, false⟩
/-- TL_EXC.PC, bits [23:11] (R128). -/
def TL_EXC.PC : Field := ⟨63, .tl, 0x18, 1, 11, 13, .ro, 0, .t, false⟩
/-- TL_EXC.CTX, bits [35:24] (R128). -/
def TL_EXC.CTX : Field := ⟨64, .tl, 0x18, 1, 24, 12, .ro, 0, .t, false⟩
/-- TL_EXC.VALID, bits [36] (R128). -/
def TL_EXC.VALID : Field := ⟨65, .tl, 0x18, 1, 36, 1, .w1c, 0, .t, false⟩
/-- TL_EXC.MORE, bits [37] (R128). -/
def TL_EXC.MORE : Field := ⟨66, .tl, 0x18, 1, 37, 1, .w1c, 0, .t, false⟩
/-- TL_EXC.TICK_LO, bits [63:38] (R128). -/
def TL_EXC.TICK_LO : Field := ⟨67, .tl, 0x18, 1, 38, 26, .ro, 0, .t, false⟩
/-- TL_EXC_ADDR.VA, bits [47:0] (R128). -/
def TL_EXC_ADDR.VA : Field := ⟨68, .tl, 0x20, 1, 0, 48, .ro, 0, .t, false⟩
/-- TL_EXC_CNT.EXCEPTIONS, bits [31:0] (R128). -/
def TL_EXC_CNT.EXCEPTIONS : Field := ⟨69, .tl, 0x28, 1, 0, 32, .rc, 0, .t, false⟩
/-- TL_EXC_CNT.SEM_FAULTS, bits [63:32] (R128). -/
def TL_EXC_CNT.SEM_FAULTS : Field := ⟨70, .tl, 0x28, 1, 32, 32, .rc, 0, .t, false⟩
/-- TW_LAT.LAT, bits [7:0] (R211). -/
def TW_LAT.LAT : Field := ⟨71, .tw, 0x10, 1, 0, 8, .ro, 0, .t, false⟩
/-- TW_REPAIR.REQ_EN, bits [0] (R211). -/
def TW_REPAIR.REQ_EN : Field := ⟨72, .tw, 0x18, 1, 0, 1, .rw, 0, .l, false⟩
/-- TW_REPAIR.REQ_ROW, bits [6:1] (R211). -/
def TW_REPAIR.REQ_ROW : Field := ⟨73, .tw, 0x18, 1, 1, 6, .rw, 0, .l, false⟩
/-- TW_REPAIR.EFF_EN, bits [8] (R211). -/
def TW_REPAIR.EFF_EN : Field := ⟨74, .tw, 0x18, 1, 8, 1, .ro, 0, .t, false⟩
/-- TW_REPAIR.EFF_ROW, bits [14:9] (R211). -/
def TW_REPAIR.EFF_ROW : Field := ⟨75, .tw, 0x18, 1, 9, 6, .ro, 0, .t, false⟩
/-- TW_STATUS.ACT_VALID, bits [0] (R225). -/
def TW_STATUS.ACT_VALID : Field := ⟨76, .tw, 0x8, 1, 0, 1, .ro, 0, .t, false⟩
/-- TW_STATUS.ACT_POISON, bits [1] (R225). -/
def TW_STATUS.ACT_POISON : Field := ⟨77, .tw, 0x8, 1, 1, 1, .ro, 0, .t, false⟩
/-- TW_STATUS.SHD_VALID, bits [2] (R225). -/
def TW_STATUS.SHD_VALID : Field := ⟨78, .tw, 0x8, 1, 2, 1, .ro, 0, .t, false⟩
/-- TW_STATUS.SHD_POISON, bits [3] (R225). -/
def TW_STATUS.SHD_POISON : Field := ⟨79, .tw, 0x8, 1, 3, 1, .ro, 0, .t, false⟩
/-- TW_STATUS.LOADING, bits [4] (R225). -/
def TW_STATUS.LOADING : Field := ⟨80, .tw, 0x8, 1, 4, 1, .ro, 0, .t, false⟩
/-- TW_STATUS.LOAD_SRC, bits [5] (R225). -/
def TW_STATUS.LOAD_SRC : Field := ⟨81, .tw, 0x8, 1, 5, 1, .ro, 0, .t, false⟩
/-- TW_STATUS.ACT_FMT, bits [9:6] (R225). -/
def TW_STATUS.ACT_FMT : Field := ⟨82, .tw, 0x8, 1, 6, 4, .ro, 0, .t, false⟩
/-- TW_STATUS.SHD_FMT, bits [13:10] (R225). -/
def TW_STATUS.SHD_FMT : Field := ⟨83, .tw, 0x8, 1, 10, 4, .ro, 0, .t, false⟩
/-- TW_STATUS.CFG_ERR, bits [16] (R225). -/
def TW_STATUS.CFG_ERR : Field := ⟨84, .tw, 0x8, 1, 16, 1, .w1c, 0, .t, false⟩
/-- TW_STATUS.PASS, bits [47:32] (R225). -/
def TW_STATUS.PASS : Field := ⟨85, .tw, 0x8, 1, 32, 16, .ro, 0, .t, false⟩
/-- TW_CTRL.RES_EN, bits [0] (R225). -/
def TW_CTRL.RES_EN : Field := ⟨86, .tw, 0x0, 1, 0, 1, .rw, 1, .m, true⟩
/-- TW_RES_STATUS.MISMATCH, bits [0] (R233). -/
def TW_RES_STATUS.MISMATCH : Field := ⟨87, .tw, 0x20, 1, 0, 1, .w1c, 0, .t, false⟩
/-- TW_RES_STATUS.MORE, bits [1] (R233). -/
def TW_RES_STATUS.MORE : Field := ⟨88, .tw, 0x20, 1, 1, 1, .w1c, 0, .t, false⟩
/-- TW_RES_STATUS.PASS, bits [17:2] (R233). -/
def TW_RES_STATUS.PASS : Field := ⟨89, .tw, 0x20, 1, 2, 16, .ro, 0, .t, false⟩
/-- TW_RES_STATUS.ROW, bits [23:18] (R233). -/
def TW_RES_STATUS.ROW : Field := ⟨90, .tw, 0x20, 1, 18, 6, .ro, 0, .t, false⟩
/-- TW_RES_STATUS.BLOCK, bits [25:24] (R233). -/
def TW_RES_STATUS.BLOCK : Field := ⟨91, .tw, 0x20, 1, 24, 2, .ro, 0, .t, false⟩
/-- TW_RES_STATUS.CTX, bits [37:26] (R233). -/
def TW_RES_STATUS.CTX : Field := ⟨92, .tw, 0x20, 1, 26, 12, .ro, 0, .t, false⟩
/-- TW_RES_STATUS.TICK_LO, bits [63:38] (R233). -/
def TW_RES_STATUS.TICK_LO : Field := ⟨93, .tw, 0x20, 1, 38, 26, .ro, 0, .t, false⟩
/-- TW_RES_CNT.CHECKS, bits [31:0] (R233). -/
def TW_RES_CNT.CHECKS : Field := ⟨94, .tw, 0x28, 1, 0, 32, .rc, 0, .t, false⟩
/-- TW_RES_CNT.MISMATCHES, bits [63:32] (R233). -/
def TW_RES_CNT.MISMATCHES : Field := ⟨95, .tw, 0x28, 1, 32, 32, .rc, 0, .t, false⟩
/-- FR_FMT_CTRL.FORCE_RNE, bits [0] (R263). -/
def FR_FMT_CTRL.FORCE_RNE : Field := ⟨96, .fr, 0x800, 1, 0, 1, .rw, 0, .m, true⟩
/-- FR_FMT_CTRL.SEED_BASE, bits [45:15] (R263). -/
def FR_FMT_CTRL.SEED_BASE : Field := ⟨97, .fr, 0x800, 1, 15, 31, .rw, 0, .m, true⟩
/-- FR_SAT_CNT.SATURATIONS, bits [31:0] (R263). -/
def FR_SAT_CNT.SATURATIONS : Field := ⟨98, .fr, 0x808, 1, 0, 32, .rc, 0, .t, false⟩
/-- FR_SAT_CNT.INF_OVERFLOWS, bits [47:32] (R263). -/
def FR_SAT_CNT.INF_OVERFLOWS : Field := ⟨99, .fr, 0x808, 1, 32, 16, .rc, 0, .t, false⟩
/-- FR_SAT_CNT.NAN_LOST, bits [63:48] (R263). -/
def FR_SAT_CNT.NAN_LOST : Field := ⟨100, .fr, 0x808, 1, 48, 16, .rc, 0, .t, false⟩
/-- FR_SAT_FIRST.VALID, bits [0] (R263). -/
def FR_SAT_FIRST.VALID : Field := ⟨101, .fr, 0x810, 1, 0, 1, .w1c, 0, .t, false⟩
/-- FR_SAT_FIRST.MORE, bits [1] (R263). -/
def FR_SAT_FIRST.MORE : Field := ⟨102, .fr, 0x810, 1, 1, 1, .w1c, 0, .t, false⟩
/-- FR_SAT_FIRST.SRC, bits [4:2] (R263). -/
def FR_SAT_FIRST.SRC : Field := ⟨103, .fr, 0x810, 1, 2, 3, .ro, 0, .t, false⟩
/-- FR_SAT_FIRST.PC, bits [17:5] (R263). -/
def FR_SAT_FIRST.PC : Field := ⟨104, .fr, 0x810, 1, 5, 13, .ro, 0, .t, false⟩
/-- FR_SAT_FIRST.CTX, bits [29:18] (R263). -/
def FR_SAT_FIRST.CTX : Field := ⟨105, .fr, 0x810, 1, 18, 12, .ro, 0, .t, false⟩
/-- FR_SAT_FIRST.TICK_LO, bits [55:30] (R263). -/
def FR_SAT_FIRST.TICK_LO : Field := ⟨106, .fr, 0x810, 1, 30, 26, .ro, 0, .t, false⟩
/-- FR_SEED_STATUS.VALID, bits [0] (R263). -/
def FR_SEED_STATUS.VALID : Field := ⟨107, .fr, 0x818, 1, 0, 1, .ro, 0, .t, false⟩
/-- FR_SEED_STATUS.FAILED, bits [1] (R263). -/
def FR_SEED_STATUS.FAILED : Field := ⟨108, .fr, 0x818, 1, 1, 1, .ro, 0, .t, false⟩
/-- FR_SEED_CUR.SEED, bits [63:0] (R263). -/
def FR_SEED_CUR.SEED : Field := ⟨109, .fr, 0x820, 1, 0, 64, .ro, 0, .t, false⟩
/-- FR_STATUS.BUSY, bits [0] (R290). -/
def FR_STATUS.BUSY : Field := ⟨110, .fr, 0x0, 1, 0, 1, .ro, 0, .t, false⟩
/-- FR_STATUS.QDEPTH, bits [5:1] (R290). -/
def FR_STATUS.QDEPTH : Field := ⟨111, .fr, 0x0, 1, 1, 5, .ro, 0, .t, false⟩
/-- FR_STATUS.STARTED, bits [39:8] (R290). -/
def FR_STATUS.STARTED : Field := ⟨112, .fr, 0x0, 1, 8, 32, .ro, 0, .t, false⟩
/-- FR_CHUNK_CNT.CHUNKS, bits [31:0] (R290). -/
def FR_CHUNK_CNT.CHUNKS : Field := ⟨113, .fr, 0x8, 1, 0, 32, .rc, 0, .t, false⟩
/-- FR_CHUNK_CNT.BANK_STALLS, bits [63:32] (R290). -/
def FR_CHUNK_CNT.BANK_STALLS : Field := ⟨114, .fr, 0x8, 1, 32, 32, .rc, 0, .t, false⟩
/-- MS_CTRL.PRESET, bits [3:0] (R330). -/
def MS_CTRL.PRESET : Field := ⟨115, .ms, 0x0, 1, 0, 4, .rw, 0, .l, true⟩
/-- MS_CTRL.EXPERT_EN, bits [4] (R330). -/
def MS_CTRL.EXPERT_EN : Field := ⟨116, .ms, 0x0, 1, 4, 1, .rw, 0, .m, true⟩
/-- MS_CTRL.BAG_SHARE, bits [14:8] (R330). -/
def MS_CTRL.BAG_SHARE : Field := ⟨117, .ms, 0x0, 1, 8, 7, .rw, 90, .m, true⟩
/-- MS_CTRL.QDEPTH, bits [23:16] (R330). -/
def MS_CTRL.QDEPTH : Field := ⟨118, .ms, 0x0, 1, 16, 8, .rw, 128, .m, true⟩
/-- MS_STATUS.PARTS, bits [12:0] (R332). -/
def MS_STATUS.PARTS : Field := ⟨119, .ms, 0x8, 1, 0, 13, .ro, 0, .m, false⟩
/-- MS_STATUS.ROWS, bits [27:13] (R332). -/
def MS_STATUS.ROWS : Field := ⟨120, .ms, 0x8, 1, 13, 15, .ro, 0, .m, false⟩
/-- MS_STATUS.QFULL, bits [43:28] (R332). -/
def MS_STATUS.QFULL : Field := ⟨121, .ms, 0x8, 1, 28, 16, .ro, 0, .m, false⟩
/-- MS_STATUS.INVAL_BUSY, bits [44] (R332). -/
def MS_STATUS.INVAL_BUSY : Field := ⟨122, .ms, 0x8, 1, 44, 1, .ro, 0, .m, false⟩
/-- MS_STATUS.CFG_ERR, bits [45] (R332). -/
def MS_STATUS.CFG_ERR : Field := ⟨123, .ms, 0x8, 1, 45, 1, .w1c, 0, .m, false⟩
/-- MS_TDIR.INVAL, bits [0] (R332). -/
def MS_TDIR.INVAL : Field := ⟨124, .ms, 0x10, 1, 0, 1, .wo, 0, .m, false⟩
/-- MS_TDIR.BASE, bits [45:12] (R332). -/
def MS_TDIR.BASE : Field := ⟨125, .ms, 0x10, 1, 12, 34, .rw, 0, .m, true⟩
/-- MS_REPL.MAX_GIB, bits [6:0] (R332). -/
def MS_REPL.MAX_GIB : Field := ⟨126, .ms, 0x18, 1, 0, 7, .rw, 4, .m, true⟩
/-- MS_PART_CNT.LOCAL, bits [31:0] (R332). -/
def MS_PART_CNT.LOCAL : Field := ⟨127, .ms, 0x20, 1, 0, 32, .rc, 0, .m, false⟩
/-- MS_PART_CNT.REMOTE, bits [63:32] (R332). -/
def MS_PART_CNT.REMOTE : Field := ⟨128, .ms, 0x20, 1, 32, 32, .rc, 0, .m, false⟩
/-- MS_ROW_CNT.ROWS, bits [63:0] (R332). -/
def MS_ROW_CNT.ROWS : Field := ⟨129, .ms, 0x28, 1, 0, 64, .rc, 0, .m, false⟩
/-- MS_SECT_CNT.SECTORS, bits [63:0] (R332). -/
def MS_SECT_CNT.SECTORS : Field := ⟨130, .ms, 0x30, 1, 0, 64, .rc, 0, .m, false⟩
/-- MS_ERR_CNT.POISON_ROWS, bits [15:0] (R332). -/
def MS_ERR_CNT.POISON_ROWS : Field := ⟨131, .ms, 0x38, 1, 0, 16, .rc, 0, .m, false⟩
/-- MS_ERR_CNT.CONSIST, bits [31:16] (R332). -/
def MS_ERR_CNT.CONSIST : Field := ⟨132, .ms, 0x38, 1, 16, 16, .rc, 0, .m, false⟩
/-- MS_ERR_CNT.TICK_SKEW, bits [47:32] (R332). -/
def MS_ERR_CNT.TICK_SKEW : Field := ⟨133, .ms, 0x38, 1, 32, 16, .rc, 0, .m, false⟩
/-- MS_ERR_CNT.NOT_OWNER, bits [63:48] (R332). -/
def MS_ERR_CNT.NOT_OWNER : Field := ⟨134, .ms, 0x38, 1, 48, 16, .rc, 0, .m, false⟩
/-- MS_NUM_CNT.OVERFLOWS, bits [23:0] (R332). -/
def MS_NUM_CNT.OVERFLOWS : Field := ⟨135, .ms, 0x40, 1, 0, 24, .rc, 0, .m, false⟩
/-- MS_NUM_CNT.NAN_RESULTS, bits [47:24] (R332). -/
def MS_NUM_CNT.NAN_RESULTS : Field := ⟨136, .ms, 0x40, 1, 24, 24, .rc, 0, .m, false⟩
/-- MS_NUM_CNT.NO_TABLE, bits [63:48] (R332). -/
def MS_NUM_CNT.NO_TABLE : Field := ⟨137, .ms, 0x40, 1, 48, 16, .rc, 0, .m, false⟩
/-- MS_SQ.OCC, bits [7:0] (R332). -/
def MS_SQ.OCC : Field := ⟨138, .ms, 0x100, 16, 0, 8, .ro, 0, .m, false⟩
/-- MS_SQ.SERVED, bits [63:32] (R332). -/
def MS_SQ.SERVED : Field := ⟨139, .ms, 0x100, 16, 32, 32, .rc, 0, .m, false⟩
/-- MS_BSLOT.SLOT, bits [11:0] (R332). -/
def MS_BSLOT.SLOT : Field := ⟨140, .ms, 0x8000, 4096, 0, 12, .rw, 0, .m, false⟩
/-- MS_BSLOT.OWNED, bits [12] (R332). -/
def MS_BSLOT.OWNED : Field := ⟨141, .ms, 0x8000, 4096, 12, 1, .rw, 0, .m, false⟩
/-- TL_MSS_STATUS.INSTR, bits [3:0] (R333). -/
def TL_MSS_STATUS.INSTR : Field := ⟨142, .tl, 0x400, 1, 0, 4, .ro, 0, .t, false⟩
/-- TL_MSS_STATUS.BAGS, bits [16:4] (R333). -/
def TL_MSS_STATUS.BAGS : Field := ⟨143, .tl, 0x400, 1, 4, 13, .ro, 0, .t, false⟩
/-- TL_MSS_STATUS.PARTS, bits [30:17] (R333). -/
def TL_MSS_STATUS.PARTS : Field := ⟨144, .tl, 0x400, 1, 17, 14, .ro, 0, .t, false⟩
/-- TL_MSS_CNT.BAGS_DONE, bits [31:0] (R333). -/
def TL_MSS_CNT.BAGS_DONE : Field := ⟨145, .tl, 0x408, 1, 0, 32, .rc, 0, .t, false⟩
/-- TL_MSS_CNT.PARTS_FAILED, bits [63:32] (R333). -/
def TL_MSS_CNT.PARTS_FAILED : Field := ⟨146, .tl, 0x408, 1, 32, 32, .rc, 0, .t, false⟩
/-- TL_MSS_LATE.LATE_RETURNS, bits [31:0] (R333). -/
def TL_MSS_LATE.LATE_RETURNS : Field := ⟨147, .tl, 0x410, 1, 0, 32, .rc, 0, .t, false⟩
/-- TL_MSS_LATE.TIMEOUTS, bits [63:32] (R333). -/
def TL_MSS_LATE.TIMEOUTS : Field := ⟨148, .tl, 0x410, 1, 32, 32, .rc, 0, .t, false⟩
/-- MS_UPD_CTRL.CLOSE_US, bits [7:0] (R362). -/
def MS_UPD_CTRL.CLOSE_US : Field := ⟨149, .ms, 0x48, 1, 0, 8, .rw, 20, .m, true⟩
/-- MS_UPD_CTRL.ACCEPT, bits [8] (R362). -/
def MS_UPD_CTRL.ACCEPT : Field := ⟨150, .ms, 0x48, 1, 8, 1, .rw, 1, .m, true⟩
/-- MS_UPD_STATUS.ENTRIES, bits [16:0] (R362). -/
def MS_UPD_STATUS.ENTRIES : Field := ⟨151, .ms, 0x50, 1, 0, 17, .ro, 0, .m, false⟩
/-- MS_UPD_STATUS.DEFERRED, bits [33:17] (R362). -/
def MS_UPD_STATUS.DEFERRED : Field := ⟨152, .ms, 0x50, 1, 17, 17, .ro, 0, .m, false⟩
/-- MS_UPD_STATUS.FULL, bits [34] (R362). -/
def MS_UPD_STATUS.FULL : Field := ⟨153, .ms, 0x50, 1, 34, 1, .ro, 0, .m, false⟩
/-- MS_UPD_STATUS.CFG_ERR, bits [35] (R362). -/
def MS_UPD_STATUS.CFG_ERR : Field := ⟨154, .ms, 0x50, 1, 35, 1, .w1c, 0, .m, false⟩
/-- MS_UPD_CNT.ACCEPTED, bits [31:0] (R362). -/
def MS_UPD_CNT.ACCEPTED : Field := ⟨155, .ms, 0x58, 1, 0, 32, .rc, 0, .m, false⟩
/-- MS_UPD_CNT.APPLIED, bits [63:32] (R362). -/
def MS_UPD_CNT.APPLIED : Field := ⟨156, .ms, 0x58, 1, 32, 32, .rc, 0, .m, false⟩
/-- MS_UPD_REJ.LATE, bits [15:0] (R362). -/
def MS_UPD_REJ.LATE : Field := ⟨157, .ms, 0x60, 1, 0, 16, .rc, 0, .m, false⟩
/-- MS_UPD_REJ.FULL, bits [31:16] (R362). -/
def MS_UPD_REJ.FULL : Field := ⟨158, .ms, 0x60, 1, 16, 16, .rc, 0, .m, false⟩
/-- MS_UPD_REJ.STALE, bits [47:32] (R362). -/
def MS_UPD_REJ.STALE : Field := ⟨159, .ms, 0x60, 1, 32, 16, .rc, 0, .m, false⟩
/-- MS_UPD_REJ.OTHER, bits [63:48] (R362). -/
def MS_UPD_REJ.OTHER : Field := ⟨160, .ms, 0x60, 1, 48, 16, .rc, 0, .m, false⟩
/-- MS_UPD_ERR.POISON_DROPS, bits [15:0] (R362). -/
def MS_UPD_ERR.POISON_DROPS : Field := ⟨161, .ms, 0x68, 1, 0, 16, .rc, 0, .m, false⟩
/-- MS_UPD_ERR.STALE_DROPS, bits [31:16] (R362). -/
def MS_UPD_ERR.STALE_DROPS : Field := ⟨162, .ms, 0x68, 1, 16, 16, .rc, 0, .m, false⟩
/-- MS_UPD_ERR.OWNER_DROPS, bits [39:32] (R362). -/
def MS_UPD_ERR.OWNER_DROPS : Field := ⟨163, .ms, 0x68, 1, 32, 8, .rc, 0, .m, false⟩
/-- MS_UPD_ERR.REREADS, bits [51:40] (R362). -/
def MS_UPD_ERR.REREADS : Field := ⟨164, .ms, 0x68, 1, 40, 12, .rc, 0, .m, false⟩
/-- MS_UPD_ERR.DEFERRALS, bits [63:52] (R362). -/
def MS_UPD_ERR.DEFERRALS : Field := ⟨165, .ms, 0x68, 1, 52, 12, .rc, 0, .m, false⟩
/-- MEM_CTRL.ECC_MODE, bits [0] (R398). -/
def MEM_CTRL.ECC_MODE : Field := ⟨166, .mem, 0x0, 1, 0, 1, .rw, 0, .m, true⟩
/-- MEM_CTRL.SCRUB_EN, bits [1] (R398). -/
def MEM_CTRL.SCRUB_EN : Field := ⟨167, .mem, 0x0, 1, 1, 1, .rw, 1, .m, true⟩
/-- MEM_CTRL.SCRUB_PERIOD_H, bits [15:8] (R398). -/
def MEM_CTRL.SCRUB_PERIOD_H : Field := ⟨168, .mem, 0x0, 1, 8, 8, .rw, 24, .m, true⟩
/-- MEM_CTRL.MIGRATE_SHARE, bits [22:16] (R398). -/
def MEM_CTRL.MIGRATE_SHARE : Field := ⟨169, .mem, 0x0, 1, 16, 7, .rw, 25, .m, true⟩
/-- MEM_STATUS.STATE, bits [2:0] (R398). -/
def MEM_STATUS.STATE : Field := ⟨170, .mem, 0x8, 1, 0, 3, .ro, 0, .m, false⟩
/-- MEM_STATUS.OUT, bits [13:8] (R398). -/
def MEM_STATUS.OUT : Field := ⟨171, .mem, 0x8, 1, 8, 6, .ro, 0, .m, false⟩
/-- MEM_STATUS.MIG_PROGRESS, bits [47:16] (R398). -/
def MEM_STATUS.MIG_PROGRESS : Field := ⟨172, .mem, 0x8, 1, 16, 32, .ro, 0, .m, false⟩
/-- MEM_STATUS.CFG_ERR, bits [48] (R398). -/
def MEM_STATUS.CFG_ERR : Field := ⟨173, .mem, 0x8, 1, 48, 1, .w1c, 0, .m, false⟩
/-- MEM_CHMAP.PENDING, bits [31:0] (R398). -/
def MEM_CHMAP.PENDING : Field := ⟨174, .mem, 0x10, 1, 0, 32, .rw, 0, .l, false⟩
/-- MEM_CHMAP.EFFECTIVE, bits [63:32] (R398). -/
def MEM_CHMAP.EFFECTIVE : Field := ⟨175, .mem, 0x10, 1, 32, 32, .ro, 0, .m, false⟩
/-- MEM_MAPOUT.CHANNEL, bits [4:0] (R398). -/
def MEM_MAPOUT.CHANNEL : Field := ⟨176, .mem, 0x18, 1, 0, 5, .rw, 0, .m, false⟩
/-- MEM_MAPOUT.GO, bits [63] (R398). -/
def MEM_MAPOUT.GO : Field := ⟨177, .mem, 0x18, 1, 63, 1, .wo, 0, .m, false⟩
/-- MEM_ERR_CNT.CORRECTED, bits [31:0] (R398). -/
def MEM_ERR_CNT.CORRECTED : Field := ⟨178, .mem, 0x20, 1, 0, 32, .rc, 0, .m, false⟩
/-- MEM_ERR_CNT.UNCORRECTABLE, bits [63:32] (R398). -/
def MEM_ERR_CNT.UNCORRECTABLE : Field := ⟨179, .mem, 0x20, 1, 32, 32, .rc, 0, .m, false⟩
/-- MEM_ERR_FIRST.VALID, bits [0] (R398). -/
def MEM_ERR_FIRST.VALID : Field := ⟨180, .mem, 0x28, 1, 0, 1, .w1c, 0, .m, false⟩
/-- MEM_ERR_FIRST.MORE, bits [1] (R398). -/
def MEM_ERR_FIRST.MORE : Field := ⟨181, .mem, 0x28, 1, 1, 1, .w1c, 0, .m, false⟩
/-- MEM_ERR_FIRST.SRC, bits [3:2] (R398). -/
def MEM_ERR_FIRST.SRC : Field := ⟨182, .mem, 0x28, 1, 2, 2, .ro, 0, .m, false⟩
/-- MEM_ERR_FIRST.CHANNEL, bits [8:4] (R398). -/
def MEM_ERR_FIRST.CHANNEL : Field := ⟨183, .mem, 0x28, 1, 4, 5, .ro, 0, .m, false⟩
/-- MEM_ERR_FIRST.PC, bits [9] (R398). -/
def MEM_ERR_FIRST.PC : Field := ⟨184, .mem, 0x28, 1, 9, 1, .ro, 0, .m, false⟩
/-- MEM_ERR_FIRST.TICK_LO, bits [35:10] (R398). -/
def MEM_ERR_FIRST.TICK_LO : Field := ⟨185, .mem, 0x28, 1, 10, 26, .ro, 0, .m, false⟩
/-- MEM_ERR_ADDR.OFFSET, bits [45:0] (R398). -/
def MEM_ERR_ADDR.OFFSET : Field := ⟨186, .mem, 0x30, 1, 0, 46, .ro, 0, .m, false⟩
/-- MEM_SF_STATUS.ENTRIES, bits [18:0] (R398). -/
def MEM_SF_STATUS.ENTRIES : Field := ⟨187, .mem, 0x38, 1, 0, 19, .ro, 0, .m, false⟩
/-- MEM_SF_STATUS.BACK_INVAL, bits [63:32] (R398). -/
def MEM_SF_STATUS.BACK_INVAL : Field := ⟨188, .mem, 0x38, 1, 32, 32, .rc, 0, .m, false⟩
/-- MEM_PPR.CHANNEL, bits [4:0] (R398). -/
def MEM_PPR.CHANNEL : Field := ⟨189, .mem, 0x40, 1, 0, 5, .rw, 0, .m, false⟩
/-- MEM_PPR.PC, bits [5] (R398). -/
def MEM_PPR.PC : Field := ⟨190, .mem, 0x40, 1, 5, 1, .rw, 0, .m, false⟩
/-- MEM_PPR.BANK, bits [9:6] (R398). -/
def MEM_PPR.BANK : Field := ⟨191, .mem, 0x40, 1, 6, 4, .rw, 0, .m, false⟩
/-- MEM_PPR.ROW, bits [27:10] (R398). -/
def MEM_PPR.ROW : Field := ⟨192, .mem, 0x40, 1, 10, 18, .rw, 0, .m, false⟩
/-- MEM_PPR.GO, bits [63] (R398). -/
def MEM_PPR.GO : Field := ⟨193, .mem, 0x40, 1, 63, 1, .wo, 0, .m, false⟩
/-- MEM_PPR_STATUS.BUSY, bits [0] (R398). -/
def MEM_PPR_STATUS.BUSY : Field := ⟨194, .mem, 0x48, 1, 0, 1, .ro, 0, .m, false⟩
/-- MEM_PPR_STATUS.DONE, bits [1] (R398). -/
def MEM_PPR_STATUS.DONE : Field := ⟨195, .mem, 0x48, 1, 1, 1, .w1c, 0, .m, false⟩
/-- MEM_PPR_STATUS.FAILED, bits [2] (R398). -/
def MEM_PPR_STATUS.FAILED : Field := ⟨196, .mem, 0x48, 1, 2, 1, .w1c, 0, .m, false⟩
/-- MEM_PPR_STATUS.SPARES, bits [15:8] (R398). -/
def MEM_PPR_STATUS.SPARES : Field := ⟨197, .mem, 0x48, 1, 8, 8, .ro, 0, .m, false⟩
/-- MEM_ROWLOG.CHANNEL, bits [4:0] (R398). -/
def MEM_ROWLOG.CHANNEL : Field := ⟨198, .mem, 0x100, 16, 0, 5, .ro, 0, .l, false⟩
/-- MEM_ROWLOG.PC, bits [5] (R398). -/
def MEM_ROWLOG.PC : Field := ⟨199, .mem, 0x100, 16, 5, 1, .ro, 0, .l, false⟩
/-- MEM_ROWLOG.BANK, bits [9:6] (R398). -/
def MEM_ROWLOG.BANK : Field := ⟨200, .mem, 0x100, 16, 6, 4, .ro, 0, .l, false⟩
/-- MEM_ROWLOG.ROW, bits [27:10] (R398). -/
def MEM_ROWLOG.ROW : Field := ⟨201, .mem, 0x100, 16, 10, 18, .ro, 0, .l, false⟩
/-- MEM_ROWLOG.CORR, bits [35:28] (R398). -/
def MEM_ROWLOG.CORR : Field := ⟨202, .mem, 0x100, 16, 28, 8, .ro, 0, .l, false⟩
/-- MEM_ROWLOG.UNCORR, bits [36] (R398). -/
def MEM_ROWLOG.UNCORR : Field := ⟨203, .mem, 0x100, 16, 36, 1, .ro, 0, .l, false⟩
/-- MEM_ROWLOG.VALID, bits [37] (R398). -/
def MEM_ROWLOG.VALID : Field := ⟨204, .mem, 0x100, 16, 37, 1, .w1c, 0, .l, false⟩
/-- MEM_PKGMAP.PENDING, bits [3:0] (R399). -/
def MEM_PKGMAP.PENDING : Field := ⟨205, .pkg, 0x10, 1, 0, 4, .rw, 0, .l, false⟩
/-- MEM_PKGMAP.EFFECTIVE, bits [11:8] (R399). -/
def MEM_PKGMAP.EFFECTIVE : Field := ⟨206, .pkg, 0x10, 1, 8, 4, .ro, 0, .m, false⟩
/-- MEM_PKGMAP.FAILED, bits [19:16] (R399). -/
def MEM_PKGMAP.FAILED : Field := ⟨207, .pkg, 0x10, 1, 16, 4, .ro, 0, .m, false⟩
/-- MEM_PKGMAP.FAILED_ACC, bits [51:20] (R399). -/
def MEM_PKGMAP.FAILED_ACC : Field := ⟨208, .pkg, 0x10, 1, 20, 32, .rc, 0, .m, false⟩
/-- RC_CTRL.LOCK_MASK, bits [15:0] (R401). -/
def RC_CTRL.LOCK_MASK : Field := ⟨209, .rc, 0x0, 1, 0, 16, .rw, 0, .m, true⟩
/-- RC_STATUS.LOCK_LOST, bits [0] (R401). -/
def RC_STATUS.LOCK_LOST : Field := ⟨210, .rc, 0x8, 1, 0, 1, .w1c, 0, .m, false⟩
/-- RC_STATUS.CFG_ERR, bits [1] (R401). -/
def RC_STATUS.CFG_ERR : Field := ⟨211, .rc, 0x8, 1, 1, 1, .w1c, 0, .m, false⟩
/-- RC_STATUS.PRELOAD_BUSY, bits [2] (R401). -/
def RC_STATUS.PRELOAD_BUSY : Field := ⟨212, .rc, 0x8, 1, 2, 1, .ro, 0, .t, false⟩
/-- RC_STATUS.MISS_OUT, bits [16:8] (R401). -/
def RC_STATUS.MISS_OUT : Field := ⟨213, .rc, 0x8, 1, 8, 9, .ro, 0, .t, false⟩
/-- RC_PRELOAD.WAY, bits [3:0] (R401). -/
def RC_PRELOAD.WAY : Field := ⟨214, .rc, 0x10, 1, 0, 4, .rw, 0, .m, false⟩
/-- RC_PRELOAD.ADDR, bits [45:7] (R401). -/
def RC_PRELOAD.ADDR : Field := ⟨215, .rc, 0x10, 1, 7, 39, .rw, 0, .m, false⟩
/-- RC_PRELOAD.GO, bits [63] (R401). -/
def RC_PRELOAD.GO : Field := ⟨216, .rc, 0x10, 1, 63, 1, .wo, 0, .m, false⟩
/-- RC_PRELOAD_CNT.COUNT, bits [16:0] (R401). -/
def RC_PRELOAD_CNT.COUNT : Field := ⟨217, .rc, 0x18, 1, 0, 17, .rw, 1, .m, false⟩
/-- RC_PRELOAD_STATUS.DONE, bits [16:0] (R401). -/
def RC_PRELOAD_STATUS.DONE : Field := ⟨218, .rc, 0x20, 1, 0, 17, .ro, 0, .t, false⟩
/-- RC_PRELOAD_STATUS.FAILED, bits [33:17] (R401). -/
def RC_PRELOAD_STATUS.FAILED : Field := ⟨219, .rc, 0x20, 1, 17, 17, .ro, 0, .t, false⟩
/-- RC_PRELOAD_STATUS.FIRST_CAUSE, bits [35:34] (R401). -/
def RC_PRELOAD_STATUS.FIRST_CAUSE : Field := ⟨220, .rc, 0x20, 1, 34, 2, .ro, 0, .t, false⟩
/-- RC_PRELOAD_STATUS.POISON, bits [52:36] (R401). -/
def RC_PRELOAD_STATUS.POISON : Field := ⟨221, .rc, 0x20, 1, 36, 17, .ro, 0, .t, false⟩
/-- RC_ACC_CNT.HITS, bits [31:0] (R401). -/
def RC_ACC_CNT.HITS : Field := ⟨222, .rc, 0x28, 1, 0, 32, .rc, 0, .t, false⟩
/-- RC_ACC_CNT.MISSES, bits [63:32] (R401). -/
def RC_ACC_CNT.MISSES : Field := ⟨223, .rc, 0x28, 1, 32, 32, .rc, 0, .t, false⟩
/-- RC_ERR_CNT.TAG_PARITY, bits [15:0] (R401). -/
def RC_ERR_CNT.TAG_PARITY : Field := ⟨224, .rc, 0x30, 1, 0, 16, .rc, 0, .t, false⟩
/-- RC_ERR_CNT.CORRECTED, bits [31:16] (R401). -/
def RC_ERR_CNT.CORRECTED : Field := ⟨225, .rc, 0x30, 1, 16, 16, .rc, 0, .t, false⟩
/-- RC_ERR_CNT.POISONED, bits [47:32] (R401). -/
def RC_ERR_CNT.POISONED : Field := ⟨226, .rc, 0x30, 1, 32, 16, .rc, 0, .t, false⟩
/-- RC_ERR_CNT.LOCK_WRITES, bits [63:48] (R401). -/
def RC_ERR_CNT.LOCK_WRITES : Field := ⟨227, .rc, 0x30, 1, 48, 16, .rc, 0, .t, false⟩
/-- XL_CTRL.ENABLE, bits [0] (R433). -/
def XL_CTRL.ENABLE : Field := ⟨228, .xl, 0x0, 1, 0, 1, .rw, 0, .m, false⟩
/-- XL_NODE.SELF, bits [9:0] (R433). -/
def XL_NODE.SELF : Field := ⟨229, .xl, 0x8, 1, 0, 10, .rw, 0, .m, false⟩
/-- XL_CTXT.BASE, bits [45:16] (R433). -/
def XL_CTXT.BASE : Field := ⟨230, .xl, 0x10, 1, 16, 30, .rw, 0, .m, true⟩
/-- XL_WIN.BASE, bits [45:18] (R433). -/
def XL_WIN.BASE : Field := ⟨231, .xl, 0x18, 1, 18, 28, .rw, 0, .m, false⟩
/-- XL_INVAL_VA.VA, bits [47:12] (R433). -/
def XL_INVAL_VA.VA : Field := ⟨232, .xl, 0x20, 1, 12, 36, .rw, 0, .m, false⟩
/-- XL_INVAL.SCOPE, bits [1:0] (R433). -/
def XL_INVAL.SCOPE : Field := ⟨233, .xl, 0x28, 1, 0, 2, .rw, 0, .m, false⟩
/-- XL_INVAL.CTX, bits [13:2] (R433). -/
def XL_INVAL.CTX : Field := ⟨234, .xl, 0x28, 1, 2, 12, .rw, 0, .m, false⟩
/-- XL_INVAL.PAGES, bits [33:14] (R433). -/
def XL_INVAL.PAGES : Field := ⟨235, .xl, 0x28, 1, 14, 20, .rw, 0, .m, false⟩
/-- XL_INVAL.GO, bits [63] (R433). -/
def XL_INVAL.GO : Field := ⟨236, .xl, 0x28, 1, 63, 1, .wo, 0, .m, false⟩
/-- XL_INVAL_STATUS.BUSY, bits [0] (R433). -/
def XL_INVAL_STATUS.BUSY : Field := ⟨237, .xl, 0x30, 1, 0, 1, .ro, 0, .m, false⟩
/-- XL_INVAL_STATUS.CFG_ERR, bits [1] (R433). -/
def XL_INVAL_STATUS.CFG_ERR : Field := ⟨238, .xl, 0x30, 1, 1, 1, .w1c, 0, .m, false⟩
/-- XL_INVAL_STATUS.DONE_SEQ, bits [63:32] (R433). -/
def XL_INVAL_STATUS.DONE_SEQ : Field := ⟨239, .xl, 0x30, 1, 32, 32, .ro, 0, .m, false⟩
/-- XL_WINVAL.INDEX, bits [12:0] (R433). -/
def XL_WINVAL.INDEX : Field := ⟨240, .xl, 0x38, 1, 0, 13, .rw, 0, .m, false⟩
/-- XL_WINVAL.ALL, bits [13] (R433). -/
def XL_WINVAL.ALL : Field := ⟨241, .xl, 0x38, 1, 13, 1, .rw, 0, .m, false⟩
/-- XL_WINVAL.GO, bits [63] (R433). -/
def XL_WINVAL.GO : Field := ⟨242, .xl, 0x38, 1, 63, 1, .wo, 0, .m, false⟩
/-- XL_WINVAL_STATUS.BUSY, bits [0] (R433). -/
def XL_WINVAL_STATUS.BUSY : Field := ⟨243, .xl, 0x40, 1, 0, 1, .ro, 0, .m, false⟩
/-- XL_WINVAL_STATUS.CFG_ERR, bits [1] (R433). -/
def XL_WINVAL_STATUS.CFG_ERR : Field := ⟨244, .xl, 0x40, 1, 1, 1, .w1c, 0, .m, false⟩
/-- XL_WINVAL_STATUS.DONE_SEQ, bits [63:32] (R433). -/
def XL_WINVAL_STATUS.DONE_SEQ : Field := ⟨245, .xl, 0x40, 1, 32, 32, .ro, 0, .m, false⟩
/-- XL_TAG_SET.FIRST, bits [24:0] (R433). -/
def XL_TAG_SET.FIRST : Field := ⟨246, .xl, 0x48, 1, 0, 25, .rw, 0, .m, false⟩
/-- XL_TAG_SET.COUNT, bits [44:25] (R433). -/
def XL_TAG_SET.COUNT : Field := ⟨247, .xl, 0x48, 1, 25, 20, .rw, 0, .m, false⟩
/-- XL_TAG_SET.TAG, bits [56:45] (R433). -/
def XL_TAG_SET.TAG : Field := ⟨248, .xl, 0x48, 1, 45, 12, .rw, 4095, .m, false⟩
/-- XL_TAG_SET.GO, bits [63] (R433). -/
def XL_TAG_SET.GO : Field := ⟨249, .xl, 0x48, 1, 63, 1, .wo, 0, .m, false⟩
/-- XL_TAG_STATUS.BUSY, bits [0] (R433). -/
def XL_TAG_STATUS.BUSY : Field := ⟨250, .xl, 0x50, 1, 0, 1, .ro, 0, .m, false⟩
/-- XL_TAG_STATUS.CFG_ERR, bits [1] (R433). -/
def XL_TAG_STATUS.CFG_ERR : Field := ⟨251, .xl, 0x50, 1, 1, 1, .w1c, 0, .m, false⟩
/-- XL_TAG_STATUS.DONE_SEQ, bits [63:32] (R433). -/
def XL_TAG_STATUS.DONE_SEQ : Field := ⟨252, .xl, 0x50, 1, 32, 32, .ro, 0, .m, false⟩
/-- XL_TAG_RD.GRANULE, bits [24:0] (R433). -/
def XL_TAG_RD.GRANULE : Field := ⟨253, .xl, 0x58, 1, 0, 25, .rw, 0, .m, false⟩
/-- XL_TAG_RD.TAG, bits [36:25] (R433). -/
def XL_TAG_RD.TAG : Field := ⟨254, .xl, 0x58, 1, 25, 12, .ro, 4095, .m, false⟩
/-- XL_TAG_RD.PRESENT, bits [37] (R433). -/
def XL_TAG_RD.PRESENT : Field := ⟨255, .xl, 0x58, 1, 37, 1, .ro, 1, .m, false⟩
/-- XL_WALK_CNT.WALKS, bits [31:0] (R433). -/
def XL_WALK_CNT.WALKS : Field := ⟨256, .xl, 0x60, 1, 0, 32, .rc, 0, .m, false⟩
/-- XL_WALK_CNT.STLB_HITS, bits [63:32] (R433). -/
def XL_WALK_CNT.STLB_HITS : Field := ⟨257, .xl, 0x60, 1, 32, 32, .rc, 0, .m, false⟩
/-- XL_FAULT_CNT.XLAT, bits [31:0] (R433). -/
def XL_FAULT_CNT.XLAT : Field := ⟨258, .xl, 0x68, 1, 0, 32, .rc, 0, .m, false⟩
/-- XL_FAULT_CNT.TAG, bits [63:32] (R433). -/
def XL_FAULT_CNT.TAG : Field := ⟨259, .xl, 0x68, 1, 32, 32, .rc, 0, .m, false⟩
/-- XL_CORE_CTX.CTX, bits [11:0] (R433). -/
def XL_CORE_CTX.CTX : Field := ⟨260, .xl, 0x100, 8, 0, 12, .rw, 4095, .m, false⟩
/-- TL_TLB_STATUS.ENTRIES, bits [7:0] (R434). -/
def TL_TLB_STATUS.ENTRIES : Field := ⟨261, .tl, 0x480, 1, 0, 8, .ro, 0, .t, false⟩
/-- TL_TLB_STATUS.MISS_OUT, bits [11:8] (R434). -/
def TL_TLB_STATUS.MISS_OUT : Field := ⟨262, .tl, 0x480, 1, 8, 4, .ro, 0, .t, false⟩
/-- TL_TLB_STATUS.DRAINING, bits [12] (R434). -/
def TL_TLB_STATUS.DRAINING : Field := ⟨263, .tl, 0x480, 1, 12, 1, .ro, 0, .t, false⟩
/-- TL_TLB_CNT.LOOKUPS, bits [31:0] (R434). -/
def TL_TLB_CNT.LOOKUPS : Field := ⟨264, .tl, 0x488, 1, 0, 32, .rc, 0, .t, false⟩
/-- TL_TLB_CNT.MISSES, bits [63:32] (R434). -/
def TL_TLB_CNT.MISSES : Field := ⟨265, .tl, 0x488, 1, 32, 32, .rc, 0, .t, false⟩
/-- BK_CTRL.ENABLE, bits [0] (R472). -/
def BK_CTRL.ENABLE : Field := ⟨266, .bk, 0x0, 1, 0, 1, .rw, 0, .m, false⟩
/-- BK_CTRL.HEADROOM_PCT, bits [7:1] (R472). -/
def BK_CTRL.HEADROOM_PCT : Field := ⟨267, .bk, 0x0, 1, 1, 7, .rw, 5, .m, true⟩
/-- BK_CTRL.REMOTE_POLL_US, bits [15:8] (R472). -/
def BK_CTRL.REMOTE_POLL_US : Field := ⟨268, .bk, 0x0, 1, 8, 8, .rw, 5, .m, true⟩
/-- BK_STATUS.RUN, bits [0] (R472). -/
def BK_STATUS.RUN : Field := ⟨269, .bk, 0x8, 1, 0, 1, .ro, 0, .m, false⟩
/-- BK_STATUS.CFG_ERR, bits [1] (R472). -/
def BK_STATUS.CFG_ERR : Field := ⟨270, .bk, 0x8, 1, 1, 1, .w1c, 0, .m, false⟩
/-- BK_STATUS.WATCH_USED, bits [16:8] (R472). -/
def BK_STATUS.WATCH_USED : Field := ⟨271, .bk, 0x8, 1, 8, 9, .ro, 0, .m, false⟩
/-- BK_STATUS.CMDS, bits [46:32] (R472). -/
def BK_STATUS.CMDS : Field := ⟨272, .bk, 0x8, 1, 32, 15, .ro, 0, .m, false⟩
/-- BK_QTAB.BASE, bits [45:16] (R472). -/
def BK_QTAB.BASE : Field := ⟨273, .bk, 0x10, 1, 16, 30, .rw, 0, .m, false⟩
/-- BK_PROG.BASE, bits [45:17] (R472). -/
def BK_PROG.BASE : Field := ⟨274, .bk, 0x18, 1, 17, 29, .rw, 0, .m, true⟩
/-- BK_DB.BASE, bits [45:16] (R472). -/
def BK_DB.BASE : Field := ⟨275, .bk, 0x20, 1, 16, 30, .rw, 0, .m, false⟩
/-- BK_BARG_PA.BASE, bits [45:22] (R472). -/
def BK_BARG_PA.BASE : Field := ⟨276, .bk, 0x28, 1, 22, 24, .rw, 0, .m, false⟩
/-- BK_BARG_VA.VA, bits [47:22] (R472). -/
def BK_BARG_VA.VA : Field := ⟨277, .bk, 0x30, 1, 22, 26, .rw, 0, .m, false⟩
/-- BK_DL.LOG2_SIZE, bits [3:0] (R472). -/
def BK_DL.LOG2_SIZE : Field := ⟨278, .bk, 0x38, 1, 0, 4, .rw, 0, .m, false⟩
/-- BK_DL.BASE, bits [45:12] (R472). -/
def BK_DL.BASE : Field := ⟨279, .bk, 0x38, 1, 12, 34, .rw, 0, .m, false⟩
/-- BK_DL_IDX.PROD, bits [31:0] (R472). -/
def BK_DL_IDX.PROD : Field := ⟨280, .bk, 0x40, 1, 0, 32, .ro, 0, .m, false⟩
/-- BK_DL_IDX.CONS, bits [63:32] (R472). -/
def BK_DL_IDX.CONS : Field := ⟨281, .bk, 0x40, 1, 32, 32, .rw, 0, .m, false⟩
/-- BK_QCMD.QUEUE, bits [9:0] (R472). -/
def BK_QCMD.QUEUE : Field := ⟨282, .bk, 0x48, 1, 0, 10, .rw, 0, .m, false⟩
/-- BK_QCMD.OP, bits [12:10] (R472). -/
def BK_QCMD.OP : Field := ⟨283, .bk, 0x48, 1, 10, 3, .rw, 0, .m, false⟩
/-- BK_QCMD.SKIP, bits [47:16] (R472). -/
def BK_QCMD.SKIP : Field := ⟨284, .bk, 0x48, 1, 16, 32, .rw, 0, .m, false⟩
/-- BK_QCMD.GO, bits [63] (R472). -/
def BK_QCMD.GO : Field := ⟨285, .bk, 0x48, 1, 63, 1, .wo, 0, .m, false⟩
/-- BK_QSEL.QUEUE, bits [9:0] (R472). -/
def BK_QSEL.QUEUE : Field := ⟨286, .bk, 0x50, 1, 0, 10, .rw, 0, .m, false⟩
/-- BK_QSTATUS.STATE, bits [2:0] (R472). -/
def BK_QSTATUS.STATE : Field := ⟨287, .bk, 0x58, 1, 0, 3, .ro, 0, .m, false⟩
/-- BK_QSTATUS.DB_PEND, bits [3] (R472). -/
def BK_QSTATUS.DB_PEND : Field := ⟨288, .bk, 0x58, 1, 3, 1, .ro, 0, .m, false⟩
/-- BK_QSTATUS.CAUSE, bits [7:4] (R472). -/
def BK_QSTATUS.CAUSE : Field := ⟨289, .bk, 0x58, 1, 4, 4, .ro, 0, .m, false⟩
/-- BK_QSTATUS.SLOT, bits [12:8] (R472). -/
def BK_QSTATUS.SLOT : Field := ⟨290, .bk, 0x58, 1, 8, 5, .ro, 0, .m, false⟩
/-- BK_QSTATUS.CONS, bits [63:32] (R472). -/
def BK_QSTATUS.CONS : Field := ⟨291, .bk, 0x58, 1, 32, 32, .ro, 0, .m, false⟩
/-- BK_QIDX.PROD_SEEN, bits [31:0] (R472). -/
def BK_QIDX.PROD_SEEN : Field := ⟨292, .bk, 0x60, 1, 0, 32, .ro, 0, .m, false⟩
/-- BK_QIDX.FAULT_RUN, bits [39:32] (R472). -/
def BK_QIDX.FAULT_RUN : Field := ⟨293, .bk, 0x60, 1, 32, 8, .ro, 0, .m, false⟩
/-- BK_CMD_CNT.ACCEPTED, bits [31:0] (R472). -/
def BK_CMD_CNT.ACCEPTED : Field := ⟨294, .bk, 0x68, 1, 0, 32, .rc, 0, .m, false⟩
/-- BK_CMD_CNT.COMPLETED, bits [63:32] (R472). -/
def BK_CMD_CNT.COMPLETED : Field := ⟨295, .bk, 0x68, 1, 32, 32, .rc, 0, .m, false⟩
/-- BK_ERR_CNT.SHED, bits [15:0] (R472). -/
def BK_ERR_CNT.SHED : Field := ⟨296, .bk, 0x70, 1, 0, 16, .rc, 0, .m, false⟩
/-- BK_ERR_CNT.DIVERTED, bits [31:16] (R472). -/
def BK_ERR_CNT.DIVERTED : Field := ⟨297, .bk, 0x70, 1, 16, 16, .rc, 0, .m, false⟩
/-- BK_ERR_CNT.DL_DROPS, bits [47:32] (R472). -/
def BK_ERR_CNT.DL_DROPS : Field := ⟨298, .bk, 0x70, 1, 32, 16, .rc, 0, .m, false⟩
/-- BK_ERR_CNT.PARKS, bits [63:48] (R472). -/
def BK_ERR_CNT.PARKS : Field := ⟨299, .bk, 0x70, 1, 48, 16, .rc, 0, .m, false⟩
/-- BK_CAP0.VALID, bits [0] (R472). -/
def BK_CAP0.VALID : Field := ⟨300, .bk, 0x78, 1, 0, 1, .w1c, 0, .m, false⟩
/-- BK_CAP0.MORE, bits [1] (R472). -/
def BK_CAP0.MORE : Field := ⟨301, .bk, 0x78, 1, 1, 1, .w1c, 0, .m, false⟩
/-- BK_CAP0.QUEUE, bits [11:2] (R472). -/
def BK_CAP0.QUEUE : Field := ⟨302, .bk, 0x78, 1, 2, 10, .ro, 0, .m, false⟩
/-- BK_CAP0.STATUS, bits [19:12] (R472). -/
def BK_CAP0.STATUS : Field := ⟨303, .bk, 0x78, 1, 12, 8, .ro, 0, .m, false⟩
/-- BK_CAP0.CAUSE, bits [23:20] (R472). -/
def BK_CAP0.CAUSE : Field := ⟨304, .bk, 0x78, 1, 20, 4, .ro, 0, .m, false⟩
/-- BK_CAP0.CMD_TAG, bits [63:32] (R472). -/
def BK_CAP0.CMD_TAG : Field := ⟨305, .bk, 0x78, 1, 32, 32, .ro, 0, .m, false⟩
/-- BK_CAP1.INDEX, bits [31:0] (R472). -/
def BK_CAP1.INDEX : Field := ⟨306, .bk, 0x80, 1, 0, 32, .ro, 0, .m, false⟩
/-- BK_CAP1.LTILE, bits [40:32] (R472). -/
def BK_CAP1.LTILE : Field := ⟨307, .bk, 0x80, 1, 32, 9, .ro, 0, .m, false⟩
/-- BK_CAP1.SITE, bits [50:41] (R472). -/
def BK_CAP1.SITE : Field := ⟨308, .bk, 0x80, 1, 41, 10, .ro, 0, .m, false⟩
/-- BK_CAP2.EXC, bits [7:0] (R472). -/
def BK_CAP2.EXC : Field := ⟨309, .bk, 0x88, 1, 0, 8, .ro, 0, .m, false⟩
/-- BK_CAP2.ENG_BUSY, bits [13:8] (R472). -/
def BK_CAP2.ENG_BUSY : Field := ⟨310, .bk, 0x88, 1, 8, 6, .ro, 0, .m, false⟩
/-- BK_CAP2.PC, bits [26:14] (R472). -/
def BK_CAP2.PC : Field := ⟨311, .bk, 0x88, 1, 14, 13, .ro, 0, .m, false⟩
/-- BK_CAP2.CTX, bits [38:27] (R472). -/
def BK_CAP2.CTX : Field := ⟨312, .bk, 0x88, 1, 27, 12, .ro, 0, .m, false⟩
/-- BK_CAP2.TICK_LO, bits [63:39] (R472). -/
def BK_CAP2.TICK_LO : Field := ⟨313, .bk, 0x88, 1, 39, 25, .ro, 0, .m, false⟩
/-- BK_HAND.LOG2_SIZE, bits [3:0] (R472). -/
def BK_HAND.LOG2_SIZE : Field := ⟨314, .bk, 0x100, 8, 0, 4, .rw, 0, .m, false⟩
/-- BK_WORK.LOG2_SIZE, bits [3:0] (R472). -/
def BK_WORK.LOG2_SIZE : Field := ⟨315, .bk, 0x140, 8, 0, 4, .rw, 0, .m, false⟩
/-- BK_HAND.BASE, bits [45:12] (R472). -/
def BK_HAND.BASE : Field := ⟨316, .bk, 0x100, 8, 12, 34, .rw, 0, .m, false⟩
/-- BK_WORK.BASE, bits [45:12] (R472). -/
def BK_WORK.BASE : Field := ⟨317, .bk, 0x140, 8, 12, 34, .rw, 0, .m, false⟩
/-- BK_WORK_DB.PROD, bits [31:0] (R472). -/
def BK_WORK_DB.PROD : Field := ⟨318, .bk, 0x180, 8, 0, 32, .rw, 0, .m, false⟩
/-- BK_WORK_DB.CONS, bits [63:32] (R472). -/
def BK_WORK_DB.CONS : Field := ⟨319, .bk, 0x180, 8, 32, 32, .ro, 0, .m, false⟩
/-- BK_SLOT.EN, bits [0] (R472). -/
def BK_SLOT.EN : Field := ⟨320, .bk, 0x200, 32, 0, 1, .rw, 0, .m, true⟩
/-- BK_SLOT.MODE, bits [1] (R472). -/
def BK_SLOT.MODE : Field := ⟨321, .bk, 0x200, 32, 1, 1, .rw, 0, .m, true⟩
/-- BK_SLOT.PRIO, bits [4:2] (R472). -/
def BK_SLOT.PRIO : Field := ⟨322, .bk, 0x200, 32, 2, 3, .rw, 0, .m, true⟩
/-- BK_SLOT.QUOTA_PCT, bits [14:8] (R472). -/
def BK_SLOT.QUOTA_PCT : Field := ⟨323, .bk, 0x200, 32, 8, 7, .rw, 0, .m, true⟩
/-- DM_PCTRL.ENABLE, bits [0] (R513). -/
def DM_PCTRL.ENABLE : Field := ⟨324, .dmp, 0x0, 1, 0, 1, .rw, 0, .m, false⟩
/-- DM_PCTRL.MODE, bits [3:1] (R513). -/
def DM_PCTRL.MODE : Field := ⟨325, .dmp, 0x0, 1, 1, 3, .rw, 0, .m, false⟩
/-- DM_PCTRL.HALF_DIS, bits [5:4] (R513). -/
def DM_PCTRL.HALF_DIS : Field := ⟨326, .dmp, 0x0, 1, 4, 2, .rw, 0, .l, false⟩
/-- DM_PCTRL.MSEC_EN, bits [6] (R513). -/
def DM_PCTRL.MSEC_EN : Field := ⟨327, .dmp, 0x0, 1, 6, 1, .rw, 0, .m, true⟩
/-- DM_PCTRL.PTP_CLEAR, bits [7] (R513). -/
def DM_PCTRL.PTP_CLEAR : Field := ⟨328, .dmp, 0x0, 1, 7, 1, .rw, 0, .m, true⟩
/-- DM_PCTRL.PFC_EN, bits [15:8] (R513). -/
def DM_PCTRL.PFC_EN : Field := ⟨329, .dmp, 0x0, 1, 8, 8, .rw, 0, .m, false⟩
/-- DM_PCTRL.FEC_DEG_PPM, bits [31:16] (R513). -/
def DM_PCTRL.FEC_DEG_PPM : Field := ⟨330, .dmp, 0x0, 1, 16, 16, .rw, 200, .m, false⟩
/-- DM_PSTATUS.LINK, bits [3:0] (R513). -/
def DM_PSTATUS.LINK : Field := ⟨331, .dmp, 0x8, 1, 0, 4, .ro, 0, .m, false⟩
/-- DM_PSTATUS.FEC_DEG, bits [7:4] (R513). -/
def DM_PSTATUS.FEC_DEG : Field := ⟨332, .dmp, 0x8, 1, 4, 4, .ro, 0, .m, false⟩
/-- DM_PSTATUS.CFG_ERR, bits [8] (R513). -/
def DM_PSTATUS.CFG_ERR : Field := ⟨333, .dmp, 0x8, 1, 8, 1, .w1c, 0, .m, false⟩
/-- DM_PSTATUS.PN_EXHAUST, bits [9] (R513). -/
def DM_PSTATUS.PN_EXHAUST : Field := ⟨334, .dmp, 0x8, 1, 9, 1, .w1c, 0, .m, false⟩
/-- DM_PSTATUS.LANE_FAIL, bits [23:16] (R513). -/
def DM_PSTATUS.LANE_FAIL : Field := ⟨335, .dmp, 0x8, 1, 16, 8, .ro, 0, .m, false⟩
/-- DM_PGW.MAC, bits [47:0] (R513). -/
def DM_PGW.MAC : Field := ⟨336, .dmp, 0x10, 4, 0, 48, .rw, 0, .m, false⟩
/-- DM_PFRM_CNT.TX, bits [31:0] (R513). -/
def DM_PFRM_CNT.TX : Field := ⟨337, .dmp, 0x30, 1, 0, 32, .rc, 0, .m, false⟩
/-- DM_PFRM_CNT.RX, bits [63:32] (R513). -/
def DM_PFRM_CNT.RX : Field := ⟨338, .dmp, 0x30, 1, 32, 32, .rc, 0, .m, false⟩
/-- DM_PERR_CNT.FEC_UNCORR, bits [15:0] (R513). -/
def DM_PERR_CNT.FEC_UNCORR : Field := ⟨339, .dmp, 0x38, 1, 0, 16, .rc, 0, .m, false⟩
/-- DM_PERR_CNT.FCS, bits [31:16] (R513). -/
def DM_PERR_CNT.FCS : Field := ⟨340, .dmp, 0x38, 1, 16, 16, .rc, 0, .m, false⟩
/-- DM_PERR_CNT.MSEC_DROP, bits [47:32] (R513). -/
def DM_PERR_CNT.MSEC_DROP : Field := ⟨341, .dmp, 0x38, 1, 32, 16, .rc, 0, .m, false⟩
/-- DM_PERR_CNT.FILTER_DROP, bits [63:48] (R513). -/
def DM_PERR_CNT.FILTER_DROP : Field := ⟨342, .dmp, 0x38, 1, 48, 16, .rc, 0, .m, false⟩
/-- DM_MSEC_SEL.SUB, bits [1:0] (R513). -/
def DM_MSEC_SEL.SUB : Field := ⟨343, .dmp, 0x40, 1, 0, 2, .rw, 0, .m, false⟩
/-- DM_MSEC_SEL.DIR, bits [2] (R513). -/
def DM_MSEC_SEL.DIR : Field := ⟨344, .dmp, 0x40, 1, 2, 1, .rw, 0, .m, false⟩
/-- DM_MSEC_SEL.AN, bits [4:3] (R513). -/
def DM_MSEC_SEL.AN : Field := ⟨345, .dmp, 0x40, 1, 3, 2, .rw, 0, .m, false⟩
/-- DM_MSEC_SEL.OP, bits [9:8] (R513). -/
def DM_MSEC_SEL.OP : Field := ⟨346, .dmp, 0x40, 1, 8, 2, .rw, 0, .m, false⟩
/-- DM_MSEC_SEL.GO, bits [63] (R513). -/
def DM_MSEC_SEL.GO : Field := ⟨347, .dmp, 0x40, 1, 63, 1, .wo, 0, .m, false⟩
/-- DM_MSEC_KEY.KEY, bits [63:0] (R513). -/
def DM_MSEC_KEY.KEY : Field := ⟨348, .dmp, 0x48, 4, 0, 64, .wo, 0, .m, false⟩
/-- DM_MSEC_SALT0.SALT_LO, bits [63:0] (R513). -/
def DM_MSEC_SALT0.SALT_LO : Field := ⟨349, .dmp, 0x68, 1, 0, 64, .wo, 0, .m, false⟩
/-- DM_MSEC_SALT1.SALT_HI, bits [31:0] (R513). -/
def DM_MSEC_SALT1.SALT_HI : Field := ⟨350, .dmp, 0x70, 1, 0, 32, .wo, 0, .m, false⟩
/-- DM_MSEC_SALT1.SSCI, bits [63:32] (R513). -/
def DM_MSEC_SALT1.SSCI : Field := ⟨351, .dmp, 0x70, 1, 32, 32, .wo, 0, .m, false⟩
/-- DM_MSEC_PN.PN, bits [63:0] (R513). -/
def DM_MSEC_PN.PN : Field := ⟨352, .dmp, 0x78, 1, 0, 64, .rw, 1, .m, false⟩
/-- DM_MSEC_SCI.SCI, bits [63:0] (R513). -/
def DM_MSEC_SCI.SCI : Field := ⟨353, .dmp, 0x80, 1, 0, 64, .rw, 0, .m, false⟩
/-- DM_CTRL.ENABLE, bits [0] (R517). -/
def DM_CTRL.ENABLE : Field := ⟨354, .dm, 0x0, 1, 0, 1, .rw, 0, .m, false⟩
/-- DM_CTRL.PPP_LOG2, bits [2:1] (R517). -/
def DM_CTRL.PPP_LOG2 : Field := ⟨355, .dm, 0x0, 1, 1, 2, .rw, 3, .m, true⟩
/-- DM_CTRL.SPRAY, bits [3] (R517). -/
def DM_CTRL.SPRAY : Field := ⟨356, .dm, 0x0, 1, 3, 1, .rw, 1, .m, true⟩
/-- DM_CTRL.RETRY_MAX, bits [6:4] (R517). -/
def DM_CTRL.RETRY_MAX : Field := ⟨357, .dm, 0x0, 1, 4, 3, .rw, 6, .m, true⟩
/-- DM_CTRL.DUP_THRESH, bits [9:7] (R517). -/
def DM_CTRL.DUP_THRESH : Field := ⟨358, .dm, 0x0, 1, 7, 3, .rw, 3, .m, true⟩
/-- DM_CTRL.WINDOW, bits [20:10] (R517). -/
def DM_CTRL.WINDOW : Field := ⟨359, .dm, 0x0, 1, 10, 11, .rw, 512, .m, true⟩
/-- DM_CTRL.IDLE_MS, bits [28:21] (R517). -/
def DM_CTRL.IDLE_MS : Field := ⟨360, .dm, 0x0, 1, 21, 8, .rw, 10, .m, true⟩
/-- DM_TIMER.LAT_RTO_US, bits [11:0] (R517). -/
def DM_TIMER.LAT_RTO_US : Field := ⟨361, .dm, 0x8, 1, 0, 12, .rw, 20, .m, true⟩
/-- DM_TIMER.BULK_RTO_US, bits [27:16] (R517). -/
def DM_TIMER.BULK_RTO_US : Field := ⟨362, .dm, 0x8, 1, 16, 12, .rw, 200, .m, true⟩
/-- DM_TIMER.ACK_DELAY_NS, bits [47:32] (R517). -/
def DM_TIMER.ACK_DELAY_NS : Field := ⟨363, .dm, 0x8, 1, 32, 16, .rw, 1000, .m, true⟩
/-- DM_TIMER.CNP_GAP_US, bits [55:48] (R517). -/
def DM_TIMER.CNP_GAP_US : Field := ⟨364, .dm, 0x8, 1, 48, 8, .rw, 50, .m, true⟩
/-- DM_CLASS.LAT_DSCP, bits [5:0] (R517). -/
def DM_CLASS.LAT_DSCP : Field := ⟨365, .dm, 0x10, 1, 0, 6, .rw, 46, .m, true⟩
/-- DM_CLASS.BULK_DSCP, bits [13:8] (R517). -/
def DM_CLASS.BULK_DSCP : Field := ⟨366, .dm, 0x10, 1, 8, 6, .rw, 10, .m, true⟩
/-- DM_CLASS.LAT_PRI, bits [18:16] (R517). -/
def DM_CLASS.LAT_PRI : Field := ⟨367, .dm, 0x10, 1, 16, 3, .rw, 5, .m, true⟩
/-- DM_CLASS.BULK_PRI, bits [22:20] (R517). -/
def DM_CLASS.BULK_PRI : Field := ⟨368, .dm, 0x10, 1, 20, 3, .rw, 1, .m, true⟩
/-- DM_CLASS.BULK_MIN_PCT, bits [30:24] (R517). -/
def DM_CLASS.BULK_MIN_PCT : Field := ⟨369, .dm, 0x10, 1, 24, 7, .rw, 10, .m, true⟩
/-- DM_ADDR_HI.ADDR_HI, bits [63:0] (R517). -/
def DM_ADDR_HI.ADDR_HI : Field := ⟨370, .dm, 0x18, 1, 0, 64, .rw, 0, .m, false⟩
/-- DM_ADDR_LO.ADDR_LO, bits [63:0] (R517). -/
def DM_ADDR_LO.ADDR_LO : Field := ⟨371, .dm, 0x20, 1, 0, 64, .rw, 0, .m, false⟩
/-- DM_NTAB.BASE, bits [45:15] (R517). -/
def DM_NTAB.BASE : Field := ⟨372, .dm, 0x28, 1, 15, 31, .rw, 0, .m, true⟩
/-- DM_QPT.BASE, bits [45:16] (R517). -/
def DM_QPT.BASE : Field := ⟨373, .dm, 0x30, 1, 16, 30, .rw, 0, .m, false⟩
/-- DM_QPCMD.QP, bits [11:0] (R517). -/
def DM_QPCMD.QP : Field := ⟨374, .dm, 0x38, 1, 0, 12, .rw, 0, .m, false⟩
/-- DM_QPCMD.OP, bits [13:12] (R517). -/
def DM_QPCMD.OP : Field := ⟨375, .dm, 0x38, 1, 12, 2, .rw, 0, .m, false⟩
/-- DM_QPCMD.GO, bits [63] (R517). -/
def DM_QPCMD.GO : Field := ⟨376, .dm, 0x38, 1, 63, 1, .wo, 0, .m, false⟩
/-- DM_QPSTAT.QP, bits [11:0] (R517). -/
def DM_QPSTAT.QP : Field := ⟨377, .dm, 0x40, 1, 0, 12, .rw, 0, .m, false⟩
/-- DM_QPSTAT.STATE, bits [13:12] (R517). -/
def DM_QPSTAT.STATE : Field := ⟨378, .dm, 0x40, 1, 12, 2, .ro, 0, .m, false⟩
/-- DM_QPSTAT.LAST_ERR, bits [23:16] (R517). -/
def DM_QPSTAT.LAST_ERR : Field := ⟨379, .dm, 0x40, 1, 16, 8, .ro, 0, .m, false⟩
/-- DM_STATUS.SEND_PATHS, bits [12:0] (R517). -/
def DM_STATUS.SEND_PATHS : Field := ⟨380, .dm, 0x48, 1, 0, 13, .ro, 0, .m, false⟩
/-- DM_STATUS.RECV_PATHS, bits [25:13] (R517). -/
def DM_STATUS.RECV_PATHS : Field := ⟨381, .dm, 0x48, 1, 13, 13, .ro, 0, .m, false⟩
/-- DM_STATUS.CFG_ERR, bits [26] (R517). -/
def DM_STATUS.CFG_ERR : Field := ⟨382, .dm, 0x48, 1, 26, 1, .w1c, 0, .m, false⟩
/-- DM_STATUS.STORE_KIB, bits [44:32] (R517). -/
def DM_STATUS.STORE_KIB : Field := ⟨383, .dm, 0x48, 1, 32, 13, .ro, 0, .m, false⟩
/-- DM_PATH_CNT.OPENED, bits [31:0] (R517). -/
def DM_PATH_CNT.OPENED : Field := ⟨384, .dm, 0x50, 1, 0, 32, .rc, 0, .m, false⟩
/-- DM_PATH_CNT.FAILED, bits [63:32] (R517). -/
def DM_PATH_CNT.FAILED : Field := ⟨385, .dm, 0x50, 1, 32, 32, .rc, 0, .m, false⟩
/-- DM_MSG_CNT.TX, bits [31:0] (R517). -/
def DM_MSG_CNT.TX : Field := ⟨386, .dm, 0x58, 1, 0, 32, .rc, 0, .m, false⟩
/-- DM_MSG_CNT.RX, bits [63:32] (R517). -/
def DM_MSG_CNT.RX : Field := ⟨387, .dm, 0x58, 1, 32, 32, .rc, 0, .m, false⟩
/-- DM_RETX_CNT.RETX, bits [31:0] (R517). -/
def DM_RETX_CNT.RETX : Field := ⟨388, .dm, 0x60, 1, 0, 32, .rc, 0, .m, false⟩
/-- DM_RETX_CNT.STORE_DROPS, bits [47:32] (R517). -/
def DM_RETX_CNT.STORE_DROPS : Field := ⟨389, .dm, 0x60, 1, 32, 16, .rc, 0, .m, false⟩
/-- DM_RETX_CNT.BAD_NODE, bits [63:48] (R517). -/
def DM_RETX_CNT.BAD_NODE : Field := ⟨390, .dm, 0x60, 1, 48, 16, .rc, 0, .m, false⟩
/-- DM_ROCE_CNT.NAK_SENT, bits [15:0] (R517). -/
def DM_ROCE_CNT.NAK_SENT : Field := ⟨391, .dm, 0x68, 1, 0, 16, .rc, 0, .m, false⟩
/-- DM_ROCE_CNT.CNP_SENT, bits [31:16] (R517). -/
def DM_ROCE_CNT.CNP_SENT : Field := ⟨392, .dm, 0x68, 1, 16, 16, .rc, 0, .m, false⟩
/-- DM_ROCE_CNT.CNP_RCVD, bits [47:32] (R517). -/
def DM_ROCE_CNT.CNP_RCVD : Field := ⟨393, .dm, 0x68, 1, 32, 16, .rc, 0, .m, false⟩
/-- DM_ROCE_CNT.QP_ERR, bits [63:48] (R517). -/
def DM_ROCE_CNT.QP_ERR : Field := ⟨394, .dm, 0x68, 1, 48, 16, .rc, 0, .m, false⟩
/-- DM_PTP_CTRL.ENABLE, bits [0] (R517). -/
def DM_PTP_CTRL.ENABLE : Field := ⟨395, .dm, 0x70, 1, 0, 1, .rw, 0, .m, false⟩
/-- DM_PTP_CTRL.SERVO_LOCKED, bits [1] (R517). -/
def DM_PTP_CTRL.SERVO_LOCKED : Field := ⟨396, .dm, 0x70, 1, 1, 1, .rw, 0, .m, false⟩
/-- DM_PTP_CTRL.SLAVE_SUB, bits [7:2] (R517). -/
def DM_PTP_CTRL.SLAVE_SUB : Field := ⟨397, .dm, 0x70, 1, 2, 6, .rw, 0, .m, false⟩
/-- DM_PTP_CTRL.LOG_SYNC_INT, bits [11:8] (R517). -/
def DM_PTP_CTRL.LOG_SYNC_INT : Field := ⟨398, .dm, 0x70, 1, 8, 4, .rw, 12, .m, true⟩
/-- DM_PTP_CTRL.ONE_STEP, bits [12] (R517). -/
def DM_PTP_CTRL.ONE_STEP : Field := ⟨399, .dm, 0x70, 1, 12, 1, .rw, 0, .m, true⟩
/-- DM_PTP_CTRL.REF_LOST, bits [13] (R517). -/
def DM_PTP_CTRL.REF_LOST : Field := ⟨400, .dm, 0x70, 1, 13, 1, .ro, 1, .m, false⟩
/-- DM_PTP_ADJ.FREQ_PPB, bits [31:0] (R517). -/
def DM_PTP_ADJ.FREQ_PPB : Field := ⟨401, .dm, 0x78, 1, 0, 32, .rw, 0, .a, false⟩
/-- DM_PTP_TIME.NS, bits [29:0] (R517). -/
def DM_PTP_TIME.NS : Field := ⟨402, .dm, 0x80, 1, 0, 30, .rw, 0, .a, false⟩
/-- DM_PTP_TIME.SEC, bits [63:30] (R517). -/
def DM_PTP_TIME.SEC : Field := ⟨403, .dm, 0x80, 1, 30, 34, .rw, 0, .a, false⟩
/-- DM_PTP_RX.LOG2_SIZE, bits [3:0] (R517). -/
def DM_PTP_RX.LOG2_SIZE : Field := ⟨404, .dm, 0x88, 1, 0, 4, .rw, 0, .m, false⟩
/-- DM_PTP_TX.LOG2_SIZE, bits [3:0] (R517). -/
def DM_PTP_TX.LOG2_SIZE : Field := ⟨405, .dm, 0x90, 1, 0, 4, .rw, 0, .m, false⟩
/-- DM_PTP_RX.BASE, bits [45:12] (R517). -/
def DM_PTP_RX.BASE : Field := ⟨406, .dm, 0x88, 1, 12, 34, .rw, 0, .m, false⟩
/-- DM_PTP_TX.BASE, bits [45:12] (R517). -/
def DM_PTP_TX.BASE : Field := ⟨407, .dm, 0x90, 1, 12, 34, .rw, 0, .m, false⟩
/-- DM_PTP_IDX.RX_PROD, bits [15:0] (R517). -/
def DM_PTP_IDX.RX_PROD : Field := ⟨408, .dm, 0x98, 1, 0, 16, .ro, 0, .m, false⟩
/-- DM_PTP_IDX.RX_CONS, bits [31:16] (R517). -/
def DM_PTP_IDX.RX_CONS : Field := ⟨409, .dm, 0x98, 1, 16, 16, .rw, 0, .m, false⟩
/-- DM_PTP_IDX.TX_PROD, bits [47:32] (R517). -/
def DM_PTP_IDX.TX_PROD : Field := ⟨410, .dm, 0x98, 1, 32, 16, .rw, 0, .m, false⟩
/-- DM_PTP_IDX.TX_CONS, bits [63:48] (R517). -/
def DM_PTP_IDX.TX_CONS : Field := ⟨411, .dm, 0x98, 1, 48, 16, .ro, 0, .m, false⟩
/-- DM_PPS_IN.NS, bits [29:0] (R517). -/
def DM_PPS_IN.NS : Field := ⟨412, .dm, 0xA0, 1, 0, 30, .ro, 0, .a, false⟩
/-- DM_PPS_IN.SEC, bits [63:30] (R517). -/
def DM_PPS_IN.SEC : Field := ⟨413, .dm, 0xA0, 1, 30, 34, .ro, 0, .a, false⟩
/-- DM_RQ_IDX.CONS, bits [31:0] (R517). -/
def DM_RQ_IDX.CONS : Field := ⟨414, .dm, 0x8000, 4096, 0, 32, .rw, 0, .m, false⟩
/-- DM_RQ_IDX.PROD, bits [63:32] (R517). -/
def DM_RQ_IDX.PROD : Field := ⟨415, .dm, 0x8000, 4096, 32, 32, .ro, 0, .m, false⟩
/-- GRP_CTRL.ENABLE, bits [0] (R543). -/
def GRP_CTRL.ENABLE : Field := ⟨416, .grp, 0x0, 1, 0, 1, .rw, 0, .m, false⟩
/-- GRP_CTRL.AUTO_EPOCH, bits [1] (R543). -/
def GRP_CTRL.AUTO_EPOCH : Field := ⟨417, .grp, 0x0, 1, 1, 1, .rw, 1, .m, true⟩
/-- GRP_CTRL.AUTO_OUT, bits [2] (R543). -/
def GRP_CTRL.AUTO_OUT : Field := ⟨418, .grp, 0x0, 1, 2, 1, .rw, 0, .m, true⟩
/-- GRP_CTRL.CMP_HOLD, bits [3] (R543). -/
def GRP_CTRL.CMP_HOLD : Field := ⟨419, .grp, 0x0, 1, 3, 1, .rw, 0, .m, false⟩
/-- GRP_CTRL.HB_TICKS, bits [15:8] (R543). -/
def GRP_CTRL.HB_TICKS : Field := ⟨420, .grp, 0x0, 1, 8, 8, .rw, 10, .m, true⟩
/-- GRP_CTRL.DIGEST_TICKS, bits [31:16] (R543). -/
def GRP_CTRL.DIGEST_TICKS : Field := ⟨421, .grp, 0x0, 1, 16, 16, .rw, 1000, .m, true⟩
/-- GRP_CTRL.MAINT_MAX, bits [38:32] (R543). -/
def GRP_CTRL.MAINT_MAX : Field := ⟨422, .grp, 0x0, 1, 32, 7, .rw, 4, .m, true⟩
/-- GRP_ROLE.ROLE, bits [1:0] (R543). -/
def GRP_ROLE.ROLE : Field := ⟨423, .grp, 0x8, 1, 0, 2, .rw, 0, .m, false⟩
/-- GRP_ROLE.GROUP_ID, bits [23:8] (R543). -/
def GRP_ROLE.GROUP_ID : Field := ⟨424, .grp, 0x8, 1, 8, 16, .rw, 0, .m, true⟩
/-- GRP_ROLE.MANAGER_NODE, bits [33:24] (R543). -/
def GRP_ROLE.MANAGER_NODE : Field := ⟨425, .grp, 0x8, 1, 24, 10, .rw, 0, .m, true⟩
/-- GRP_ROLE.DEPUTY_NODE, bits [43:34] (R543). -/
def GRP_ROLE.DEPUTY_NODE : Field := ⟨426, .grp, 0x8, 1, 34, 10, .rw, 0, .m, true⟩
/-- GRP_ROLE.DEP_VALID, bits [44] (R543). -/
def GRP_ROLE.DEP_VALID : Field := ⟨427, .grp, 0x8, 1, 44, 1, .rw, 0, .m, true⟩
/-- GRP_ROLE.TERM, bits [60:45] (R543). -/
def GRP_ROLE.TERM : Field := ⟨428, .grp, 0x8, 1, 45, 16, .rw, 0, .m, true⟩
/-- GRP_STATUS.MGR_ALIVE, bits [0] (R543). -/
def GRP_STATUS.MGR_ALIVE : Field := ⟨429, .grp, 0x10, 1, 0, 1, .ro, 0, .m, false⟩
/-- GRP_STATUS.EPOCH_DIFF, bits [1] (R543). -/
def GRP_STATUS.EPOCH_DIFF : Field := ⟨430, .grp, 0x10, 1, 1, 1, .w1c, 0, .m, false⟩
/-- GRP_STATUS.TAKEOVER, bits [2] (R543). -/
def GRP_STATUS.TAKEOVER : Field := ⟨431, .grp, 0x10, 1, 2, 1, .w1c, 0, .m, false⟩
/-- GRP_STATUS.DEMOTED, bits [3] (R543). -/
def GRP_STATUS.DEMOTED : Field := ⟨432, .grp, 0x10, 1, 3, 1, .w1c, 0, .m, false⟩
/-- GRP_STATUS.CFG_ERR, bits [4] (R543). -/
def GRP_STATUS.CFG_ERR : Field := ⟨433, .grp, 0x10, 1, 4, 1, .w1c, 0, .m, false⟩
/-- GRP_SVC.IN_SERVICE, bits [0] (R543). -/
def GRP_SVC.IN_SERVICE : Field := ⟨434, .grp, 0x18, 1, 0, 1, .rw, 0, .m, false⟩
/-- GRP_SVC.BY_MGR, bits [1] (R543). -/
def GRP_SVC.BY_MGR : Field := ⟨435, .grp, 0x18, 1, 1, 1, .ro, 0, .m, false⟩
/-- GRP_SVC.CAUSE, bits [15:8] (R543). -/
def GRP_SVC.CAUSE : Field := ⟨436, .grp, 0x18, 1, 8, 8, .ro, 0, .m, false⟩
/-- GRP_SVC_CMD.NODE, bits [9:0] (R543). -/
def GRP_SVC_CMD.NODE : Field := ⟨437, .grp, 0x20, 1, 0, 10, .rw, 0, .m, false⟩
/-- GRP_SVC_CMD.IN, bits [10] (R543). -/
def GRP_SVC_CMD.IN : Field := ⟨438, .grp, 0x20, 1, 10, 1, .rw, 0, .m, false⟩
/-- GRP_SVC_CMD.GO, bits [63] (R543). -/
def GRP_SVC_CMD.GO : Field := ⟨439, .grp, 0x20, 1, 63, 1, .wo, 0, .m, false⟩
/-- GRP_CFG_GEN.GEN, bits [31:0] (R543). -/
def GRP_CFG_GEN.GEN : Field := ⟨440, .grp, 0x28, 1, 0, 32, .rw, 0, .m, true⟩
/-- GRP_DIGEST.DIGEST, bits [63:0] (R543). -/
def GRP_DIGEST.DIGEST : Field := ⟨441, .grp, 0x30, 1, 0, 64, .ro, 0, .m, false⟩
/-- GRP_DIGEST_LATCH.LATCH, bits [63:0] (R543). -/
def GRP_DIGEST_LATCH.LATCH : Field := ⟨442, .grp, 0x38, 1, 0, 64, .ro, 0, .m, false⟩
/-- GRP_DIGEST_TICK.TICK, bits [63:0] (R543). -/
def GRP_DIGEST_TICK.TICK : Field := ⟨443, .grp, 0x40, 1, 0, 64, .ro, 0, .m, false⟩
/-- GRP_MTAB.COUNT, bits [8:0] (R543). -/
def GRP_MTAB.COUNT : Field := ⟨444, .grp, 0x48, 1, 0, 9, .rw, 0, .m, false⟩
/-- GRP_MTAB.BASE, bits [45:12] (R543). -/
def GRP_MTAB.BASE : Field := ⟨445, .grp, 0x48, 1, 12, 34, .rw, 0, .m, false⟩
/-- GRP_MISMATCH.VALID, bits [0] (R543). -/
def GRP_MISMATCH.VALID : Field := ⟨446, .grp, 0x50, 1, 0, 1, .w1c, 0, .m, false⟩
/-- GRP_MISMATCH.MORE, bits [1] (R543). -/
def GRP_MISMATCH.MORE : Field := ⟨447, .grp, 0x50, 1, 1, 1, .w1c, 0, .m, false⟩
/-- GRP_MISMATCH.NODE, bits [11:2] (R543). -/
def GRP_MISMATCH.NODE : Field := ⟨448, .grp, 0x50, 1, 2, 10, .ro, 0, .m, false⟩
/-- GRP_MISMATCH.MISMATCHES, bits [47:32] (R543). -/
def GRP_MISMATCH.MISMATCHES : Field := ⟨449, .grp, 0x50, 1, 32, 16, .rc, 0, .m, false⟩
/-- GRP_MISMATCH.LATE, bits [63:48] (R543). -/
def GRP_MISMATCH.LATE : Field := ⟨450, .grp, 0x50, 1, 48, 16, .rc, 0, .m, false⟩
/-- GRP_HB_CNT.SENT, bits [31:0] (R543). -/
def GRP_HB_CNT.SENT : Field := ⟨451, .grp, 0x58, 1, 0, 32, .rc, 0, .m, false⟩
/-- GRP_HB_CNT.MISSED, bits [63:32] (R543). -/
def GRP_HB_CNT.MISSED : Field := ⟨452, .grp, 0x58, 1, 32, 32, .rc, 0, .m, false⟩
/-- GRP_WTAB.LOG2_SIZE, bits [4:0] (R543). -/
def GRP_WTAB.LOG2_SIZE : Field := ⟨453, .grp, 0x60, 1, 0, 5, .rw, 0, .m, false⟩
/-- GRP_WTAB.BASE, bits [45:12] (R543). -/
def GRP_WTAB.BASE : Field := ⟨454, .grp, 0x60, 1, 12, 34, .rw, 0, .m, false⟩
/-- GRP_WSTATUS.BUSY, bits [0] (R543). -/
def GRP_WSTATUS.BUSY : Field := ⟨455, .grp, 0x68, 1, 0, 1, .ro, 0, .m, false⟩
/-- GRP_WSTATUS.REF_MISS, bits [31:16] (R543). -/
def GRP_WSTATUS.REF_MISS : Field := ⟨456, .grp, 0x68, 1, 16, 16, .rc, 0, .m, false⟩
/-- GRP_WSTATUS.OVERRUNS, bits [47:32] (R543). -/
def GRP_WSTATUS.OVERRUNS : Field := ⟨457, .grp, 0x68, 1, 32, 16, .rc, 0, .m, false⟩
/-- GRP_WSTATUS.POISONED, bits [63:48] (R543). -/
def GRP_WSTATUS.POISONED : Field := ⟨458, .grp, 0x68, 1, 48, 16, .rc, 0, .m, false⟩
/-- GRP_RPT.LOG2_SIZE, bits [3:0] (R543). -/
def GRP_RPT.LOG2_SIZE : Field := ⟨459, .grp, 0x70, 1, 0, 4, .rw, 0, .m, false⟩
/-- GRP_RPT.BASE, bits [45:12] (R543). -/
def GRP_RPT.BASE : Field := ⟨460, .grp, 0x70, 1, 12, 34, .rw, 0, .m, false⟩
/-- GRP_RPT_IDX.PROD, bits [31:0] (R543). -/
def GRP_RPT_IDX.PROD : Field := ⟨461, .grp, 0x78, 1, 0, 32, .ro, 0, .m, false⟩
/-- GRP_RPT_IDX.CONS, bits [63:32] (R543). -/
def GRP_RPT_IDX.CONS : Field := ⟨462, .grp, 0x78, 1, 32, 32, .rw, 0, .m, false⟩
/-- GRP_OMAP_AT.AT_TICK, bits [63:0] (R543). -/
def GRP_OMAP_AT.AT_TICK : Field := ⟨463, .grp, 0x80, 1, 0, 64, .rw, 0, .m, false⟩
/-- GRP_OMAP_CMD.SEND, bits [0] (R543). -/
def GRP_OMAP_CMD.SEND : Field := ⟨464, .grp, 0x88, 1, 0, 1, .wo, 0, .m, false⟩
/-- GRP_OMAP_CMD.BUSY, bits [1] (R543). -/
def GRP_OMAP_CMD.BUSY : Field := ⟨465, .grp, 0x88, 1, 1, 1, .ro, 0, .m, false⟩
/-- GRP_MAINT.KIND, bits [1:0] (R543). -/
def GRP_MAINT.KIND : Field := ⟨466, .grp, 0x90, 1, 0, 2, .rw, 0, .m, false⟩
/-- GRP_MAINT.STATE, bits [3:2] (R543). -/
def GRP_MAINT.STATE : Field := ⟨467, .grp, 0x90, 1, 2, 2, .ro, 0, .m, false⟩
/-- GRP_MAINT.ARG, bits [15:4] (R543). -/
def GRP_MAINT.ARG : Field := ⟨468, .grp, 0x90, 1, 4, 12, .rw, 0, .m, false⟩
/-- GRP_MAINT.ACTIVE, bits [22:16] (R543). -/
def GRP_MAINT.ACTIVE : Field := ⟨469, .grp, 0x90, 1, 16, 7, .ro, 0, .m, false⟩
/-- GRP_MAINT.DONE, bits [62] (R543). -/
def GRP_MAINT.DONE : Field := ⟨470, .grp, 0x90, 1, 62, 1, .wo, 0, .m, false⟩
/-- GRP_MAINT.GO, bits [63] (R543). -/
def GRP_MAINT.GO : Field := ⟨471, .grp, 0x90, 1, 63, 1, .wo, 0, .m, false⟩
/-- GRP_MAINT_AT.GRANT_TICK, bits [63:0] (R543). -/
def GRP_MAINT_AT.GRANT_TICK : Field := ⟨472, .grp, 0x98, 1, 0, 64, .ro, 0, .m, false⟩
/-- GRP_OMAP.NODE, bits [9:0] (R543). -/
def GRP_OMAP.NODE : Field := ⟨473, .grp, 0x8000, 4096, 0, 10, .ro, 0, .m, true⟩
/-- GRP_OMAP.VALID, bits [10] (R543). -/
def GRP_OMAP.VALID : Field := ⟨474, .grp, 0x8000, 4096, 10, 1, .ro, 0, .m, true⟩
/-- GRP_OMAP.PEND_NODE, bits [25:16] (R543). -/
def GRP_OMAP.PEND_NODE : Field := ⟨475, .grp, 0x8000, 4096, 16, 10, .rw, 0, .m, false⟩
/-- GRP_OMAP.PEND_VALID, bits [26] (R543). -/
def GRP_OMAP.PEND_VALID : Field := ⟨476, .grp, 0x8000, 4096, 26, 1, .rw, 0, .m, false⟩
/-- GRP_OMAP.PEND, bits [27] (R543). -/
def GRP_OMAP.PEND : Field := ⟨477, .grp, 0x8000, 4096, 27, 1, .rw, 0, .m, false⟩
/-- FLT_CTRL.ENABLE, bits [0] (R576). -/
def FLT_CTRL.ENABLE : Field := ⟨478, .flt, 0x0, 1, 0, 1, .rw, 0, .m, false⟩
/-- FLT_CTRL.AUTO_RETIRE, bits [1] (R576). -/
def FLT_CTRL.AUTO_RETIRE : Field := ⟨479, .flt, 0x0, 1, 1, 1, .rw, 1, .m, true⟩
/-- FLT_CTRL.IRQ_MASK, bits [15:8] (R576). -/
def FLT_CTRL.IRQ_MASK : Field := ⟨480, .flt, 0x0, 1, 8, 8, .rw, 0, .m, false⟩
/-- FLT_CTRL.IRQ_COAL_US, bits [23:16] (R576). -/
def FLT_CTRL.IRQ_COAL_US : Field := ⟨481, .flt, 0x0, 1, 16, 8, .rw, 5, .m, false⟩
/-- FLT_STATUS.OVERFLOW, bits [0] (R576). -/
def FLT_STATUS.OVERFLOW : Field := ⟨482, .flt, 0x8, 1, 0, 1, .w1c, 0, .m, false⟩
/-- FLT_STATUS.CFG_ERR, bits [1] (R576). -/
def FLT_STATUS.CFG_ERR : Field := ⟨483, .flt, 0x8, 1, 1, 1, .w1c, 0, .m, false⟩
/-- FLT_STATUS.TERMINATED, bits [28:16] (R576). -/
def FLT_STATUS.TERMINATED : Field := ⟨484, .flt, 0x8, 1, 16, 13, .ro, 0, .m, false⟩
/-- FLT_RING.BASE, bits [45:18] (R576). -/
def FLT_RING.BASE : Field := ⟨485, .flt, 0x10, 1, 18, 28, .rw, 0, .m, false⟩
/-- FLT_RING_IDX.PROD, bits [31:0] (R576). -/
def FLT_RING_IDX.PROD : Field := ⟨486, .flt, 0x18, 1, 0, 32, .ro, 0, .m, false⟩
/-- FLT_RING_IDX.CONS, bits [63:32] (R576). -/
def FLT_RING_IDX.CONS : Field := ⟨487, .flt, 0x18, 1, 32, 32, .rw, 0, .m, false⟩
/-- FLT_SEQ.NEXT, bits [63:0] (R576). -/
def FLT_SEQ.NEXT : Field := ⟨488, .flt, 0x20, 1, 0, 64, .ro, 1, .m, false⟩
/-- FLT_RES_CTRL.TRANSIENT_LIMIT, bits [7:0] (R576). -/
def FLT_RES_CTRL.TRANSIENT_LIMIT : Field := ⟨489, .flt, 0x28, 1, 0, 8, .rw, 4, .m, true⟩
/-- FLT_RES_CTRL.CHECKER_LIMIT, bits [15:8] (R576). -/
def FLT_RES_CTRL.CHECKER_LIMIT : Field := ⟨490, .flt, 0x28, 1, 8, 8, .rw, 2, .m, true⟩
/-- FLT_RES_CTRL.WINDOW_TICKS, bits [47:16] (R576). -/
def FLT_RES_CTRL.WINDOW_TICKS : Field := ⟨491, .flt, 0x28, 1, 16, 32, .rw, 225000, .m, true⟩
/-- FLT_RES_CNT.TRANSIENT, bits [15:0] (R576). -/
def FLT_RES_CNT.TRANSIENT : Field := ⟨492, .flt, 0x30, 1, 0, 16, .rc, 0, .m, false⟩
/-- FLT_RES_CNT.CHECKER, bits [31:16] (R576). -/
def FLT_RES_CNT.CHECKER : Field := ⟨493, .flt, 0x30, 1, 16, 16, .rc, 0, .m, false⟩
/-- FLT_RES_CNT.LASTING, bits [47:32] (R576). -/
def FLT_RES_CNT.LASTING : Field := ⟨494, .flt, 0x30, 1, 32, 16, .rc, 0, .m, false⟩
/-- FLT_RES_CNT.UNRESOLVED, bits [63:48] (R576). -/
def FLT_RES_CNT.UNRESOLVED : Field := ⟨495, .flt, 0x30, 1, 48, 16, .rc, 0, .m, false⟩
/-- FLT_SAMPLE.LOG2_RATE, bits [3:0] (R576). -/
def FLT_SAMPLE.LOG2_RATE : Field := ⟨496, .flt, 0x38, 1, 0, 4, .rw, 10, .m, true⟩
/-- FLT_SAMPLE.EN, bits [4] (R576). -/
def FLT_SAMPLE.EN : Field := ⟨497, .flt, 0x38, 1, 4, 1, .rw, 1, .m, true⟩
/-- FLT_SAMPLE.REFEREE_TICKS, bits [15:8] (R576). -/
def FLT_SAMPLE.REFEREE_TICKS : Field := ⟨498, .flt, 0x38, 1, 8, 8, .rw, 16, .m, true⟩
/-- FLT_SAMPLE_CNT.SAMPLED, bits [31:0] (R576). -/
def FLT_SAMPLE_CNT.SAMPLED : Field := ⟨499, .flt, 0x40, 1, 0, 32, .rc, 0, .m, false⟩
/-- FLT_SAMPLE_CNT.MISMATCHES, bits [43:32] (R576). -/
def FLT_SAMPLE_CNT.MISMATCHES : Field := ⟨500, .flt, 0x40, 1, 32, 12, .rc, 0, .m, false⟩
/-- FLT_SAMPLE_CNT.SPARE_FAULTS, bits [51:44] (R576). -/
def FLT_SAMPLE_CNT.SPARE_FAULTS : Field := ⟨501, .flt, 0x40, 1, 44, 8, .rc, 0, .m, false⟩
/-- FLT_SAMPLE_CNT.SKIPPED, bits [63:52] (R576). -/
def FLT_SAMPLE_CNT.SKIPPED : Field := ⟨502, .flt, 0x40, 1, 52, 12, .rc, 0, .m, false⟩
/-- FLT_TP_BASE.BASE, bits [45:6] (R576). -/
def FLT_TP_BASE.BASE : Field := ⟨503, .flt, 0x48, 1, 6, 40, .rw, 0, .m, false⟩
/-- FLT_TP_CTRL.EN, bits [0] (R576). -/
def FLT_TP_CTRL.EN : Field := ⟨504, .flt, 0x50, 1, 0, 1, .rw, 0, .m, true⟩
/-- FLT_TP_CTRL.INTERVAL_TICKS, bits [47:16] (R576). -/
def FLT_TP_CTRL.INTERVAL_TICKS : Field := ⟨505, .flt, 0x50, 1, 16, 32, .rw, 10000, .m, true⟩
/-- FLT_TP_CNT.RUNS, bits [31:0] (R576). -/
def FLT_TP_CNT.RUNS : Field := ⟨506, .flt, 0x58, 1, 0, 32, .rc, 0, .m, false⟩
/-- FLT_TP_CNT.MISMATCHES, bits [47:32] (R576). -/
def FLT_TP_CNT.MISMATCHES : Field := ⟨507, .flt, 0x58, 1, 32, 16, .rc, 0, .m, false⟩
/-- FLT_TP_CNT.DISCARDED, bits [63:48] (R576). -/
def FLT_TP_CNT.DISCARDED : Field := ⟨508, .flt, 0x58, 1, 48, 16, .rc, 0, .m, false⟩
/-- FLT_CTX.CTX, bits [11:0] (R576). -/
def FLT_CTX.CTX : Field := ⟨509, .flt, 0x60, 1, 0, 12, .rw, 0, .m, false⟩
/-- FLT_CTX.TERM, bits [12] (R576). -/
def FLT_CTX.TERM : Field := ⟨510, .flt, 0x60, 1, 12, 1, .ro, 0, .m, false⟩
/-- FLT_CTX.CLEAR, bits [63] (R576). -/
def FLT_CTX.CLEAR : Field := ⟨511, .flt, 0x60, 1, 63, 1, .wo, 0, .m, false⟩
/-- FLT_SWREC.CAUSE, bits [7:0] (R576). -/
def FLT_SWREC.CAUSE : Field := ⟨512, .flt, 0x68, 1, 0, 8, .rw, 0, .m, false⟩
/-- FLT_SWREC.LEVEL, bits [10:8] (R576). -/
def FLT_SWREC.LEVEL : Field := ⟨513, .flt, 0x68, 1, 8, 3, .rw, 0, .m, false⟩
/-- FLT_SWREC.AUX, bits [62:32] (R576). -/
def FLT_SWREC.AUX : Field := ⟨514, .flt, 0x68, 1, 32, 31, .rw, 0, .m, false⟩
/-- FLT_SWREC.GO, bits [63] (R576). -/
def FLT_SWREC.GO : Field := ⟨515, .flt, 0x68, 1, 63, 1, .wo, 0, .m, false⟩
/-- FLT_AV_FULL.COUNT, bits [63:0] (R576). -/
def FLT_AV_FULL.COUNT : Field := ⟨516, .flt, 0x70, 1, 0, 64, .ro, 0, .l, false⟩
/-- FLT_AV_SHORT.COUNT, bits [63:0] (R576). -/
def FLT_AV_SHORT.COUNT : Field := ⟨517, .flt, 0x78, 1, 0, 64, .ro, 0, .l, false⟩
/-- FLT_AV_LOST.COUNT, bits [63:0] (R576). -/
def FLT_AV_LOST.COUNT : Field := ⟨518, .flt, 0x80, 1, 0, 64, .ro, 0, .l, false⟩
/-- FLT_AV_EXCL.COUNT, bits [63:0] (R576). -/
def FLT_AV_EXCL.COUNT : Field := ⟨519, .flt, 0x88, 1, 0, 64, .ro, 0, .l, false⟩
/-- FLT_AV_LAST.TICK, bits [62:0] (R576). -/
def FLT_AV_LAST.TICK : Field := ⟨520, .flt, 0x90, 1, 0, 63, .ro, 0, .l, false⟩
/-- FLT_AV_LAST.IN_SVC, bits [63] (R576). -/
def FLT_AV_LAST.IN_SVC : Field := ⟨521, .flt, 0x90, 1, 63, 1, .ro, 0, .l, false⟩
/-- FLT_AV_CAUSE.UNALIGNED, bits [15:0] (R576). -/
def FLT_AV_CAUSE.UNALIGNED : Field := ⟨522, .flt, 0x98, 1, 0, 16, .ro, 0, .l, false⟩
/-- FLT_AV_CAUSE.OVERRUN, bits [31:16] (R576). -/
def FLT_AV_CAUSE.OVERRUN : Field := ⟨523, .flt, 0x98, 1, 16, 16, .ro, 0, .l, false⟩
/-- FLT_AV_CAUSE.ABORT, bits [47:32] (R576). -/
def FLT_AV_CAUSE.ABORT : Field := ⟨524, .flt, 0x98, 1, 32, 16, .ro, 0, .l, false⟩
/-- FLT_AV_CAUSE.LATE, bits [63:48] (R576). -/
def FLT_AV_CAUSE.LATE : Field := ⟨525, .flt, 0x98, 1, 48, 16, .ro, 0, .l, false⟩
/-- FLT_OVF_REC.WORD, bits [63:0] (R576). -/
def FLT_OVF_REC.WORD : Field := ⟨526, .flt, 0x100, 8, 0, 64, .ro, 0, .m, false⟩
/-- FLT_OVF_CLASS.COUNT, bits [31:0] (R576). -/
def FLT_OVF_CLASS.COUNT : Field := ⟨527, .flt, 0x200, 32, 0, 32, .ro, 0, .m, false⟩
/-- FLT_OVF_LEVEL.COUNT, bits [31:0] (R576). -/
def FLT_OVF_LEVEL.COUNT : Field := ⟨528, .flt, 0x300, 8, 0, 32, .ro, 0, .m, false⟩
/-- TL_RPL.STATE, bits [1:0] (R577). -/
def TL_RPL.STATE : Field := ⟨529, .tl, 0x500, 1, 0, 2, .ro, 0, .t, false⟩
/-- TL_RPL.LOG_USED, bits [7:2] (R577). -/
def TL_RPL.LOG_USED : Field := ⟨530, .tl, 0x500, 1, 2, 6, .ro, 0, .t, false⟩
/-- TL_RPL.TRANSIENTS, bits [15:8] (R577). -/
def TL_RPL.TRANSIENTS : Field := ⟨531, .tl, 0x500, 1, 8, 8, .ro, 0, .t, false⟩
/-- TL_RPL.CHECKER, bits [23:16] (R577). -/
def TL_RPL.CHECKER : Field := ⟨532, .tl, 0x500, 1, 16, 8, .ro, 0, .t, false⟩
/-- PW_CTRL.UV_WARN_DV, bits [9:0] (R593). -/
def PW_CTRL.UV_WARN_DV : Field := ⟨533, .pw, 0x0, 1, 0, 10, .rw, 460, .l, false⟩
/-- PW_CTRL.DWELL_US, bits [23:16] (R593). -/
def PW_CTRL.DWELL_US : Field := ⟨534, .pw, 0x0, 1, 16, 8, .rw, 20, .m, false⟩
/-- PW_CTRL.RECOVER_US, bits [39:24] (R593). -/
def PW_CTRL.RECOVER_US : Field := ⟨535, .pw, 0x0, 1, 24, 16, .rw, 200, .m, false⟩
/-- PW_CTRL.TJ_WARN_C, bits [47:40] (R593). -/
def PW_CTRL.TJ_WARN_C : Field := ⟨536, .pw, 0x0, 1, 40, 8, .rw, 95, .m, true⟩
/-- PW_STATUS.STEP, bits [1:0] (R593). -/
def PW_STATUS.STEP : Field := ⟨537, .pw, 0x8, 1, 0, 2, .ro, 0, .m, false⟩
/-- PW_STATUS.UV_STEP, bits [3:2] (R593). -/
def PW_STATUS.UV_STEP : Field := ⟨538, .pw, 0x8, 1, 2, 2, .ro, 0, .m, false⟩
/-- PW_STATUS.CAP_STEP, bits [5:4] (R593). -/
def PW_STATUS.CAP_STEP : Field := ⟨539, .pw, 0x8, 1, 4, 2, .ro, 0, .m, false⟩
/-- PW_STATUS.COOL_STEP, bits [7:6] (R593). -/
def PW_STATUS.COOL_STEP : Field := ⟨540, .pw, 0x8, 1, 6, 2, .ro, 0, .m, false⟩
/-- PW_STATUS.UV_WARN, bits [8] (R593). -/
def PW_STATUS.UV_WARN : Field := ⟨541, .pw, 0x8, 1, 8, 1, .ro, 0, .m, false⟩
/-- PW_STATUS.OPEN_PAIR, bits [9] (R593). -/
def PW_STATUS.OPEN_PAIR : Field := ⟨542, .pw, 0x8, 1, 9, 1, .ro, 0, .m, false⟩
/-- PW_STATUS.CAP_ACTIVE, bits [10] (R593). -/
def PW_STATUS.CAP_ACTIVE : Field := ⟨543, .pw, 0x8, 1, 10, 1, .ro, 0, .m, false⟩
/-- PW_STATUS.COOL_WARN, bits [11] (R593). -/
def PW_STATUS.COOL_WARN : Field := ⟨544, .pw, 0x8, 1, 11, 1, .ro, 0, .m, false⟩
/-- PW_STATUS.THERM_WARN, bits [12] (R593). -/
def PW_STATUS.THERM_WARN : Field := ⟨545, .pw, 0x8, 1, 12, 1, .ro, 0, .m, false⟩
/-- PW_STATUS.CFG_ERR, bits [13] (R593). -/
def PW_STATUS.CFG_ERR : Field := ⟨546, .pw, 0x8, 1, 13, 1, .w1c, 0, .m, false⟩
/-- PW_STATUS.CLAMPED, bits [14] (R593). -/
def PW_STATUS.CLAMPED : Field := ⟨547, .pw, 0x8, 1, 14, 1, .w1c, 0, .m, false⟩
/-- PW_STATUS.DIE_STEP, bits [47:32] (R593). -/
def PW_STATUS.DIE_STEP : Field := ⟨548, .pw, 0x8, 1, 32, 16, .ro, 0, .m, false⟩
/-- PW_CAP.EN, bits [0] (R593). -/
def PW_CAP.EN : Field := ⟨549, .pw, 0x10, 1, 0, 1, .rw, 1, .l, false⟩
/-- PW_CAP.LIMIT_W, bits [12:1] (R593). -/
def PW_CAP.LIMIT_W : Field := ⟨550, .pw, 0x10, 1, 1, 12, .rw, 0, .l, false⟩
/-- PW_CAP.WIN_US, bits [31:16] (R593). -/
def PW_CAP.WIN_US : Field := ⟨551, .pw, 0x10, 1, 16, 16, .rw, 1000, .m, false⟩
/-- PW_INPUT.VA_MV, bits [15:0] (R593). -/
def PW_INPUT.VA_MV : Field := ⟨552, .pw, 0x18, 1, 0, 16, .ro, 0, .m, false⟩
/-- PW_INPUT.VB_MV, bits [31:16] (R593). -/
def PW_INPUT.VB_MV : Field := ⟨553, .pw, 0x18, 1, 16, 16, .ro, 0, .m, false⟩
/-- PW_INPUT.IA_CA, bits [47:32] (R593). -/
def PW_INPUT.IA_CA : Field := ⟨554, .pw, 0x18, 1, 32, 16, .ro, 0, .m, false⟩
/-- PW_INPUT.IB_CA, bits [63:48] (R593). -/
def PW_INPUT.IB_CA : Field := ⟨555, .pw, 0x18, 1, 48, 16, .ro, 0, .m, false⟩
/-- PW_POWER.INST_W, bits [15:0] (R593). -/
def PW_POWER.INST_W : Field := ⟨556, .pw, 0x20, 1, 0, 16, .ro, 0, .m, false⟩
/-- PW_POWER.AVG_W, bits [31:16] (R593). -/
def PW_POWER.AVG_W : Field := ⟨557, .pw, 0x20, 1, 16, 16, .ro, 0, .m, false⟩
/-- PW_POWER.PEAK_W, bits [47:32] (R593). -/
def PW_POWER.PEAK_W : Field := ⟨558, .pw, 0x20, 1, 32, 16, .rc, 0, .m, false⟩
/-- PW_TEMP.CDIE_C, bits [7:0] (R593). -/
def PW_TEMP.CDIE_C : Field := ⟨559, .pw, 0x28, 1, 0, 8, .ro, 0, .m, false⟩
/-- PW_TEMP.NDIE_C, bits [15:8] (R593). -/
def PW_TEMP.NDIE_C : Field := ⟨560, .pw, 0x28, 1, 8, 8, .ro, 0, .m, false⟩
/-- PW_TEMP.HBM_C, bits [23:16] (R593). -/
def PW_TEMP.HBM_C : Field := ⟨561, .pw, 0x28, 1, 16, 8, .ro, 0, .m, false⟩
/-- PW_TEMP.INLET_C, bits [31:24] (R593). -/
def PW_TEMP.INLET_C : Field := ⟨562, .pw, 0x28, 1, 24, 8, .ro, 0, .m, false⟩
/-- PW_TEMP.FLOW, bits [47:32] (R593). -/
def PW_TEMP.FLOW : Field := ⟨563, .pw, 0x28, 1, 32, 16, .ro, 0, .m, false⟩
/-- PW_EVT_CNT.UV_WARNS, bits [15:0] (R593). -/
def PW_EVT_CNT.UV_WARNS : Field := ⟨564, .pw, 0x30, 1, 0, 16, .rc, 0, .a, false⟩
/-- PW_EVT_CNT.THROTTLES, bits [31:16] (R593). -/
def PW_EVT_CNT.THROTTLES : Field := ⟨565, .pw, 0x30, 1, 16, 16, .rc, 0, .a, false⟩
/-- PW_EVT_CNT.CAP_EVENTS, bits [47:32] (R593). -/
def PW_EVT_CNT.CAP_EVENTS : Field := ⟨566, .pw, 0x30, 1, 32, 16, .rc, 0, .a, false⟩
/-- PW_EVT_CNT.THERM_WARNS, bits [63:48] (R593). -/
def PW_EVT_CNT.THERM_WARNS : Field := ⟨567, .pw, 0x30, 1, 48, 16, .rc, 0, .a, false⟩
/-- PW_CLK.REQ_MHZ, bits [11:0] (R593). -/
def PW_CLK.REQ_MHZ : Field := ⟨568, .pw, 0x38, 1, 0, 12, .rw, 0, .l, false⟩
/-- PW_CLK.BASE_MHZ, bits [27:16] (R593). -/
def PW_CLK.BASE_MHZ : Field := ⟨569, .pw, 0x38, 1, 16, 12, .ro, 0, .m, false⟩
/-- PW_CLK.CLAMPED, bits [28] (R593). -/
def PW_CLK.CLAMPED : Field := ⟨570, .pw, 0x38, 1, 28, 1, .w1c, 0, .m, false⟩
/-- PW_RST_CMD.OP, bits [2:0] (R612). -/
def PW_RST_CMD.OP : Field := ⟨571, .pw, 0x40, 1, 0, 3, .rw, 0, .m, false⟩
/-- PW_RST_CMD.FLUSH, bits [3] (R612). -/
def PW_RST_CMD.FLUSH : Field := ⟨572, .pw, 0x40, 1, 3, 1, .rw, 0, .m, false⟩
/-- PW_RST_CMD.TARGET, bits [12:4] (R612). -/
def PW_RST_CMD.TARGET : Field := ⟨573, .pw, 0x40, 1, 4, 9, .rw, 0, .m, false⟩
/-- PW_RST_CMD.GO, bits [63] (R612). -/
def PW_RST_CMD.GO : Field := ⟨574, .pw, 0x40, 1, 63, 1, .wo, 0, .m, false⟩
/-- PW_RST_AT.AT_TICK, bits [63:0] (R612). -/
def PW_RST_AT.AT_TICK : Field := ⟨575, .pw, 0x48, 1, 0, 64, .rw, 0, .m, false⟩
/-- PW_RST_STATUS.BUSY, bits [0] (R612). -/
def PW_RST_STATUS.BUSY : Field := ⟨576, .pw, 0x50, 1, 0, 1, .ro, 0, .m, false⟩
/-- PW_RST_STATUS.CFG_ERR, bits [1] (R612). -/
def PW_RST_STATUS.CFG_ERR : Field := ⟨577, .pw, 0x50, 1, 1, 1, .w1c, 0, .m, false⟩
/-- PW_RST_STATUS.SLEEPING, bits [63:32] (R612). -/
def PW_RST_STATUS.SLEEPING : Field := ⟨578, .pw, 0x50, 1, 32, 32, .ro, 0, .m, false⟩
/-- PW_RST_CAUSE.CAUSE, bits [7:0] (R612). -/
def PW_RST_CAUSE.CAUSE : Field := ⟨579, .pw, 0x58, 1, 0, 8, .w1c, 1, .a, false⟩
/-- PW_RST_CAUSE.CONTEXT, bits [8] (R612). -/
def PW_RST_CAUSE.CONTEXT : Field := ⟨580, .pw, 0x58, 1, 8, 1, .w1c, 0, .a, false⟩
/-- PW_RST_CAUSE.LAST, bits [19:16] (R612). -/
def PW_RST_CAUSE.LAST : Field := ⟨581, .pw, 0x58, 1, 16, 4, .ro, 1, .a, false⟩
/-- PW_RST_TICK.TICK, bits [63:0] (R612). -/
def PW_RST_TICK.TICK : Field := ⟨582, .pw, 0x60, 1, 0, 64, .ro, 0, .a, false⟩
/-- PW_RST_CNT.MODULE, bits [15:0] (R612). -/
def PW_RST_CNT.MODULE : Field := ⟨583, .pw, 0x68, 1, 0, 16, .rc, 0, .a, false⟩
/-- PW_RST_CNT.REGION, bits [31:16] (R612). -/
def PW_RST_CNT.REGION : Field := ⟨584, .pw, 0x68, 1, 16, 16, .rc, 0, .a, false⟩
/-- PW_RST_CNT.TILE, bits [47:32] (R612). -/
def PW_RST_CNT.TILE : Field := ⟨585, .pw, 0x68, 1, 32, 16, .rc, 0, .a, false⟩
/-- PW_RST_CNT.CONTEXT, bits [63:48] (R612). -/
def PW_RST_CNT.CONTEXT : Field := ⟨586, .pw, 0x68, 1, 48, 16, .rc, 0, .a, false⟩
/-- PW_RST_REGION.RESET, bits [31:0] (R612). -/
def PW_RST_REGION.RESET : Field := ⟨587, .pw, 0x70, 1, 0, 32, .w1c, 0, .a, false⟩
/-- PW_RST_REGION.LAST_TILE, bits [40:32] (R612). -/
def PW_RST_REGION.LAST_TILE : Field := ⟨588, .pw, 0x70, 1, 32, 9, .ro, 0, .a, false⟩
/-- LC_STATUS.RUN, bits [1:0] (R642). -/
def LC_STATUS.RUN : Field := ⟨589, .lc, 0x0, 1, 0, 2, .ro, 0, .a, false⟩
/-- LC_STATUS.STORE_DEGRADED, bits [2] (R642). -/
def LC_STATUS.STORE_DEGRADED : Field := ⟨590, .lc, 0x0, 1, 2, 1, .ro, 0, .a, false⟩
/-- LC_STATUS.LOG_SEQ, bits [47:16] (R642). -/
def LC_STATUS.LOG_SEQ : Field := ⟨591, .lc, 0x0, 1, 16, 32, .ro, 0, .a, false⟩
/-- LC_STATUS.LOG_WRAPS, bits [63:48] (R642). -/
def LC_STATUS.LOG_WRAPS : Field := ⟨592, .lc, 0x0, 1, 48, 16, .ro, 0, .a, false⟩
/-- LC_INV0.SERIAL, bits [63:0] (R642). -/
def LC_INV0.SERIAL : Field := ⟨593, .lc, 0x8, 1, 0, 64, .ro, 0, .a, false⟩
/-- LC_INV1.MAC_BASE, bits [47:0] (R642). -/
def LC_INV1.MAC_BASE : Field := ⟨594, .lc, 0x10, 1, 0, 48, .ro, 0, .a, false⟩
/-- LC_INV1.PART, bits [48] (R642). -/
def LC_INV1.PART : Field := ⟨595, .lc, 0x10, 1, 48, 1, .ro, 0, .a, false⟩
/-- LC_INV1.FUSE_ERASE, bits [49] (R642). -/
def LC_INV1.FUSE_ERASE : Field := ⟨596, .lc, 0x10, 1, 49, 1, .ro, 0, .a, false⟩
/-- LC_INV1.FUSE_COSIGN, bits [50] (R642). -/
def LC_INV1.FUSE_COSIGN : Field := ⟨597, .lc, 0x10, 1, 50, 1, .ro, 0, .a, false⟩
/-- LC_LOG_SEL.INDEX, bits [13:0] (R642). -/
def LC_LOG_SEL.INDEX : Field := ⟨598, .lc, 0x18, 1, 0, 14, .rw, 0, .m, false⟩
/-- LC_LOG_DATA.WORD, bits [63:0] (R642). -/
def LC_LOG_DATA.WORD : Field := ⟨599, .lc, 0x20, 4, 0, 64, .ro, 0, .m, false⟩
/-- LC_FW_CTRL.COMP, bits [1:0] (R642). -/
def LC_FW_CTRL.COMP : Field := ⟨600, .lc, 0x40, 1, 0, 2, .rw, 0, .m, false⟩
/-- LC_FW_CTRL.OP, bits [3:2] (R642). -/
def LC_FW_CTRL.OP : Field := ⟨601, .lc, 0x40, 1, 2, 2, .rw, 0, .m, false⟩
/-- LC_FW_CTRL.GO, bits [63] (R642). -/
def LC_FW_CTRL.GO : Field := ⟨602, .lc, 0x40, 1, 63, 1, .wo, 0, .m, false⟩
/-- LC_FW_AT.AT_TICK, bits [63:0] (R642). -/
def LC_FW_AT.AT_TICK : Field := ⟨603, .lc, 0x48, 1, 0, 64, .rw, 0, .m, false⟩
/-- LC_FW_STATUS.ACTIVE, bits [3:0] (R642). -/
def LC_FW_STATUS.ACTIVE : Field := ⟨604, .lc, 0x50, 1, 0, 4, .ro, 0, .l, false⟩
/-- LC_FW_STATUS.PENDING, bits [7:4] (R642). -/
def LC_FW_STATUS.PENDING : Field := ⟨605, .lc, 0x50, 1, 4, 4, .ro, 0, .m, false⟩
/-- LC_FW_STATUS.SLOT_VALID, bits [15:8] (R642). -/
def LC_FW_STATUS.SLOT_VALID : Field := ⟨606, .lc, 0x50, 1, 8, 8, .ro, 0, .l, false⟩
/-- LC_FW_STATUS.CFG_ERR, bits [16] (R642). -/
def LC_FW_STATUS.CFG_ERR : Field := ⟨607, .lc, 0x50, 1, 16, 1, .w1c, 0, .m, false⟩
/-- LC_FW_STATUS.ACTIVATIONS, bits [47:32] (R642). -/
def LC_FW_STATUS.ACTIVATIONS : Field := ⟨608, .lc, 0x50, 1, 32, 16, .rc, 0, .a, false⟩
/-- LC_FW_STATUS.REVERTS, bits [63:48] (R642). -/
def LC_FW_STATUS.REVERTS : Field := ⟨609, .lc, 0x50, 1, 48, 16, .rc, 0, .a, false⟩
/-- LC_FW_READY.BRACKEN, bits [0] (R642). -/
def LC_FW_READY.BRACKEN : Field := ⟨610, .lc, 0x58, 1, 0, 1, .wo, 0, .m, false⟩
/-- LC_FW_READY.RT, bits [1] (R642). -/
def LC_FW_READY.RT : Field := ⟨611, .lc, 0x58, 1, 1, 1, .wo, 0, .m, false⟩
/-- LC_RT_IMAGE.BASE, bits [45:12] (R642). -/
def LC_RT_IMAGE.BASE : Field := ⟨612, .lc, 0x60, 1, 12, 34, .rw, 0, .m, false⟩
/-- LC_FW_VER.VER_A, bits [31:0] (R642). -/
def LC_FW_VER.VER_A : Field := ⟨613, .lc, 0x100, 4, 0, 32, .ro, 0, .l, false⟩
/-- LC_FW_VER.VER_B, bits [63:32] (R642). -/
def LC_FW_VER.VER_B : Field := ⟨614, .lc, 0x100, 4, 32, 32, .ro, 0, .l, false⟩
/-- SV_POLICY.P_LID_MESH, bits [1:0] (R644). -/
def SV_POLICY.P_LID_MESH : Field := ⟨615, .sv, 0x0, 1, 0, 2, .rw, 2, .l, true⟩
/-- SV_POLICY.P_LID_REMOVE, bits [3:2] (R644). -/
def SV_POLICY.P_LID_REMOVE : Field := ⟨616, .sv, 0x0, 1, 2, 2, .rw, 2, .l, true⟩
/-- SV_POLICY.P_VOLT, bits [5:4] (R644). -/
def SV_POLICY.P_VOLT : Field := ⟨617, .sv, 0x0, 1, 4, 2, .rw, 1, .l, true⟩
/-- SV_POLICY.P_CLOCK, bits [7:6] (R644). -/
def SV_POLICY.P_CLOCK : Field := ⟨618, .sv, 0x0, 1, 6, 2, .rw, 1, .l, true⟩
/-- SV_POLICY.P_TEMP, bits [9:8] (R644). -/
def SV_POLICY.P_TEMP : Field := ⟨619, .sv, 0x0, 1, 8, 2, .rw, 0, .l, true⟩
/-- SV_POLICY.P_TEST, bits [11:10] (R644). -/
def SV_POLICY.P_TEST : Field := ⟨620, .sv, 0x0, 1, 10, 2, .rw, 0, .l, true⟩
/-- SV_STATUS.ACTIVE, bits [5:0] (R644). -/
def SV_STATUS.ACTIVE : Field := ⟨621, .sv, 0x8, 1, 0, 6, .ro, 0, .a, false⟩
/-- SV_STATUS.ID_KEY, bits [7:6] (R644). -/
def SV_STATUS.ID_KEY : Field := ⟨622, .sv, 0x8, 1, 6, 2, .ro, 0, .a, false⟩
/-- SV_STATUS.LOCKED, bits [8] (R644). -/
def SV_STATUS.LOCKED : Field := ⟨623, .sv, 0x8, 1, 8, 1, .ro, 0, .l, false⟩
/-- SV_ALARM.LATCH, bits [5:0] (R644). -/
def SV_ALARM.LATCH : Field := ⟨624, .sv, 0x10, 1, 0, 6, .w1c, 0, .a, false⟩
/-- SV_ALARM.FIRST, bits [8:6] (R644). -/
def SV_ALARM.FIRST : Field := ⟨625, .sv, 0x10, 1, 6, 3, .ro, 0, .a, false⟩
/-- SV_ALARM_TICK.TICK, bits [63:0] (R644). -/
def SV_ALARM_TICK.TICK : Field := ⟨626, .sv, 0x18, 1, 0, 64, .ro, 0, .a, false⟩
/-- SV_CNT.ALARMS, bits [15:0] (R644). -/
def SV_CNT.ALARMS : Field := ⟨627, .sv, 0x20, 1, 0, 16, .rc, 0, .a, false⟩
/-- SV_CNT.LOCKS, bits [31:16] (R644). -/
def SV_CNT.LOCKS : Field := ⟨628, .sv, 0x20, 1, 16, 16, .rc, 0, .a, false⟩
/-- SV_CNT.ERASES, bits [47:32] (R644). -/
def SV_CNT.ERASES : Field := ⟨629, .sv, 0x20, 1, 32, 16, .rc, 0, .a, false⟩
/-- SV_TEST.TRIGGER, bits [0] (R644). -/
def SV_TEST.TRIGGER : Field := ⟨630, .sv, 0x28, 1, 0, 1, .wo, 0, .m, false⟩
/-- SV_TEST.REATTEST, bits [1] (R644). -/
def SV_TEST.REATTEST : Field := ⟨631, .sv, 0x28, 1, 1, 1, .wo, 0, .m, false⟩
/-- SN_CTRL.ARMED, bits [0] (R662). -/
def SN_CTRL.ARMED : Field := ⟨632, .sn, 0x0, 1, 0, 1, .rw, 1, .a, false⟩
/-- SN_CTRL.SRC_EN, bits [8:2] (R662). -/
def SN_CTRL.SRC_EN : Field := ⟨633, .sn, 0x0, 1, 2, 7, .rw, 127, .a, false⟩
/-- SN_FAULT.CLASS_MASK, bits [31:0] (R662). -/
def SN_FAULT.CLASS_MASK : Field := ⟨634, .sn, 0x8, 1, 0, 32, .rw, 2097152, .a, false⟩
/-- SN_FAULT.MIN_SEV, bits [33:32] (R662). -/
def SN_FAULT.MIN_SEV : Field := ⟨635, .sn, 0x8, 1, 32, 2, .rw, 0, .a, false⟩
/-- SN_TRIG.GO, bits [0] (R662). -/
def SN_TRIG.GO : Field := ⟨636, .sn, 0x10, 1, 0, 1, .wo, 0, .m, false⟩
/-- SN_AT.AT_TICK, bits [63:0] (R662). -/
def SN_AT.AT_TICK : Field := ⟨637, .sn, 0x18, 1, 0, 64, .rw, 0, .m, false⟩
/-- SN_GRP_AT.AT_TICK, bits [63:0] (R662). -/
def SN_GRP_AT.AT_TICK : Field := ⟨638, .sn, 0x20, 1, 0, 64, .rw, 0, .m, false⟩
/-- SN_GRP_CMD.TAG, bits [15:0] (R662). -/
def SN_GRP_CMD.TAG : Field := ⟨639, .sn, 0x28, 1, 0, 16, .rw, 0, .m, false⟩
/-- SN_GRP_CMD.PEND, bits [16] (R662). -/
def SN_GRP_CMD.PEND : Field := ⟨640, .sn, 0x28, 1, 16, 1, .ro, 0, .m, false⟩
/-- SN_GRP_CMD.GO, bits [63] (R662). -/
def SN_GRP_CMD.GO : Field := ⟨641, .sn, 0x28, 1, 63, 1, .wo, 0, .m, false⟩
/-- SN_STATUS.VALID, bits [0] (R662). -/
def SN_STATUS.VALID : Field := ⟨642, .sn, 0x30, 1, 0, 1, .ro, 0, .a, false⟩
/-- SN_STATUS.COPY_BUSY, bits [1] (R662). -/
def SN_STATUS.COPY_BUSY : Field := ⟨643, .sn, 0x30, 1, 1, 1, .ro, 0, .a, false⟩
/-- SN_STATUS.PARTIAL, bits [2] (R662). -/
def SN_STATUS.PARTIAL : Field := ⟨644, .sn, 0x30, 1, 2, 1, .ro, 0, .a, false⟩
/-- SN_STATUS.CFG_ERR, bits [3] (R662). -/
def SN_STATUS.CFG_ERR : Field := ⟨645, .sn, 0x30, 1, 3, 1, .w1c, 0, .a, false⟩
/-- SN_STATUS.SOURCE, bits [6:4] (R662). -/
def SN_STATUS.SOURCE : Field := ⟨646, .sn, 0x30, 1, 4, 3, .ro, 0, .a, false⟩
/-- SN_TICK.TICK, bits [63:0] (R662). -/
def SN_TICK.TICK : Field := ⟨647, .sn, 0x38, 1, 0, 64, .ro, 0, .a, false⟩
/-- SN_TIME.NS, bits [29:0] (R662). -/
def SN_TIME.NS : Field := ⟨648, .sn, 0x40, 1, 0, 30, .ro, 0, .a, false⟩
/-- SN_TIME.SEC, bits [63:30] (R662). -/
def SN_TIME.SEC : Field := ⟨649, .sn, 0x40, 1, 30, 34, .ro, 0, .a, false⟩
/-- SN_INFO.ARG, bits [63:0] (R662). -/
def SN_INFO.ARG : Field := ⟨650, .sn, 0x48, 1, 0, 64, .ro, 0, .a, false⟩
/-- SN_CNT.TRIGGERS, bits [31:0] (R662). -/
def SN_CNT.TRIGGERS : Field := ⟨651, .sn, 0x50, 1, 0, 32, .rc, 0, .a, false⟩
/-- SN_CNT.MISSED, bits [63:32] (R662). -/
def SN_CNT.MISSED : Field := ⟨652, .sn, 0x50, 1, 32, 32, .rc, 0, .a, false⟩
/-- SN_RD_SEL.KIND, bits [0] (R662). -/
def SN_RD_SEL.KIND : Field := ⟨653, .sn, 0x58, 1, 0, 1, .rw, 0, .m, false⟩
/-- SN_RD_SEL.SITE, bits [10:1] (R662). -/
def SN_RD_SEL.SITE : Field := ⟨654, .sn, 0x58, 1, 1, 10, .rw, 0, .m, false⟩
/-- SN_RD_SEL.PRESENT, bits [11] (R662). -/
def SN_RD_SEL.PRESENT : Field := ⟨655, .sn, 0x58, 1, 11, 1, .ro, 0, .m, false⟩
/-- SN_RD_SEL.OFFSET, bits [43:12] (R662). -/
def SN_RD_SEL.OFFSET : Field := ⟨656, .sn, 0x58, 1, 12, 32, .rw, 0, .m, false⟩
/-- SN_RD_DATA.DATA, bits [63:0] (R662). -/
def SN_RD_DATA.DATA : Field := ⟨657, .sn, 0x60, 1, 0, 64, .ro, 0, .m, false⟩
/-- SN_TAP.EN, bits [0] (R662). -/
def SN_TAP.EN : Field := ⟨658, .sn, 0x68, 1, 0, 1, .rw, 0, .a, false⟩
/-- SN_BIST_CTRL.MODE, bits [0] (R662). -/
def SN_BIST_CTRL.MODE : Field := ⟨659, .sn, 0x70, 1, 0, 1, .rw, 0, .l, false⟩
/-- SN_BRINGUP.STAGE, bits [3:0] (R662). -/
def SN_BRINGUP.STAGE : Field := ⟨660, .sn, 0x78, 1, 0, 4, .ro, 0, .m, false⟩
/-- SN_BRINGUP.MODE_RAN, bits [4] (R662). -/
def SN_BRINGUP.MODE_RAN : Field := ⟨661, .sn, 0x78, 1, 4, 1, .ro, 0, .m, false⟩
/-- SN_BRINGUP.SITES_DISABLED, bits [12:5] (R662). -/
def SN_BRINGUP.SITES_DISABLED : Field := ⟨662, .sn, 0x78, 1, 5, 8, .ro, 0, .m, false⟩
/-- SN_BRINGUP.TWILL_REPAIRS, bits [20:13] (R662). -/
def SN_BRINGUP.TWILL_REPAIRS : Field := ⟨663, .sn, 0x78, 1, 13, 8, .ro, 0, .m, false⟩
/-- SN_BRINGUP.PPR_REPAIRS, bits [36:21] (R662). -/
def SN_BRINGUP.PPR_REPAIRS : Field := ⟨664, .sn, 0x78, 1, 21, 16, .ro, 0, .m, false⟩
/-- SN_BRINGUP.CH_MAPPED, bits [42:37] (R662). -/
def SN_BRINGUP.CH_MAPPED : Field := ⟨665, .sn, 0x78, 1, 37, 6, .ro, 0, .m, false⟩
/-- SN_BRINGUP.PKG_MAPPED, bits [47:43] (R662). -/
def SN_BRINGUP.PKG_MAPPED : Field := ⟨666, .sn, 0x78, 1, 43, 5, .ro, 0, .m, false⟩
/-- SN_BRINGUP.DURATION_MS, bits [63:48] (R662). -/
def SN_BRINGUP.DURATION_MS : Field := ⟨667, .sn, 0x78, 1, 48, 16, .ro, 0, .m, false⟩

end Reg

/-- A part of the list of all fields. -/
def fieldsPart0 : List Field := [
  Reg.TK_COUNT.COUNT,
  Reg.TK_PERIOD.PERIOD_US,
  Reg.TK_PERIOD.NEXT_US,
  Reg.TK_PERIOD_AT.AT_TICK,
  Reg.TK_EPOCH_NS.EPOCH_NS,
  Reg.TK_EPOCH_TICK.EPOCH_TICK,
  Reg.TK_CTRL.ENABLE,
  Reg.TK_CTRL.SOURCE,
  Reg.TK_CTRL.EPOCH_LOAD,
  Reg.TK_CTRL.SOFT_SPILL_EN,
  Reg.TK_CTRL.PLAN_LEAD_US,
  Reg.TK_ALIGN.LIMIT_NS,
  Reg.TK_ALIGN.HOLDOVER_TICKS,
  Reg.TK_ALIGN.SLEW_NS,
  Reg.TK_ALIGN.RESYNC_US,
  Reg.TK_BUDGET.REMOTE_ALLOW_US,
  Reg.TK_BUDGET.FABRIC_ALLOW_US,
  Reg.TK_STATUS.STATE,
  Reg.TK_STATUS.PLAN_LATE,
  Reg.TK_STATUS.CFG_ERR,
  Reg.TK_STATUS.RESYNCED,
  Reg.TK_STATUS.OFFSET_NS,
  Reg.TK_LAST_BOUNDARY.BOUNDARY_NS,
  Reg.TK_OVERRUN_CNT.OVERRUN_STEPS,
  Reg.TK_OVERRUN_CNT.OVERRUN_TICKS,
  Reg.TK_ABORT_CNT.HARD_ABORTS,
  Reg.TK_ABORT_CNT.SOFT_ABORTS,
  Reg.TK_LATE_CNT.LATE_CMDS,
  Reg.TK_LATE_CNT.SPILLED_STEPS,
  Reg.TL_MAP_STATUS.PENDING,
  Reg.TL_MAP_STATUS.CFG_ERR,
  Reg.TL_MAP_STATUS.COPY_POISON,
  Reg.TL_MAP_STATUS.DEGRADED,
  Reg.TL_RETIRE_AT.AT_TICK,
  Reg.TL_RETIRE.LTILE,
  Reg.TL_RETIRE.SITE,
  Reg.TL_RETIRE.CAUSE,
  Reg.TL_RETIRE.GO,
  Reg.TL_DROP_CNT.DROPPED_RETURNS,
  Reg.TL_LMAP.SITE,
  Reg.TL_LMAP.VALID,
  Reg.TL_SITE.STATE,
  Reg.TL_SITE.LTILE,
  Reg.TL_SITE.CAUSE,
  Reg.TL_SEM.COUNT,
  Reg.TL_SEM.SIGNAL,
  Reg.TL_IMEM_PAGE.PROG_ID,
  Reg.TL_IMEM_PAGE.VALID,
  Reg.TL_IMEM_PAGE.LOADING,
  Reg.TL_CTRL.LOCAL_POLL_NS,
  Reg.TL_CTRL.REMOTE_POLL_NS,
  Reg.TL_CTRL.SEM_FAULT_STOP,
  Reg.TL_STATUS.RUN,
  Reg.TL_STATUS.BANK,
  Reg.TL_STATUS.STEP_INDEX,
  Reg.TL_STATUS.CTX,
  Reg.TL_STATUS.PC,
  Reg.TL_STATUS.ENG_BUSY,
  Reg.TL_STEP.CYCLES,
  Reg.TL_STEP.STEPS_ENDED]

/-- A part of the list of all fields. -/
def fieldsPart1 : List Field := [
  Reg.TL_EXC.CODE,
  Reg.TL_EXC.ENG,
  Reg.TL_EXC.PC,
  Reg.TL_EXC.CTX,
  Reg.TL_EXC.VALID,
  Reg.TL_EXC.MORE,
  Reg.TL_EXC.TICK_LO,
  Reg.TL_EXC_ADDR.VA,
  Reg.TL_EXC_CNT.EXCEPTIONS,
  Reg.TL_EXC_CNT.SEM_FAULTS,
  Reg.TW_LAT.LAT,
  Reg.TW_REPAIR.REQ_EN,
  Reg.TW_REPAIR.REQ_ROW,
  Reg.TW_REPAIR.EFF_EN,
  Reg.TW_REPAIR.EFF_ROW,
  Reg.TW_STATUS.ACT_VALID,
  Reg.TW_STATUS.ACT_POISON,
  Reg.TW_STATUS.SHD_VALID,
  Reg.TW_STATUS.SHD_POISON,
  Reg.TW_STATUS.LOADING,
  Reg.TW_STATUS.LOAD_SRC,
  Reg.TW_STATUS.ACT_FMT,
  Reg.TW_STATUS.SHD_FMT,
  Reg.TW_STATUS.CFG_ERR,
  Reg.TW_STATUS.PASS,
  Reg.TW_CTRL.RES_EN,
  Reg.TW_RES_STATUS.MISMATCH,
  Reg.TW_RES_STATUS.MORE,
  Reg.TW_RES_STATUS.PASS,
  Reg.TW_RES_STATUS.ROW,
  Reg.TW_RES_STATUS.BLOCK,
  Reg.TW_RES_STATUS.CTX,
  Reg.TW_RES_STATUS.TICK_LO,
  Reg.TW_RES_CNT.CHECKS,
  Reg.TW_RES_CNT.MISMATCHES,
  Reg.FR_FMT_CTRL.FORCE_RNE,
  Reg.FR_FMT_CTRL.SEED_BASE,
  Reg.FR_SAT_CNT.SATURATIONS,
  Reg.FR_SAT_CNT.INF_OVERFLOWS,
  Reg.FR_SAT_CNT.NAN_LOST,
  Reg.FR_SAT_FIRST.VALID,
  Reg.FR_SAT_FIRST.MORE,
  Reg.FR_SAT_FIRST.SRC,
  Reg.FR_SAT_FIRST.PC,
  Reg.FR_SAT_FIRST.CTX,
  Reg.FR_SAT_FIRST.TICK_LO,
  Reg.FR_SEED_STATUS.VALID,
  Reg.FR_SEED_STATUS.FAILED,
  Reg.FR_SEED_CUR.SEED,
  Reg.FR_STATUS.BUSY,
  Reg.FR_STATUS.QDEPTH,
  Reg.FR_STATUS.STARTED,
  Reg.FR_CHUNK_CNT.CHUNKS,
  Reg.FR_CHUNK_CNT.BANK_STALLS,
  Reg.MS_CTRL.PRESET,
  Reg.MS_CTRL.EXPERT_EN,
  Reg.MS_CTRL.BAG_SHARE,
  Reg.MS_CTRL.QDEPTH,
  Reg.MS_STATUS.PARTS,
  Reg.MS_STATUS.ROWS]

/-- A part of the list of all fields. -/
def fieldsPart2 : List Field := [
  Reg.MS_STATUS.QFULL,
  Reg.MS_STATUS.INVAL_BUSY,
  Reg.MS_STATUS.CFG_ERR,
  Reg.MS_TDIR.INVAL,
  Reg.MS_TDIR.BASE,
  Reg.MS_REPL.MAX_GIB,
  Reg.MS_PART_CNT.LOCAL,
  Reg.MS_PART_CNT.REMOTE,
  Reg.MS_ROW_CNT.ROWS,
  Reg.MS_SECT_CNT.SECTORS,
  Reg.MS_ERR_CNT.POISON_ROWS,
  Reg.MS_ERR_CNT.CONSIST,
  Reg.MS_ERR_CNT.TICK_SKEW,
  Reg.MS_ERR_CNT.NOT_OWNER,
  Reg.MS_NUM_CNT.OVERFLOWS,
  Reg.MS_NUM_CNT.NAN_RESULTS,
  Reg.MS_NUM_CNT.NO_TABLE,
  Reg.MS_SQ.OCC,
  Reg.MS_SQ.SERVED,
  Reg.MS_BSLOT.SLOT,
  Reg.MS_BSLOT.OWNED,
  Reg.TL_MSS_STATUS.INSTR,
  Reg.TL_MSS_STATUS.BAGS,
  Reg.TL_MSS_STATUS.PARTS,
  Reg.TL_MSS_CNT.BAGS_DONE,
  Reg.TL_MSS_CNT.PARTS_FAILED,
  Reg.TL_MSS_LATE.LATE_RETURNS,
  Reg.TL_MSS_LATE.TIMEOUTS,
  Reg.MS_UPD_CTRL.CLOSE_US,
  Reg.MS_UPD_CTRL.ACCEPT,
  Reg.MS_UPD_STATUS.ENTRIES,
  Reg.MS_UPD_STATUS.DEFERRED,
  Reg.MS_UPD_STATUS.FULL,
  Reg.MS_UPD_STATUS.CFG_ERR,
  Reg.MS_UPD_CNT.ACCEPTED,
  Reg.MS_UPD_CNT.APPLIED,
  Reg.MS_UPD_REJ.LATE,
  Reg.MS_UPD_REJ.FULL,
  Reg.MS_UPD_REJ.STALE,
  Reg.MS_UPD_REJ.OTHER,
  Reg.MS_UPD_ERR.POISON_DROPS,
  Reg.MS_UPD_ERR.STALE_DROPS,
  Reg.MS_UPD_ERR.OWNER_DROPS,
  Reg.MS_UPD_ERR.REREADS,
  Reg.MS_UPD_ERR.DEFERRALS,
  Reg.MEM_CTRL.ECC_MODE,
  Reg.MEM_CTRL.SCRUB_EN,
  Reg.MEM_CTRL.SCRUB_PERIOD_H,
  Reg.MEM_CTRL.MIGRATE_SHARE,
  Reg.MEM_STATUS.STATE,
  Reg.MEM_STATUS.OUT,
  Reg.MEM_STATUS.MIG_PROGRESS,
  Reg.MEM_STATUS.CFG_ERR,
  Reg.MEM_CHMAP.PENDING,
  Reg.MEM_CHMAP.EFFECTIVE,
  Reg.MEM_MAPOUT.CHANNEL,
  Reg.MEM_MAPOUT.GO,
  Reg.MEM_ERR_CNT.CORRECTED,
  Reg.MEM_ERR_CNT.UNCORRECTABLE,
  Reg.MEM_ERR_FIRST.VALID]

/-- A part of the list of all fields. -/
def fieldsPart3 : List Field := [
  Reg.MEM_ERR_FIRST.MORE,
  Reg.MEM_ERR_FIRST.SRC,
  Reg.MEM_ERR_FIRST.CHANNEL,
  Reg.MEM_ERR_FIRST.PC,
  Reg.MEM_ERR_FIRST.TICK_LO,
  Reg.MEM_ERR_ADDR.OFFSET,
  Reg.MEM_SF_STATUS.ENTRIES,
  Reg.MEM_SF_STATUS.BACK_INVAL,
  Reg.MEM_PPR.CHANNEL,
  Reg.MEM_PPR.PC,
  Reg.MEM_PPR.BANK,
  Reg.MEM_PPR.ROW,
  Reg.MEM_PPR.GO,
  Reg.MEM_PPR_STATUS.BUSY,
  Reg.MEM_PPR_STATUS.DONE,
  Reg.MEM_PPR_STATUS.FAILED,
  Reg.MEM_PPR_STATUS.SPARES,
  Reg.MEM_ROWLOG.CHANNEL,
  Reg.MEM_ROWLOG.PC,
  Reg.MEM_ROWLOG.BANK,
  Reg.MEM_ROWLOG.ROW,
  Reg.MEM_ROWLOG.CORR,
  Reg.MEM_ROWLOG.UNCORR,
  Reg.MEM_ROWLOG.VALID,
  Reg.MEM_PKGMAP.PENDING,
  Reg.MEM_PKGMAP.EFFECTIVE,
  Reg.MEM_PKGMAP.FAILED,
  Reg.MEM_PKGMAP.FAILED_ACC,
  Reg.RC_CTRL.LOCK_MASK,
  Reg.RC_STATUS.LOCK_LOST,
  Reg.RC_STATUS.CFG_ERR,
  Reg.RC_STATUS.PRELOAD_BUSY,
  Reg.RC_STATUS.MISS_OUT,
  Reg.RC_PRELOAD.WAY,
  Reg.RC_PRELOAD.ADDR,
  Reg.RC_PRELOAD.GO,
  Reg.RC_PRELOAD_CNT.COUNT,
  Reg.RC_PRELOAD_STATUS.DONE,
  Reg.RC_PRELOAD_STATUS.FAILED,
  Reg.RC_PRELOAD_STATUS.FIRST_CAUSE,
  Reg.RC_PRELOAD_STATUS.POISON,
  Reg.RC_ACC_CNT.HITS,
  Reg.RC_ACC_CNT.MISSES,
  Reg.RC_ERR_CNT.TAG_PARITY,
  Reg.RC_ERR_CNT.CORRECTED,
  Reg.RC_ERR_CNT.POISONED,
  Reg.RC_ERR_CNT.LOCK_WRITES,
  Reg.XL_CTRL.ENABLE,
  Reg.XL_NODE.SELF,
  Reg.XL_CTXT.BASE,
  Reg.XL_WIN.BASE,
  Reg.XL_INVAL_VA.VA,
  Reg.XL_INVAL.SCOPE,
  Reg.XL_INVAL.CTX,
  Reg.XL_INVAL.PAGES,
  Reg.XL_INVAL.GO,
  Reg.XL_INVAL_STATUS.BUSY,
  Reg.XL_INVAL_STATUS.CFG_ERR,
  Reg.XL_INVAL_STATUS.DONE_SEQ,
  Reg.XL_WINVAL.INDEX]

/-- A part of the list of all fields. -/
def fieldsPart4 : List Field := [
  Reg.XL_WINVAL.ALL,
  Reg.XL_WINVAL.GO,
  Reg.XL_WINVAL_STATUS.BUSY,
  Reg.XL_WINVAL_STATUS.CFG_ERR,
  Reg.XL_WINVAL_STATUS.DONE_SEQ,
  Reg.XL_TAG_SET.FIRST,
  Reg.XL_TAG_SET.COUNT,
  Reg.XL_TAG_SET.TAG,
  Reg.XL_TAG_SET.GO,
  Reg.XL_TAG_STATUS.BUSY,
  Reg.XL_TAG_STATUS.CFG_ERR,
  Reg.XL_TAG_STATUS.DONE_SEQ,
  Reg.XL_TAG_RD.GRANULE,
  Reg.XL_TAG_RD.TAG,
  Reg.XL_TAG_RD.PRESENT,
  Reg.XL_WALK_CNT.WALKS,
  Reg.XL_WALK_CNT.STLB_HITS,
  Reg.XL_FAULT_CNT.XLAT,
  Reg.XL_FAULT_CNT.TAG,
  Reg.XL_CORE_CTX.CTX,
  Reg.TL_TLB_STATUS.ENTRIES,
  Reg.TL_TLB_STATUS.MISS_OUT,
  Reg.TL_TLB_STATUS.DRAINING,
  Reg.TL_TLB_CNT.LOOKUPS,
  Reg.TL_TLB_CNT.MISSES,
  Reg.BK_CTRL.ENABLE,
  Reg.BK_CTRL.HEADROOM_PCT,
  Reg.BK_CTRL.REMOTE_POLL_US,
  Reg.BK_STATUS.RUN,
  Reg.BK_STATUS.CFG_ERR,
  Reg.BK_STATUS.WATCH_USED,
  Reg.BK_STATUS.CMDS,
  Reg.BK_QTAB.BASE,
  Reg.BK_PROG.BASE,
  Reg.BK_DB.BASE,
  Reg.BK_BARG_PA.BASE,
  Reg.BK_BARG_VA.VA,
  Reg.BK_DL.LOG2_SIZE,
  Reg.BK_DL.BASE,
  Reg.BK_DL_IDX.PROD,
  Reg.BK_DL_IDX.CONS,
  Reg.BK_QCMD.QUEUE,
  Reg.BK_QCMD.OP,
  Reg.BK_QCMD.SKIP,
  Reg.BK_QCMD.GO,
  Reg.BK_QSEL.QUEUE,
  Reg.BK_QSTATUS.STATE,
  Reg.BK_QSTATUS.DB_PEND,
  Reg.BK_QSTATUS.CAUSE,
  Reg.BK_QSTATUS.SLOT,
  Reg.BK_QSTATUS.CONS,
  Reg.BK_QIDX.PROD_SEEN,
  Reg.BK_QIDX.FAULT_RUN,
  Reg.BK_CMD_CNT.ACCEPTED,
  Reg.BK_CMD_CNT.COMPLETED,
  Reg.BK_ERR_CNT.SHED,
  Reg.BK_ERR_CNT.DIVERTED,
  Reg.BK_ERR_CNT.DL_DROPS,
  Reg.BK_ERR_CNT.PARKS,
  Reg.BK_CAP0.VALID]

/-- A part of the list of all fields. -/
def fieldsPart5 : List Field := [
  Reg.BK_CAP0.MORE,
  Reg.BK_CAP0.QUEUE,
  Reg.BK_CAP0.STATUS,
  Reg.BK_CAP0.CAUSE,
  Reg.BK_CAP0.CMD_TAG,
  Reg.BK_CAP1.INDEX,
  Reg.BK_CAP1.LTILE,
  Reg.BK_CAP1.SITE,
  Reg.BK_CAP2.EXC,
  Reg.BK_CAP2.ENG_BUSY,
  Reg.BK_CAP2.PC,
  Reg.BK_CAP2.CTX,
  Reg.BK_CAP2.TICK_LO,
  Reg.BK_HAND.LOG2_SIZE,
  Reg.BK_WORK.LOG2_SIZE,
  Reg.BK_HAND.BASE,
  Reg.BK_WORK.BASE,
  Reg.BK_WORK_DB.PROD,
  Reg.BK_WORK_DB.CONS,
  Reg.BK_SLOT.EN,
  Reg.BK_SLOT.MODE,
  Reg.BK_SLOT.PRIO,
  Reg.BK_SLOT.QUOTA_PCT,
  Reg.DM_PCTRL.ENABLE,
  Reg.DM_PCTRL.MODE,
  Reg.DM_PCTRL.HALF_DIS,
  Reg.DM_PCTRL.MSEC_EN,
  Reg.DM_PCTRL.PTP_CLEAR,
  Reg.DM_PCTRL.PFC_EN,
  Reg.DM_PCTRL.FEC_DEG_PPM,
  Reg.DM_PSTATUS.LINK,
  Reg.DM_PSTATUS.FEC_DEG,
  Reg.DM_PSTATUS.CFG_ERR,
  Reg.DM_PSTATUS.PN_EXHAUST,
  Reg.DM_PSTATUS.LANE_FAIL,
  Reg.DM_PGW.MAC,
  Reg.DM_PFRM_CNT.TX,
  Reg.DM_PFRM_CNT.RX,
  Reg.DM_PERR_CNT.FEC_UNCORR,
  Reg.DM_PERR_CNT.FCS,
  Reg.DM_PERR_CNT.MSEC_DROP,
  Reg.DM_PERR_CNT.FILTER_DROP,
  Reg.DM_MSEC_SEL.SUB,
  Reg.DM_MSEC_SEL.DIR,
  Reg.DM_MSEC_SEL.AN,
  Reg.DM_MSEC_SEL.OP,
  Reg.DM_MSEC_SEL.GO,
  Reg.DM_MSEC_KEY.KEY,
  Reg.DM_MSEC_SALT0.SALT_LO,
  Reg.DM_MSEC_SALT1.SALT_HI,
  Reg.DM_MSEC_SALT1.SSCI,
  Reg.DM_MSEC_PN.PN,
  Reg.DM_MSEC_SCI.SCI,
  Reg.DM_CTRL.ENABLE,
  Reg.DM_CTRL.PPP_LOG2,
  Reg.DM_CTRL.SPRAY,
  Reg.DM_CTRL.RETRY_MAX,
  Reg.DM_CTRL.DUP_THRESH,
  Reg.DM_CTRL.WINDOW,
  Reg.DM_CTRL.IDLE_MS]

/-- A part of the list of all fields. -/
def fieldsPart6 : List Field := [
  Reg.DM_TIMER.LAT_RTO_US,
  Reg.DM_TIMER.BULK_RTO_US,
  Reg.DM_TIMER.ACK_DELAY_NS,
  Reg.DM_TIMER.CNP_GAP_US,
  Reg.DM_CLASS.LAT_DSCP,
  Reg.DM_CLASS.BULK_DSCP,
  Reg.DM_CLASS.LAT_PRI,
  Reg.DM_CLASS.BULK_PRI,
  Reg.DM_CLASS.BULK_MIN_PCT,
  Reg.DM_ADDR_HI.ADDR_HI,
  Reg.DM_ADDR_LO.ADDR_LO,
  Reg.DM_NTAB.BASE,
  Reg.DM_QPT.BASE,
  Reg.DM_QPCMD.QP,
  Reg.DM_QPCMD.OP,
  Reg.DM_QPCMD.GO,
  Reg.DM_QPSTAT.QP,
  Reg.DM_QPSTAT.STATE,
  Reg.DM_QPSTAT.LAST_ERR,
  Reg.DM_STATUS.SEND_PATHS,
  Reg.DM_STATUS.RECV_PATHS,
  Reg.DM_STATUS.CFG_ERR,
  Reg.DM_STATUS.STORE_KIB,
  Reg.DM_PATH_CNT.OPENED,
  Reg.DM_PATH_CNT.FAILED,
  Reg.DM_MSG_CNT.TX,
  Reg.DM_MSG_CNT.RX,
  Reg.DM_RETX_CNT.RETX,
  Reg.DM_RETX_CNT.STORE_DROPS,
  Reg.DM_RETX_CNT.BAD_NODE,
  Reg.DM_ROCE_CNT.NAK_SENT,
  Reg.DM_ROCE_CNT.CNP_SENT,
  Reg.DM_ROCE_CNT.CNP_RCVD,
  Reg.DM_ROCE_CNT.QP_ERR,
  Reg.DM_PTP_CTRL.ENABLE,
  Reg.DM_PTP_CTRL.SERVO_LOCKED,
  Reg.DM_PTP_CTRL.SLAVE_SUB,
  Reg.DM_PTP_CTRL.LOG_SYNC_INT,
  Reg.DM_PTP_CTRL.ONE_STEP,
  Reg.DM_PTP_CTRL.REF_LOST,
  Reg.DM_PTP_ADJ.FREQ_PPB,
  Reg.DM_PTP_TIME.NS,
  Reg.DM_PTP_TIME.SEC,
  Reg.DM_PTP_RX.LOG2_SIZE,
  Reg.DM_PTP_TX.LOG2_SIZE,
  Reg.DM_PTP_RX.BASE,
  Reg.DM_PTP_TX.BASE,
  Reg.DM_PTP_IDX.RX_PROD,
  Reg.DM_PTP_IDX.RX_CONS,
  Reg.DM_PTP_IDX.TX_PROD,
  Reg.DM_PTP_IDX.TX_CONS,
  Reg.DM_PPS_IN.NS,
  Reg.DM_PPS_IN.SEC,
  Reg.DM_RQ_IDX.CONS,
  Reg.DM_RQ_IDX.PROD,
  Reg.GRP_CTRL.ENABLE,
  Reg.GRP_CTRL.AUTO_EPOCH,
  Reg.GRP_CTRL.AUTO_OUT,
  Reg.GRP_CTRL.CMP_HOLD,
  Reg.GRP_CTRL.HB_TICKS]

/-- A part of the list of all fields. -/
def fieldsPart7 : List Field := [
  Reg.GRP_CTRL.DIGEST_TICKS,
  Reg.GRP_CTRL.MAINT_MAX,
  Reg.GRP_ROLE.ROLE,
  Reg.GRP_ROLE.GROUP_ID,
  Reg.GRP_ROLE.MANAGER_NODE,
  Reg.GRP_ROLE.DEPUTY_NODE,
  Reg.GRP_ROLE.DEP_VALID,
  Reg.GRP_ROLE.TERM,
  Reg.GRP_STATUS.MGR_ALIVE,
  Reg.GRP_STATUS.EPOCH_DIFF,
  Reg.GRP_STATUS.TAKEOVER,
  Reg.GRP_STATUS.DEMOTED,
  Reg.GRP_STATUS.CFG_ERR,
  Reg.GRP_SVC.IN_SERVICE,
  Reg.GRP_SVC.BY_MGR,
  Reg.GRP_SVC.CAUSE,
  Reg.GRP_SVC_CMD.NODE,
  Reg.GRP_SVC_CMD.IN,
  Reg.GRP_SVC_CMD.GO,
  Reg.GRP_CFG_GEN.GEN,
  Reg.GRP_DIGEST.DIGEST,
  Reg.GRP_DIGEST_LATCH.LATCH,
  Reg.GRP_DIGEST_TICK.TICK,
  Reg.GRP_MTAB.COUNT,
  Reg.GRP_MTAB.BASE,
  Reg.GRP_MISMATCH.VALID,
  Reg.GRP_MISMATCH.MORE,
  Reg.GRP_MISMATCH.NODE,
  Reg.GRP_MISMATCH.MISMATCHES,
  Reg.GRP_MISMATCH.LATE,
  Reg.GRP_HB_CNT.SENT,
  Reg.GRP_HB_CNT.MISSED,
  Reg.GRP_WTAB.LOG2_SIZE,
  Reg.GRP_WTAB.BASE,
  Reg.GRP_WSTATUS.BUSY,
  Reg.GRP_WSTATUS.REF_MISS,
  Reg.GRP_WSTATUS.OVERRUNS,
  Reg.GRP_WSTATUS.POISONED,
  Reg.GRP_RPT.LOG2_SIZE,
  Reg.GRP_RPT.BASE,
  Reg.GRP_RPT_IDX.PROD,
  Reg.GRP_RPT_IDX.CONS,
  Reg.GRP_OMAP_AT.AT_TICK,
  Reg.GRP_OMAP_CMD.SEND,
  Reg.GRP_OMAP_CMD.BUSY,
  Reg.GRP_MAINT.KIND,
  Reg.GRP_MAINT.STATE,
  Reg.GRP_MAINT.ARG,
  Reg.GRP_MAINT.ACTIVE,
  Reg.GRP_MAINT.DONE,
  Reg.GRP_MAINT.GO,
  Reg.GRP_MAINT_AT.GRANT_TICK,
  Reg.GRP_OMAP.NODE,
  Reg.GRP_OMAP.VALID,
  Reg.GRP_OMAP.PEND_NODE,
  Reg.GRP_OMAP.PEND_VALID,
  Reg.GRP_OMAP.PEND,
  Reg.FLT_CTRL.ENABLE,
  Reg.FLT_CTRL.AUTO_RETIRE,
  Reg.FLT_CTRL.IRQ_MASK]

/-- A part of the list of all fields. -/
def fieldsPart8 : List Field := [
  Reg.FLT_CTRL.IRQ_COAL_US,
  Reg.FLT_STATUS.OVERFLOW,
  Reg.FLT_STATUS.CFG_ERR,
  Reg.FLT_STATUS.TERMINATED,
  Reg.FLT_RING.BASE,
  Reg.FLT_RING_IDX.PROD,
  Reg.FLT_RING_IDX.CONS,
  Reg.FLT_SEQ.NEXT,
  Reg.FLT_RES_CTRL.TRANSIENT_LIMIT,
  Reg.FLT_RES_CTRL.CHECKER_LIMIT,
  Reg.FLT_RES_CTRL.WINDOW_TICKS,
  Reg.FLT_RES_CNT.TRANSIENT,
  Reg.FLT_RES_CNT.CHECKER,
  Reg.FLT_RES_CNT.LASTING,
  Reg.FLT_RES_CNT.UNRESOLVED,
  Reg.FLT_SAMPLE.LOG2_RATE,
  Reg.FLT_SAMPLE.EN,
  Reg.FLT_SAMPLE.REFEREE_TICKS,
  Reg.FLT_SAMPLE_CNT.SAMPLED,
  Reg.FLT_SAMPLE_CNT.MISMATCHES,
  Reg.FLT_SAMPLE_CNT.SPARE_FAULTS,
  Reg.FLT_SAMPLE_CNT.SKIPPED,
  Reg.FLT_TP_BASE.BASE,
  Reg.FLT_TP_CTRL.EN,
  Reg.FLT_TP_CTRL.INTERVAL_TICKS,
  Reg.FLT_TP_CNT.RUNS,
  Reg.FLT_TP_CNT.MISMATCHES,
  Reg.FLT_TP_CNT.DISCARDED,
  Reg.FLT_CTX.CTX,
  Reg.FLT_CTX.TERM,
  Reg.FLT_CTX.CLEAR,
  Reg.FLT_SWREC.CAUSE,
  Reg.FLT_SWREC.LEVEL,
  Reg.FLT_SWREC.AUX,
  Reg.FLT_SWREC.GO,
  Reg.FLT_AV_FULL.COUNT,
  Reg.FLT_AV_SHORT.COUNT,
  Reg.FLT_AV_LOST.COUNT,
  Reg.FLT_AV_EXCL.COUNT,
  Reg.FLT_AV_LAST.TICK,
  Reg.FLT_AV_LAST.IN_SVC,
  Reg.FLT_AV_CAUSE.UNALIGNED,
  Reg.FLT_AV_CAUSE.OVERRUN,
  Reg.FLT_AV_CAUSE.ABORT,
  Reg.FLT_AV_CAUSE.LATE,
  Reg.FLT_OVF_REC.WORD,
  Reg.FLT_OVF_CLASS.COUNT,
  Reg.FLT_OVF_LEVEL.COUNT,
  Reg.TL_RPL.STATE,
  Reg.TL_RPL.LOG_USED,
  Reg.TL_RPL.TRANSIENTS,
  Reg.TL_RPL.CHECKER,
  Reg.PW_CTRL.UV_WARN_DV,
  Reg.PW_CTRL.DWELL_US,
  Reg.PW_CTRL.RECOVER_US,
  Reg.PW_CTRL.TJ_WARN_C,
  Reg.PW_STATUS.STEP,
  Reg.PW_STATUS.UV_STEP,
  Reg.PW_STATUS.CAP_STEP,
  Reg.PW_STATUS.COOL_STEP]

/-- A part of the list of all fields. -/
def fieldsPart9 : List Field := [
  Reg.PW_STATUS.UV_WARN,
  Reg.PW_STATUS.OPEN_PAIR,
  Reg.PW_STATUS.CAP_ACTIVE,
  Reg.PW_STATUS.COOL_WARN,
  Reg.PW_STATUS.THERM_WARN,
  Reg.PW_STATUS.CFG_ERR,
  Reg.PW_STATUS.CLAMPED,
  Reg.PW_STATUS.DIE_STEP,
  Reg.PW_CAP.EN,
  Reg.PW_CAP.LIMIT_W,
  Reg.PW_CAP.WIN_US,
  Reg.PW_INPUT.VA_MV,
  Reg.PW_INPUT.VB_MV,
  Reg.PW_INPUT.IA_CA,
  Reg.PW_INPUT.IB_CA,
  Reg.PW_POWER.INST_W,
  Reg.PW_POWER.AVG_W,
  Reg.PW_POWER.PEAK_W,
  Reg.PW_TEMP.CDIE_C,
  Reg.PW_TEMP.NDIE_C,
  Reg.PW_TEMP.HBM_C,
  Reg.PW_TEMP.INLET_C,
  Reg.PW_TEMP.FLOW,
  Reg.PW_EVT_CNT.UV_WARNS,
  Reg.PW_EVT_CNT.THROTTLES,
  Reg.PW_EVT_CNT.CAP_EVENTS,
  Reg.PW_EVT_CNT.THERM_WARNS,
  Reg.PW_CLK.REQ_MHZ,
  Reg.PW_CLK.BASE_MHZ,
  Reg.PW_CLK.CLAMPED,
  Reg.PW_RST_CMD.OP,
  Reg.PW_RST_CMD.FLUSH,
  Reg.PW_RST_CMD.TARGET,
  Reg.PW_RST_CMD.GO,
  Reg.PW_RST_AT.AT_TICK,
  Reg.PW_RST_STATUS.BUSY,
  Reg.PW_RST_STATUS.CFG_ERR,
  Reg.PW_RST_STATUS.SLEEPING,
  Reg.PW_RST_CAUSE.CAUSE,
  Reg.PW_RST_CAUSE.CONTEXT,
  Reg.PW_RST_CAUSE.LAST,
  Reg.PW_RST_TICK.TICK,
  Reg.PW_RST_CNT.MODULE,
  Reg.PW_RST_CNT.REGION,
  Reg.PW_RST_CNT.TILE,
  Reg.PW_RST_CNT.CONTEXT,
  Reg.PW_RST_REGION.RESET,
  Reg.PW_RST_REGION.LAST_TILE,
  Reg.LC_STATUS.RUN,
  Reg.LC_STATUS.STORE_DEGRADED,
  Reg.LC_STATUS.LOG_SEQ,
  Reg.LC_STATUS.LOG_WRAPS,
  Reg.LC_INV0.SERIAL,
  Reg.LC_INV1.MAC_BASE,
  Reg.LC_INV1.PART,
  Reg.LC_INV1.FUSE_ERASE,
  Reg.LC_INV1.FUSE_COSIGN,
  Reg.LC_LOG_SEL.INDEX,
  Reg.LC_LOG_DATA.WORD,
  Reg.LC_FW_CTRL.COMP]

/-- A part of the list of all fields. -/
def fieldsPart10 : List Field := [
  Reg.LC_FW_CTRL.OP,
  Reg.LC_FW_CTRL.GO,
  Reg.LC_FW_AT.AT_TICK,
  Reg.LC_FW_STATUS.ACTIVE,
  Reg.LC_FW_STATUS.PENDING,
  Reg.LC_FW_STATUS.SLOT_VALID,
  Reg.LC_FW_STATUS.CFG_ERR,
  Reg.LC_FW_STATUS.ACTIVATIONS,
  Reg.LC_FW_STATUS.REVERTS,
  Reg.LC_FW_READY.BRACKEN,
  Reg.LC_FW_READY.RT,
  Reg.LC_RT_IMAGE.BASE,
  Reg.LC_FW_VER.VER_A,
  Reg.LC_FW_VER.VER_B,
  Reg.SV_POLICY.P_LID_MESH,
  Reg.SV_POLICY.P_LID_REMOVE,
  Reg.SV_POLICY.P_VOLT,
  Reg.SV_POLICY.P_CLOCK,
  Reg.SV_POLICY.P_TEMP,
  Reg.SV_POLICY.P_TEST,
  Reg.SV_STATUS.ACTIVE,
  Reg.SV_STATUS.ID_KEY,
  Reg.SV_STATUS.LOCKED,
  Reg.SV_ALARM.LATCH,
  Reg.SV_ALARM.FIRST,
  Reg.SV_ALARM_TICK.TICK,
  Reg.SV_CNT.ALARMS,
  Reg.SV_CNT.LOCKS,
  Reg.SV_CNT.ERASES,
  Reg.SV_TEST.TRIGGER,
  Reg.SV_TEST.REATTEST,
  Reg.SN_CTRL.ARMED,
  Reg.SN_CTRL.SRC_EN,
  Reg.SN_FAULT.CLASS_MASK,
  Reg.SN_FAULT.MIN_SEV,
  Reg.SN_TRIG.GO,
  Reg.SN_AT.AT_TICK,
  Reg.SN_GRP_AT.AT_TICK,
  Reg.SN_GRP_CMD.TAG,
  Reg.SN_GRP_CMD.PEND,
  Reg.SN_GRP_CMD.GO,
  Reg.SN_STATUS.VALID,
  Reg.SN_STATUS.COPY_BUSY,
  Reg.SN_STATUS.PARTIAL,
  Reg.SN_STATUS.CFG_ERR,
  Reg.SN_STATUS.SOURCE,
  Reg.SN_TICK.TICK,
  Reg.SN_TIME.NS,
  Reg.SN_TIME.SEC,
  Reg.SN_INFO.ARG,
  Reg.SN_CNT.TRIGGERS,
  Reg.SN_CNT.MISSED,
  Reg.SN_RD_SEL.KIND,
  Reg.SN_RD_SEL.SITE,
  Reg.SN_RD_SEL.PRESENT,
  Reg.SN_RD_SEL.OFFSET,
  Reg.SN_RD_DATA.DATA,
  Reg.SN_TAP.EN,
  Reg.SN_BIST_CTRL.MODE,
  Reg.SN_BRINGUP.STAGE]

/-- A part of the list of all fields. -/
def fieldsPart11 : List Field := [
  Reg.SN_BRINGUP.MODE_RAN,
  Reg.SN_BRINGUP.SITES_DISABLED,
  Reg.SN_BRINGUP.TWILL_REPAIRS,
  Reg.SN_BRINGUP.PPR_REPAIRS,
  Reg.SN_BRINGUP.CH_MAPPED,
  Reg.SN_BRINGUP.PKG_MAPPED,
  Reg.SN_BRINGUP.DURATION_MS]

/-- Every field of every register block, in the order of the spec's tables. -/
def allFields : List Field :=
  fieldsPart0 ++ fieldsPart1 ++ fieldsPart2 ++ fieldsPart3 ++ fieldsPart4 ++ fieldsPart5 ++ fieldsPart6 ++ fieldsPart7 ++ fieldsPart8 ++ fieldsPart9 ++ fieldsPart10 ++ fieldsPart11

end Sys2Proof.Machine
end

