-- ==== Sys2Proof/Config.lean ====
section
/-! DEFINITION. Config.lean: what a part fixes and the free values: constants with no body, so that nothing can be
proved of the number behind one. -/

namespace Sys2Proof.Config

/-- The free values: what the spec leaves undefined after an instruction or an event that goes on.
The state's counter `free` picks a fresh one each time (assumption log 3). -/
opaque freeNat : Nat → Nat

/-- The free contents of an array whose content the spec calls undefined: the array's seed, then the index in it
(assumption log 3). -/
opaque freeAt : Nat → Nat → Nat

/-- A result the spec gives an accuracy bound for and no value: the function's number, then its operands
(assumption log 4). -/
opaque approx : Nat → List Nat → Nat

/-- How a controller splits the granule bits q[22:5] between DRAM row and column is internal to it (R368): the row of
a granule. -/
opaque dramRow : Nat → Nat

/-- The fitted part: false OLB-7612-LA, true OLB-7612-LH (R1, R2). -/
opaque partLH : Bool

/-- LC_INV0.SERIAL, fused. -/
opaque serial : Nat

/-- LC_INV1.MAC_BASE, fused. -/
opaque macBase : Nat

/-- LC_INV1.FUSE_ERASE, fused. -/
opaque fuseErase : Bool

/-- LC_INV1.FUSE_COSIGN, fused. -/
opaque fuseCosign : Bool

/-- SHA-384, which the spec names by its standard (R624, R626). -/
opaque sha384 : List (BitVec 8) → Nat

/-- The bytes of a firmware image: its component and its version. -/
opaque image : Nat → Nat → List (BitVec 8)

/-- How SV_POLICY and the fuse states are laid out for measurement 6 (R624), which the spec leaves open. -/
opaque policyBytes : Nat → Nat → List (BitVec 8)

/-- The straps SLOT_ID[5:0] of the module's slot (R623, R659). -/
opaque slotId : BitVec 6

/-- The version and the manufacturer's code of the IDCODE (R659). -/
opaque tapVersion : BitVec 4

/-- The manufacturer's code of the IDCODE (R659). -/
opaque tapMfr : BitVec 11

/-- The part's maximum tile clock in MHz (R2). -/
def maxMhz : Nat := if partLH then 1700 else 1850

/-- The part's power limit in watts (R2). -/
def maxWatts : Nat := if partLH then 2500 else 2800

/-- The part's maximum coolant inlet temperature in °C (R2). -/
def maxInlet : Nat := if partLH then 50 else 40

end Sys2Proof.Config
end

