-- ==== Sys2Proof/Machine/SMap.lean ====
section
/-! DEFINITION. Machine/SMap.lean: sparse data in one canonical form: a list of key and value pairs whose keys rise
strictly and none of whose values is what an unlisted key reads as. -/

namespace Sys2Proof.Machine

/-- A sparse map from numbers to values. What an unlisted key reads as is given at each use. -/
abbrev SMap (α : Type) := List (Nat × α)

/-- The value at key `k`; `d` is what an unlisted key reads as. -/
def SMap.get {α : Type} (d : α) : SMap α → Nat → α
  | [], _ => d
  | (j, v) :: m, k => if j = k then v else SMap.get d m k

/-- Remove every entry of key `k`. -/
def SMap.erase {α : Type} : SMap α → Nat → SMap α
  | [], _ => []
  | (j, v) :: m, k => if j = k then SMap.erase m k else (j, v) :: SMap.erase m k

/-- Put an entry where its key belongs in rising order. -/
def SMap.insert {α : Type} (k : Nat) (v : α) : SMap α → SMap α
  | [] => [(k, v)]
  | (j, w) :: m => if k < j then (k, v) :: (j, w) :: m else (j, w) :: SMap.insert k v m

/-- Write `v` at key `k`: the entry goes in order, and no entry is kept where `v` is what the key reads as unlisted. -/
def SMap.set {α : Type} [DecidableEq α] (d : α) (m : SMap α) (k : Nat) (v : α) : SMap α :=
  if v = d then SMap.erase m k else SMap.insert k v (SMap.erase m k)

/-- Keys rise strictly from above `lo`. -/
def SMap.rising {α : Type} : Option Nat → SMap α → Bool
  | _, [] => true
  | lo, (j, _) :: m =>
    (match lo with
     | none => true
     | some l => decide (l < j)) && SMap.rising (some j) m

/-- The canonical form for a map whose unlisted key `k` reads as `d k`. -/
def SMap.wf {α : Type} [DecidableEq α] (d : Nat → α) (m : SMap α) : Bool :=
  SMap.rising none m && m.all (fun c => decide (c.2 ≠ d c.1))

/-- A set of numbers as a strictly rising list. -/
abbrev NSet := List Nat

/-- Membership. -/
def NSet.mem (s : NSet) (k : Nat) : Bool := s.any (· == k)

/-- Remove `k`. -/
def NSet.del (s : NSet) (k : Nat) : NSet := s.filter (· != k)

/-- Add `k` in order. -/
def NSet.add : NSet → Nat → NSet
  | [], k => [k]
  | j :: s, k => if k < j then k :: j :: s else if k = j then j :: s else j :: NSet.add s k

/-- An array of values: what was written, and a seed. Seed 0: an unwritten index reads as 0.
Seed n ≠ 0: the content is undefined (R84) and an unwritten index reads as a free value. -/
structure Arr where
  seed : Nat
  cells : SMap Nat
  deriving DecidableEq, Repr

/-- The value of `w` bits at index `k`. -/
def Arr.get (a : Arr) (w k : Nat) : Nat :=
  SMap.get (if a.seed = 0 then 0 else Config.freeAt a.seed k % 2 ^ w) a.cells k

/-- Write index `k`. -/
def Arr.set (a : Arr) (w k v : Nat) : Arr :=
  { a with cells := SMap.set (if a.seed = 0 then 0 else Config.freeAt a.seed k % 2 ^ w) a.cells k (v % 2 ^ w) }

/-- An array that reads as 0. -/
def Arr.zero : Arr := ⟨0, []⟩

/-- An array whose content is undefined from now on. -/
def Arr.undef (seed : Nat) : Arr := ⟨seed, []⟩

end Sys2Proof.Machine
end

