-- ==== Sys2Proof/Machine/TypesMoss.lean ====
section
/-! DEFINITION. Machine/TypesMoss.lean: the parts of the state that the Moss issue units and engines and the merge
buffers hold beside their registers (R292 to R363). -/

namespace Sys2Proof.Machine

/-- A part of a bag as the issue unit tracks it (R307, R315). `node` is the owner node, 1024 for the part whose owner
map entries are invalid. `rows` are the entries' places in the bag. `st` is its PSTATUS once complete, 7 for TIMEOUT. -/
structure MssPart where
  tag : Nat
  node : Nat
  rows : List Nat
  remote : Bool
  sent : Bool
  st : Option Nat
  data : MBytes
  deriving DecidableEq, Repr

/-- A bag in flight (R308): its instruction, the offset of its bag item, the directory entry it was split with. -/
structure MssBag where
  ins : Nat
  item : Nat
  ent : List Nat
  raw : Bool
  mode : Nat
  i0 : Nat
  i1 : Nat
  parts : List MssPart
  deriving DecidableEq, Repr

/-- An update group in flight (R355): its contributions in row-group order, by SEQ, with their USTATUS. -/
structure MssGroup where
  ins : Nat
  item : Nat
  contribs : List (Nat × Option Nat)
  deriving DecidableEq, Repr

/-- A remote-bag or update message being packed (R318, R353). `kind`: 0 bag parts, 1 raw fetch parts, 2 updates. -/
structure MssPack where
  ins : Nat
  node : Nat
  tick : Nat
  kind : Nat
  n : Nat
  body : MBytes
  tags : List Nat
  deriving DecidableEq, Repr

/-- The issue unit of a tile (R308). `read` is how far each instruction's block has been read, `slot` its INSTR number,
`logAt` its place in the effect log plus one (R550), `seq` the contributions the step has formed (R352). -/
structure MssUnit where
  bags : List MssBag
  groups : List MssGroup
  packs : List MssPack
  read : SMap Nat
  slot : List (Nat × Nat)
  logAt : SMap Nat
  /-- The table whose directory entry issue waits for. -/
  miss : Option Nat
  cache : List (Nat × List Nat)
  seq : Nat
  deriving DecidableEq, Repr

/-- An issue unit that holds nothing. -/
def MssUnit.empty : MssUnit :=
  { bags := [], groups := [], packs := [], read := [], slot := [], logAt := [], miss := none, cache := [], seq := 0 }

/-- A step that stops or ends leaves nothing in flight; cached directory entries stay. -/
def MssUnit.stop (u : MssUnit) : MssUnit := { MssUnit.empty with cache := u.cache, seq := u.seq }

/-- How the read of one row of a part stands (R342): reads made, decided or not, the finding (0 passed, 1 poisoned,
2 the rule failed, 3 tag mismatch), the decoded row as FP32 codes. -/
structure RowRead where
  tries : Nat
  done : Bool
  find : Nat
  vals : List Nat
  deriving DecidableEq, Repr

/-- A part at a Moss engine (R292, R296): waiting until its reads stand. `owner` asks for the owner's checks at
acceptance (a local part of a sharded table). `from_` is the node and the message header of a part of another module,
none for a part of logical tile `l`; `port` is the physical port that such a part arrived on, in whose reorder store it
waits (R493). -/
structure MPart where
  eng : Nat
  l : Nat
  tag : Nat
  from_ : Option (Nat × Nat × List Nat)
  owner : Bool
  tick : Nat
  ctx : Nat
  table : Nat
  mode : Nat
  ent : List Nat
  rows : List (Nat × Nat)
  reads : List RowRead
  port : Option Nat := none
  deriving DecidableEq, Repr

/-- A return item on its way over the mesh to an issue unit (R315, R321). -/
structure MRet where
  l : Nat
  tag : Nat
  st : Nat
  rows : Nat
  data : MBytes
  deriving DecidableEq, Repr

/-- An accepted contribution (R352): its key, and its FP32 elements. -/
structure Contrib where
  node : Nat
  l : Nat
  seq : Nat
  vals : List Nat
  pois : Bool
  deriving DecidableEq, Repr

/-- An entry of a merge buffer (R356). -/
structure MEntry where
  eng : Nat
  table : Nat
  row : Nat
  window : Nat
  ent : List Nat
  contribs : List Contrib
  /-- The last pass left it waiting on a grace. -/
  deferred : Bool
  deriving DecidableEq, Repr

/-- What the Moss engines hold beside their registers. -/
structure Moss where
  nextTag : Nat
  waiting : List MPart
  active : List MPart
  rets : List MRet
  merge : List MEntry
  /-- Flip tick plus one of each record an engine flipped, by local offset (R346). -/
  flips : SMap Nat
  /-- Tick plus one whose apply pass each engine has begun: the window before it is closed (R354). -/
  passAt : SMap Nat
  deriving DecidableEq, Repr

/-- Moss engines that hold nothing. -/
def Moss.empty : Moss :=
  { nextTag := 0, waiting := [], active := [], rets := [], merge := [], flips := [], passAt := [] }

end Sys2Proof.Machine
end

