-- ==== Sys2Proof/Machine/Types.lean ====
section
/-! DEFINITION. Machine/Types.lean: the parts of the state that the tick, the tiles, memory, translation, Bracken and
the fault collector hold beside their registers. -/

namespace Sys2Proof.Machine

/-- A fault record on its way to the collector (R566), without the SEQ and TICK the collector gives it. -/
structure FaultRec where
  cls : Nat
  cause : Nat
  level : Nat
  severity : Nat := 0
  ctx : Option Nat := none
  unit : Nat := 0
  site : Nat := 0
  /-- The remote node concerned, or none: this node. -/
  node : Option Nat := none
  addr : Nat := 0
  cmdTag : Nat := 0
  aux0 : Nat := 0
  aux1 : Nat := 0
  aux2 : Nat := 0
  deriving DecidableEq, Repr

/-- A 128-bit word and how far its stored code lies from the correct code (R377): 0 a valid code, 0xFFFF poison. -/
structure Cw where
  data : Nat
  dev : Nat
  deriving DecidableEq, Repr

/-- Memory: the bytes that differ from what an unlisted byte reads as, the code deviations of 128-bit words, and the
seeds of the parts whose content is undefined. -/
structure Mem where
  cells : List Host.Cell
  dev : SMap Nat
  seeds : SMap Nat
  deriving DecidableEq, Repr

/-- State of a line in a region cache (R386, R391). -/
inductive LineSt where
  | shared | modified | locked
  deriving DecidableEq, Repr

/-- A line a region cache holds: its region, line index (the tag), way, state, eight 128-bit words and the copy of the
granule's context tag (R419). -/
structure RcLine where
  region : Nat
  line : Nat
  way : Nat
  st : LineSt
  words : List Cw
  tag : Nat
  /-- Its tag and state do not match their parity bit (R390). -/
  bad : Bool
  deriving DecidableEq, Repr

/-- A snoop filter entry (R386): the line, the regions that may hold it, the one that holds it modified. -/
structure SfEntry where
  line : Nat
  regions : NSet
  owner : Option Nat
  deriving DecidableEq, Repr

/-- A region cache miss whose line is on its way (R389). -/
structure RcMiss where
  region : Nat
  line : Nat
  port : Nat
  write : Bool
  off : Nat
  data : MBytes
  ctx : Nat
  deriving DecidableEq, Repr

/-- A preload in progress (R392). -/
structure RcPre where
  region : Nat
  way : Nat
  line : Nat
  count : Nat
  deriving DecidableEq, Repr

/-- A translation held by a TLB (R412). `page` is the page size in bits: 12, 21 or 30. -/
structure TlbE where
  ctx : Nat
  vpn : Nat
  page : Nat
  ppn : Nat
  r : Bool
  w : Bool
  nc : Bool
  dirty : Bool
  deriving DecidableEq, Repr

/-- A non-leaf entry in the walk cache (R411): context, level, index prefix, table offset. -/
structure WalkE where
  ctx : Nat
  level : Nat
  prefix_ : Nat
  table : Nat
  deriving DecidableEq, Repr

/-- A cached context-table entry (R406). -/
structure CtxE where
  ctx : Nat
  valid : Bool
  remoteEn : Bool
  root : Nat
  deriving DecidableEq, Repr

/-- A window of the ingress window table (R426) as a cache of an N-die holds it. -/
structure WinE where
  die : Nat
  index : Nat
  rd : Bool
  wr : Bool
  atom : Bool
  phys : Bool
  ctx : Nat
  pd : Nat
  keychk : Nat
  start : Nat
  length : Nat
  vaBase : Nat
  deriving DecidableEq, Repr

/-- A removed translation under which accesses must drain (R416): the site (576: the translation unit's own users), the
context, the virtual page and its size, and the number that Damask messages issued later carry at least. -/
structure DrainR where
  site : Nat
  ctx : Nat
  ent : Nat × Nat
  uid : Nat
  deriving DecidableEq, Repr

/-- An invalidation in progress (R417): what it removes, the sites it has not reached, the sites that have not yet
reported, and what must drain. -/
structure Inval where
  scope : Nat
  ctx : Nat
  va : Nat
  pages : Nat
  toArrive : NSet
  toReport : NSet
  drains : List DrainR
  deriving DecidableEq, Repr

/-- A step descriptor (R28). -/
structure StepDesc where
  entry : Nat
  ctx : Nat
  slot : Nat
  soft : Bool
  swap : Bool
  pack : Bool
  index : Nat
  budget : Nat
  cmdTag : Nat
  argsVa : Nat
  rows : Nat
  deadlineLo : Nat
  deriving DecidableEq, Repr

/-- A plan bank of a tile (R26, R27), with the seeds read for its steps (R256): per step the program's seed value and
whether its read failed. -/
structure PlanBank where
  tick : Nat
  complete : Bool
  steps : List StepDesc
  seeds : List (Nat × Nat)
  seedBad : NSet
  deriving DecidableEq, Repr

/-- A step of a list: its descriptor, the tick of its list, and whether it has spilled (R37). -/
structure StepRun where
  d : StepDesc
  tick : Nat
  spilled : Bool
  /-- The seed of a spilled step, which its old bank held: the value, and the exception its read left (R256, R257). -/
  seed : Option (Nat × Nat)
  /-- Stochastic rounding is nearest-even in its list (R253): FORCE_RNE as the list's boundary found it. -/
  rne : Bool
  deriving DecidableEq, Repr

/-- The operations a tile's engines 1 to 5 execute. -/
inductive EngOp where
  | semSig | semWait | semSub | semSet | semRd | wtMem
  | dmaCp | dmaFill | dmaCmpl
  | twlMm | twlLd | twlLdm
  | frdEw | frdChn | frdCvt | frdRed | frdTopk | frdPerm | frdShf | frdPack | frdUnpk
  | mssBag | mssRaw | mssUpd
  deriving DecidableEq, Repr

/-- An instruction in an engine's queue or in flight, with the operand values read at dispatch (R92). -/
structure EngIns where
  /-- Unique within the site. -/
  id : Nat
  eng : Nat
  op : EngOp
  t : FmtT
  pc : Nat
  /-- Descriptors DA, DB, DC. -/
  d : List Nat
  /-- The scale descriptors that follow DA, DB, DC (R101). -/
  dx : List Nat
  /-- Scalar operands read at dispatch. -/
  s : List Nat
  /-- Destination scalar register of an engine that writes one, 0 for none. -/
  sd : Nat
  /-- Its semaphore consumption has been granted (R104). -/
  granted : Bool
  /-- Started, and its last result has been written (R102): it may complete. -/
  done : Bool
  deriving DecidableEq, Repr

/-- A scalar or descriptor load, or an atomic, whose value is on its way to the sequencer (R142). -/
structure PendLoad where
  kind : Nat
  dst : Nat
  value : Nat
  poison : Bool
  exc : Nat
  va : Nat
  signed : Bool
  width : Nat
  ready : Bool
  deriving DecidableEq, Repr

/-- A semaphore signal on its way over the mesh (R102, R155), with the step context of the step that sent it (R87). -/
structure Sig where
  src : Nat
  dst : Nat
  sem : Nat
  amount : Nat
  ctx : Nat
  deriving DecidableEq, Repr

/-- Where a signal or a subtraction came from, as TL_EXC_ADDR gives it (R126): the sending tile, the kind (0 an
instruction of this tile, 1 another tile, 2 a register write, 3 an SE completion), the engine, the instruction's index. -/
structure SemSrc where
  tile : Nat
  kind : Nat
  eng : Nat
  pc : Option Nat
  deriving DecidableEq, Repr

/-- A signal that has arrived in the cycle of the next update of its semaphore (R104). -/
structure SemNow where
  sem : Nat
  amount : Nat
  src : SemSrc
  deriving DecidableEq, Repr

/-- Who issued an access of a step: the site, the step (CMD_TAG, tick and index), the engine, the instruction's index and
the address (R124, R490). -/
structure Issuer where
  site : Nat
  tag : Nat
  tick : Nat
  index : Nat
  eng : Nat
  pc : Nat
  va : Nat
  deriving DecidableEq, Repr

/-- What a Frond instruction rounds with: nearest-even, or the seed of the step, or the exception the seed's read left
(R253, R256, R257). -/
inductive FrRnd where
  | ne
  | bad (exc : Nat)
  | seed (v : Nat)
  deriving DecidableEq, Repr

/-- A DMA or Frond instruction that works chunk by chunk (R161, R269): the instruction, how many of its chunks are written,
how many it has; for a Frond instruction its number q, what it rounds with, the words of its chain record, the elements of
its SIZE0 = 1 inputs for the pass over dimension 0 (input, element, scale code) and the codes of its affine row with the
row's scale and offset; the context, tick, index and CMD_TAG of its step; whether that step has ended (R38). -/
structure ChunkRun where
  ins : EngIns
  next : Nat
  total : Nat
  q : Nat
  rnd : FrRnd
  chain : List Nat
  ones : List (Nat × (Nat × Bool) × Nat)
  codes : List Nat
  row : Nat × Nat
  ctx : Nat
  tick : Nat
  index : Nat
  tag : Nat
  dead : Bool
  deriving DecidableEq, Repr

/-- The memory-value wait that runs (R111): address, comparison, threshold, mask, width, destination, timeout, the last
value read and whether a read is outstanding. -/
structure WaitRun where
  va : Nat
  cmp : Nat
  thr : Nat
  mask : Nat
  wide : Bool
  sd : Nat
  timeout : Nat
  last : Option Nat
  reading : Bool
  pc : Nat
  /-- Its local offset, none at another node. -/
  off : Option Nat
  /-- The TAG of its read at another node. -/
  tag : Nat
  /-- The translation its read was issued under, and the Damask engine's message number then (R416). -/
  ent : Option (Nat × Nat)
  since : Nat
  deriving DecidableEq, Repr

/-- One weight plane of the Twill array with its attributes (R223). The row residues of R231 are a function of `w`. -/
structure Plane where
  valid : Bool
  pois : Bool
  /-- Loads in progress on it; a second one before the first has ended marks an overlap (R176). -/
  loading : Nat
  /-- The last load came by multicast. -/
  multi : Bool
  overlap : Bool
  /-- Invalid for replay (R548). -/
  replayBad : Bool
  fmt : Nat
  signed : Bool
  mx : Bool
  /-- Weight code of (k, n) at k × 64 + n. -/
  w : Arr
  /-- E8M0 code of block b of column n at b × 64 + n. -/
  scales : Arr
  deriving DecidableEq, Repr

/-- A Twill pass in the array (R206, R216): its block sums as 32-bit words, at (r × 64 + n) × nb + b, and the E8M0 codes
of activation and weight blocks. -/
structure PassRun where
  ins : EngIns
  no : Nat
  rows : Nat
  int : Bool
  mx : Bool
  nb : Nat
  sums : List Nat
  ea : List Nat
  ew : List Nat
  /-- The residue check covers it (R231). -/
  check : Bool
  ctx : Nat
  tick : Nat
  tag : Nat
  /-- The step's place in its list. -/
  index : Nat
  /-- Its step has ended by abort, exception or stop: its results are discarded (R38, R234). -/
  dead : Bool
  /-- For a pass whose step has ended: the tile registers as they stood then, and what the pass rounds with (R264). -/
  old : Arr
  rnd : FrRnd
  deriving DecidableEq, Repr

/-- A quad multicast on its way to one logical tile (R172): rows arrive in order. -/
structure Mcast where
  /-- The instruction at the source. -/
  id : Nat
  srcSite : Nat
  srcTile : Nat
  l : Nat
  /-- The instruction's index at the source. -/
  pc : Nat
  rsem : Nat
  rse : Bool
  fmt : Nat
  signed : Bool
  mx : Bool
  pois : Bool
  w : Arr
  scales : Arr
  rows : Nat
  /-- The receiver's step has ended while its rows arrived (R38): the rows that are left change nothing. -/
  cut : Bool
  deriving DecidableEq, Repr

/-- A sampled float pass whose operands a spare site holds (R555, R556). -/
structure Sample where
  spare : Nat
  site : Nat
  l : Nat
  tick : Nat
  pass : Nat
  ctx : Nat
  cmdTag : Nat
  /-- The last tick for its referee run, once one is pending. -/
  due : Option Nat
  deriving DecidableEq, Repr

/-- One logged effect of a step (R550): its kind (0 atomic, 1 `sem.sig`, 2 `dma.cmpl`, 3 `mss.upd`) and the values it
returned (an atomic's old value, the statuses of an update's groups). -/
structure Effect where
  kind : Nat
  vals : List Nat
  deriving DecidableEq, Repr

/-- What a tile copies at step start so that the step can be replayed (R548). -/
structure StartCopy where
  sreg : Arr
  dreg : Arr
  sems : List Nat
  planeSel : Nat
  deriving DecidableEq, Repr

/-- A replay of a step (R547 to R551): the pass that mismatched and its digest, the outcome decided so far
(0 none, 1 TRANSIENT, 2 CHECKER), and whether it has started. -/
structure Replay where
  pass : Nat
  digest : Nat
  /-- TW_RES_STATUS as it stands for the mismatch (R566). -/
  img : Nat
  outcome : Nat
  started : Bool
  deriving DecidableEq, Repr

/-- State a tile site holds beside its registers. The program counter and the step context are TL_STATUS.PC and CTX,
the semaphore counts TL_SEM.COUNT, the page states TL_IMEM_PAGE. -/
structure Site where
  sreg : Arr
  dreg : Arr
  /-- Tile registers: word index t × 4096 + r × 64 + c (R88). -/
  treg : Arr
  /-- Words of tile registers that carry the poison mark (R88). -/
  tpois : NSet
  /-- Tile registers written by the running step (R549). -/
  twritten : NSet
  /-- Instruction memory, 8,192 words of 64 bits (R84). -/
  imem : SMap Nat
  bank0 : PlanBank
  bank1 : PlanBank
  run : Option StepRun
  todo : List StepRun
  /-- An abort, an exception or a stop drains (R38). -/
  draining : Bool
  queue : List EngIns
  flight : List EngIns
  pend : Option PendLoad
  wait : Option WaitRun
  /-- Scalar registers an engine has yet to write (R92). -/
  pendReg : NSet
  ending : Bool
  plane0 : Plane
  plane1 : Plane
  planeSel : Nat
  /-- Planes the running step has written into (R548). -/
  planeWr : NSet
  /-- The step-start swap waits for a load (R224). -/
  swapWait : Bool
  /-- Steps that count as overrun at the next boundary though the site gave them up (R552). -/
  overAdd : Nat
  passes : List PassRun
  /-- DMA and Frond instructions that have chunks left (R161, R269). -/
  runs : List ChunkRun
  /-- What a chunk that waits for another node has read: virtual address and bytes. -/
  far : List (Nat × MBytes)
  /-- Signals of the cycle of the next update of their semaphore (R104). -/
  semNow : List SemNow
  /-- Local reads of memory-value waits that have timed out, on their way (R112, R115): context, offset, length. -/
  waitOld : List (Nat × Nat × Nat)
  /-- Passes and Frond instructions started in the running step (R218, R255). -/
  passNo : Nat
  frondQ : Nat
  /-- The next instruction's number. -/
  nextId : Nat
  start : Option StartCopy
  log : List Effect
  logAt : Nat
  fromOut : SMap Nat
  replay : Option Replay
  /-- No replay of the running step is possible (R549): it read a tile register before writing it, or performed more
  effects than the log holds. -/
  noReplay : Bool
  tlb : List TlbE
  /-- A retirement copy into this site runs; mesh requests are held (R62). -/
  copying : Bool
  /-- Last run of a test pack, and whether the next is a rerun (R563, R564). -/
  packLast : Option Nat
  packRerun : Bool
  /-- The step is stopped by a residue mismatch and its replay has not started (R547). -/
  stopped : Bool
  /-- The fetch has run past index 8,191 (R96). -/
  pcOver : Bool
  mss : MssUnit
  deriving DecidableEq, Repr

/-- A pending segment of candidate rows (R457). -/
structure Seg where
  tag : Nat
  slot : Nat
  key : Nat
  prog : Nat
  va : Nat
  first : Nat
  rows : Nat
  deadline : Nat
  ingest : Nat
  /-- The batch it must be placed in whole and again on its logical tile (R39): tile, tick and index of the old step. -/
  pin : Option (Nat × Nat × Nat) := none
  deriving DecidableEq, Repr

/-- No segment. -/
def Seg.empty : Seg :=
  { tag := 0, slot := 0, key := 0, prog := 0, va := 0, first := 0, rows := 0, deadline := 0, ingest := 0 }

/-- A step that waits for a plan (R459). -/
structure PStep where
  tag : Nat
  prog : Nat
  va : Nat
  last : Bool
  tile : Option Nat
  deriving DecidableEq, Repr

/-- A step or batch placed in a plan: the commands that own it, its logical tile and tick, its place in the list. -/
structure Placed where
  tags : List Nat
  l : Nat
  tick : Nat
  index : Nat
  prog : Nat
  segs : List Seg
  last : Bool
  va : Nat
  /-- Its batch argument block (R458), where it has segments. -/
  block : Nat
  deriving DecidableEq, Repr

/-- A command in flight (R436). -/
structure Cmd where
  tag : Nat
  queue : Nat
  slot : Nat
  qctx : Nat
  index : Nat
  user : Nat
  typ : Nat
  prog : Nat
  nsteps : Nat
  args : Nat
  complVa : Nat
  inc : Bool
  incVa : Nat
  incVal : Nat
  ingest : Nat
  deadline : Nat
  closed : Bool
  /-- Bracken has formed its completion record (R465). -/
  done : Bool
  /-- A completion record has been issued (R33). -/
  issued : Bool
  /-- Handoff ring and the slot of it in use (R450). -/
  hand : Option (Nat × Nat)
  route : Bool
  qpn : Nat
  rkey : Nat
  /-- The tile of its last batch step (R459). -/
  lastTile : Option Nat
  /-- A write of one of its steps was abandoned (R505). -/
  lost : Bool
  deriving DecidableEq, Repr

/-- A completion record to be written, or an increment to be performed (R464). `src` is the site whose `dma.cmpl` it
is, none for one that Bracken writes. -/
structure CRec where
  cmd : Cmd
  status : Nat
  w2 : Nat
  w3 : Nat
  late : Bool
  src : Option Nat
  /-- 0: the record is to be sent; 1: sent, not yet complete for release; 2: the increment may be performed;
  3: the increment is out. -/
  phase : Nat
  /-- Messages of its source with a lower number are earlier ones (R505); `bad`: one of them was abandoned. -/
  uid : Nat
  bad : Bool
  /-- Poison marks of its two 128-bit words (R161, R164). -/
  pois0 : Bool
  pois1 : Bool
  deriving DecidableEq, Repr

/-- A watch entry (R448). -/
structure Watch where
  queue : Nat
  va : Nat
  pa : Option Nat
  remote : Bool
  cmp : Nat
  thr : Nat
  mask : Nat
  wide : Bool
  reading : Bool
  /-- Boundaries since the first read was made (R449), none before it. -/
  ticks : Option Nat
  /-- The entry that waits. -/
  ent : List Nat
  deriving DecidableEq, Repr

/-- A software queue that is or was enabled: the entry's words as read at ENABLE (R438) and its state (R439). -/
structure Queue where
  q : Nat
  w0 : Nat
  ringVa : Nat
  consVa : Nat
  w3 : Nat
  st : Nat
  cause : Nat
  dbPend : Bool
  cons : Nat
  prodSeen : Nat
  faultRun : Nat
  /-- 0: no read is out; 1: an entry read; 2: a doorbell-word read; 3: the re-read of a stale entry is due (R446). -/
  rd : Nat
  tries : Nat
  /-- CONS has changed since it was last written to CONS_VA (R447). -/
  pub : Bool
  deriving DecidableEq, Repr

/-- A page load in progress (R121). -/
structure PageLoad where
  l : Nat
  page : Nat
  prog : Nat
  image : Nat
  deriving DecidableEq, Repr

/-- A seed read issued when a list header became COMPLETE (R256): site, tick of the list, step, context, local offset. -/
structure SeedRead where
  site : Nat
  tick : Nat
  index : Nat
  ctx : Nat
  off : Nat
  deriving DecidableEq, Repr

/-- What Bracken holds beside its registers. -/
structure Bracken where
  gens : SMap Nat
  cmds : List Cmd
  queues : List Queue
  watches : List Watch
  segs : List Seg
  steps : List PStep
  placed : List Placed
  recs : List CRec
  /-- Batch argument blocks not to be reused before a tick (R458). -/
  blocks : SMap Nat
  loads : List PageLoad
  seedReads : List SeedRead
  /-- Records written to the handoff ring of each control core. -/
  handProd : SMap Nat
  /-- Program and page of the image in instruction memory page `l` × 16 + `page`: 1 + PROG_ID × 16 + image page. -/
  resident : SMap Nat
  closedTick : Nat
  /-- Steps ended and not yet released (R505): tag, site. -/
  unreleased : List (Nat × Nat)
  /-- Ticks whose plan close fell while ENABLE was 0 (R31). -/
  off : NSet
  deriving DecidableEq, Repr

/-- Facts of the current tick that classify it when it ends (R51, R664). -/
structure TickFacts where
  /-- The tick began at a boundary the module generated. -/
  begun : Bool
  /-- IN_SERVICE at the boundary that began it. -/
  inSvc : Bool
  unaligned : Bool
  overrun : Bool
  abort : Bool
  late : Bool
  deriving DecidableEq, Repr

/-- What the tick holds beside its registers. -/
structure TickSt where
  facts : TickFacts
  /-- ENABLE was written 0: boundaries stop at the next one (R47). -/
  stopping : Bool
  /-- Boundaries since the reference was lost. -/
  holdover : Nat
  /-- The module-fatal stop of R571. -/
  fatal : Bool
  /-- The reference is present. -/
  reference : Bool
  /-- The epoch in force: EPOCH_NS and EPOCH_TICK as boundary generation uses them (R21). -/
  epNs : Nat
  epTick : Nat
  /-- The module clock was stepped since the last boundary (R508), so TK_LAST_BOUNDARY does not tell where the next one
  would fall. -/
  stepped : Bool
  deriving DecidableEq, Repr

/-- A tile reset, region reset, sleep or wake that was accepted (R604): PW_RST_CMD's fields, and whether it has begun. -/
structure RstRun where
  op : Nat
  target : Nat
  flush : Bool
  at_ : Nat
  begun : Bool
  deriving DecidableEq, Repr

/-- What this module knows of a member of its group (R525, R532): the tick of its last heartbeat, the heartbeats missed
in a row, the last digest tick it reported. -/
structure Member where
  node : Nat
  last : Nat
  misses : Nat
  digest : Nat
  /-- The heartbeat tick last counted as missed, and the digest tick last counted as late, plus one. -/
  missedAt : Nat
  lateAt : Nat
  deriving DecidableEq, Repr

/-- What the group block holds beside its registers. -/
structure GrpSt where
  members : List Member
  /-- Latch tick and latch of the interval before (R532). -/
  prevTick : Nat
  prevLatch : Nat
  /-- Tick of the digest pass that runs (R539). -/
  pass : Option Nat
  /-- PLACEMENT messages not yet acknowledged (R536). -/
  omapOut : NSet
  /-- Tick at which the pending owner map entries move; none while nothing awaits a boundary. -/
  omapAt : Option Nat
  /-- Manager: requests waiting and operations granted (R541): node, KIND, ARG. -/
  maintQ : List (Nat × Nat × Nat)
  maintOn : List (Nat × Nat × Nat)
  deriving DecidableEq, Repr

/-- A retirement accepted and not yet ended (R61). -/
structure Retire where
  region : Nat
  l : Nat
  newSite : Option Nat
  oldSite : Nat
  cause : Nat
  at_ : Nat
  hardware : Bool
  copying : Bool
  deriving DecidableEq, Repr

end Sys2Proof.Machine
end

