-- ==== Sys2Proof/Machine/TypesNet.lean ====
section
/-! DEFINITION. Machine/TypesNet.lean: the parts of the state that the ports, the RoCEv2 engine, the Damask transport and
the clock service hold beside their registers. -/

namespace Sys2Proof.Machine

/-- What waits for the answer to a Damask READ or ATOMIC (R490). -/
inductive Waiter where
  /-- A scalar or descriptor load, or an atomic, of the tile at a site. -/
  | load (p : Nat)
  /-- An engine of the tile at a site: it reads the bytes at a virtual address. -/
  | engine (p va : Nat)
  /-- Bracken. -/
  | bracken
  /-- A control core, for its access at a physical address. -/
  | core (h pa : Nat)
  /-- The memory-value wait of the tile at a site. -/
  | wait (p : Nat)
  /-- The watch of a queue. -/
  | watch (q : Nat)
  deriving DecidableEq, Repr

/-- A Damask message a sender holds until it is acknowledged (R495). `uid` names it within the module. -/
structure DmMsg where
  uid : Nat
  seq : Nat
  type : Nat
  rel : Nat
  ctx : Nat
  off : Nat
  args : List Nat
  data : MBytes
  src : Nat
  /-- The step that issued it. -/
  owner : Option Issuer
  /-- The command whose completion record or increment it carries. -/
  record : Option Nat
  sends : Nat
  port : Nat
  /-- The translation it was issued under: virtual page and page size (R416). -/
  ent : Option (Nat × Nat)
  deriving DecidableEq, Repr

/-- A send path (R491, R492). -/
structure SendPath where
  id : Nat
  node : Nat
  cls : Nat
  key : Nat
  next : Nat
  cwnd : Nat
  /-- Messages acknowledged since the window last changed, and since it was last halved (R497). -/
  grown : Nat
  halved : Nat
  /-- Unacknowledged messages in order of SEQ. -/
  unacked : List DmMsg
  /-- Messages beyond the window. -/
  queue : List DmMsg
  /-- The latest acknowledged writes of steps, which a WRITE_ERR may still name (R490): SEQ and issuer. -/
  acked : List (Nat × Issuer)
  closing : Bool
  deriving DecidableEq, Repr

/-- A message a receiver holds (R493). -/
structure RxMsg where
  seq : Nat
  type : Nat
  rel : Nat
  ctx : Nat
  off : Nat
  args : List Nat
  data : MBytes
  bulk : Bool
  /-- The physical port it arrived on. -/
  at_ : Nat
  deriving DecidableEq, Repr

/-- A receive path (R492 to R494). `got` are the SEQs above CUM received, `perf` those of them performed. -/
structure RecvPath where
  node : Nat
  path : Nat
  cum : Nat
  got : NSet
  perf : NSet
  held : List RxMsg
  /-- The sub-port of the message that arrived last. -/
  port : Nat
  /-- CUM or SACK has changed since the last ACK. -/
  dirty : Bool
  ece : Bool
  full : Bool
  deriving DecidableEq, Repr

/-- A write or atomic with global release that its source holds (R502), or the record of a command: the messages it
waits for, the 56-bit address and what is to be done. `kind`: 0 write, 1 fetch-and-add, 2 compare-and-swap, 3 the answer to
a control core's FENCE (R503), 4 a read behind a held write of its line (R501). -/
structure RelHold where
  /-- Its place among the messages of its source (R499). -/
  uid : Nat
  src : Nat
  /-- The context it is checked under at its memory, and the one its release is bounded by (R502). -/
  ctx : Nat
  under : Nat
  waits : NSet
  bad : Bool
  pa : Nat
  kind : Nat
  width : Nat
  data : MBytes
  cmpv : Nat
  cls : Nat
  owner : Option Issuer
  site : Option Nat
  /-- The words it writes with their codes, where it moves whole words unchanged (R161). -/
  codes : List Cw := []
  ent : Option (Nat × Nat) := none
  deriving DecidableEq, Repr

/-- A request to a logical tile that a retirement copy or a reset holds (R62, R605): a write to its local store, a write of
a register of its window, a signal with its kind (R126), a request of a master of this module, a tile's own load or atomic, a
message of a receive path. `since`: the Damask engine's message number at its arrival. -/
inductive HeldReq where
  | store (ctx since off : Nat) (bytes : MBytes)
  | reg (ctx off bytes v : Nat)
  | signal (s : Sig) (kind : Nat)
  | request (src ctx a : Nat) (op : MemOp)
  | access (h : RelHold)
  | net (node path : Nat) (m : RxMsg)
  deriving DecidableEq, Repr

/-- A READ or ATOMIC whose answer has not arrived. -/
structure DmTag where
  tag : Nat
  uid : Nat
  who : Waiter
  off : Nat
  len : Nat
  src : Nat
  ctx : Nat
  ent : Option (Nat × Nat)
  deriving DecidableEq, Repr

/-- What the Damask engine holds beside its registers. -/
structure Damask where
  uid : Nat
  tag : Nat
  send : List SendPath
  recv : List RecvPath
  holds : List RelHold
  tags : List DmTag
  deriving DecidableEq, Repr

/-- A queue pair (R481, R482): 0 DISABLED, 1 READY, 2 ERROR, with the entry's fields as read at ENABLE. -/
structure Qp where
  i : Nat
  st : Nat
  pmtu : Nat
  cls : Nat
  rqEn : Bool
  pd : Nat
  destQpn : Nat
  epsn : Nat
  spsn : Nat
  retryCnt : Nat
  rnrRetry : Nat
  rnrTimer : Nat
  ackTimeout : Nat
  addr : Nat
  rqVa : Nat
  rqLog2 : Nat
  rqSlot : Nat
  rqCtx : Nat
  rqProd : Nat
  lastErr : Nat
  nakSent : Bool
  /-- Replies of the last 16 atomics, by PSN (the replay store of R480). -/
  replay : List (Nat × Nat)
  /-- Send rate in Gb/s (R486). -/
  rate : Rat
  /-- A CNP was sent, one was received, since CNP_GAP_TIMER last came (R486). -/
  cnpSent : Bool
  cnpGot : Bool
  /-- Requester operations without an answer: PSN, command tag, whether it is the increment, retries used. -/
  reqs : List (Nat × Nat × Bool × Nat × Nat)
  deriving DecidableEq, Repr

/-- A MACsec association (R515). -/
structure Assoc where
  sub : Nat
  tx : Bool
  an : Nat
  key : List Nat
  salt : Nat
  ssci : Nat
  pn : Nat
  deriving DecidableEq, Repr

/-- What the ports hold beside their registers. -/
structure Ports where
  assocs : List Assoc
  /-- The transmit association in use by sub-port. -/
  active : SMap Nat
  /-- Sub-ports whose link is up. -/
  up : NSet
  /-- Priorities paused by received PFC frames, by sub-port. -/
  paused : SMap Nat
  /-- The threshold of the running FEC window, by sub-port (R514). -/
  fecLim : SMap Nat
  /-- The peer SCI, by sub-port (R513). -/
  sci : SMap Nat
  deriving DecidableEq, Repr

end Sys2Proof.Machine
end

