-- ==== Sys2Proof/Machine/TypesMgmt.lean ====
section
/-! DEFINITION. Machine/TypesMgmt.lean: the parts of the state that power, resets, Lichen, the vault, the snapshot
engine and the test port hold beside their registers (R579 to R663). -/

namespace Sys2Proof.Machine

/-- What power and protection hold (R579 to R591). -/
structure Power where
  /-- The standby domain runs. -/
  input : Bool
  /-- PWR_EN is asserted. -/
  pwrEn : Bool
  /-- The hot-plug switch is closed. -/
  switch : Bool
  /-- PWR_GOOD is asserted. -/
  good : Bool
  /-- A latched response keeps the switch open. -/
  latched : Bool
  /-- The switch is open for overvoltage. -/
  overVolt : Bool
  /-- THERM_TRIP_N is low. -/
  trip : Bool
  /-- The input lies below the warning level; it lies above the recovery level (R583). -/
  below : Bool
  above : Bool
  /-- Windows in a row above LIMIT_W at CAP_STEP 3 (R588). -/
  capRuns : Nat
  /-- LIMIT_W for the window that runs (R594). -/
  limit : Nat
  /-- N-dies (0, 1) and stacks (16 + m) at or above their warning level (R589). -/
  hot : NSet
  /-- Coolant conditions that hold: 0 inlet, 1 flow below 2.0 L/min, 2 flow below 1.0 L/min. -/
  cool : NSet
  /-- Base clock to take effect at the next boundary (R587). -/
  base : Option Nat
  /-- Class 19 records that Lichen writes at the next module reset (R581). -/
  owed : List FaultRec
  deriving DecidableEq, Repr

/-- A module reset that runs (R601, R602): the causes that persist, and whether the 100 µs have passed. -/
structure ModRst where
  on : Bool
  causes : NSet
  /-- SOFTWARE request accepted and waiting for its tick: AT and FLUSH. -/
  pending : Option (Nat × Bool)
  /-- Parallel steps of bring-up that have ended (R654): stacks 0 to 11, 12 peat, 13 tiles, 14 caches. -/
  ended : NSet
  deriving DecidableEq, Repr

/-- An activation accepted (R627): component, tick (none: at the next module reset), whether it is a revert, whether
the component has restarted and waits for READY. -/
structure Act where
  comp : Nat
  at_ : Option Nat
  revert : Bool
  begun : Option Nat
  deriving DecidableEq, Repr

/-- An entry of the event log (R619). -/
structure LogE where
  seq : Nat
  code : Nat
  sev : Nat
  tick : Nat
  ns : Nat
  arg : Nat
  deriving DecidableEq, Repr

/-- The snapshot store (R646, R647): the registers as they stood at the trigger and what status registers show, the sites
whose copies exist, the seed of the measured fields, and for a partial copy the seed of which registers had been copied
(0: all). -/
structure Snap where
  regs : SMap Nat
  present : NSet
  cut : Nat
  meas : Nat
  queues : List Queue
  qps : List Qp
  terminated : NSet
  log : List (Nat × LogE)
  tags : SMap Nat
  send : List SendPath
  recv : List RecvPath
  deriving DecidableEq, Repr

/-- What Lichen and the vault hold (R614 to R640). -/
structure Lichen where
  /-- Values of class L fields in the store, by field key. -/
  store : SMap Nat
  /-- Class L fields written and not yet committed. -/
  held : NSet
  log : List (Nat × LogE)
  /-- Events to be logged once Lichen runs (R630, R645), each with the class 20 cause of its fault record, 0 for none. -/
  owed : List (LogE × Nat)
  /-- Invalid polls in a row, by sensor; 10 and more: reported lost (R617). -/
  polls : SMap Nat
  /-- Last valid reading plus one, by sensor. -/
  reading : SMap Nat
  /-- Interface version and verification of the image in slot 2c + s. -/
  iface : SMap Nat
  /-- The slot that was active before the last activation plus one, by component. -/
  before : SMap Nat
  acts : List Act
  /-- Starts in a row whose image failed, by component (R631). -/
  bad : SMap Nat
  /-- Why Lichen restarts (R620, code 17). -/
  why : Nat
  /-- The identity key as its key store keeps it: 0 READY, 1 LOCKED, 2 ERASED. -/
  idKey : Nat
  /-- An alarm has arisen since the last re-attestation (R638). -/
  alarmed : Bool
  /-- A re-attestation has begun and has no result yet (R638). -/
  attest : Bool
  /-- The PLDM terminus identifier. -/
  tid : Nat
  /-- Endpoint identifier and I3C dynamic address; 0 none. -/
  eid : Nat
  dyn : Nat
  /-- SPDM: 0 nothing, 1 version, 2 capabilities, 3 algorithms negotiated; handshakes begun, sessions established. -/
  spdm : Nat
  hands : NSet
  sess : NSet
  nextSess : Nat
  /-- The test pack in use: PACK_ID plus one. -/
  pack : Nat
  deriving DecidableEq, Repr

/-- The test access port (R659): the instruction selected (0 BYPASS, 1 IDCODE, 2 SAMPLE/PRELOAD, 3 EXTEST, 4 INSTR_NET)
and the boundary-scan register. -/
structure Tap where
  ir : Nat
  bsr : Nat
  deriving DecidableEq, Repr

end Sys2Proof.Machine
end

