-- ==== Sys2Proof/Machine/Block.lean ====
section
/-! DEFINITION. Machine/Block.lean: the module that the commands act on: registers, memory, tile sites, engines, queues,
caches, transport, power, management and test state, as plain data. -/

namespace Sys2Proof.Machine

/-- What leaves the module, in order: an interrupt of a control core; a Damask message with the 24 bytes of its header (R488); a RoCEv2 packet; a frame of a port;
a reply of a management interface or of a named read; the answer to an access; the codes of the words it holds (R393); a level of a pin. It is the outside's view of
what the module did: nothing inside the module reads it. -/
inductive Out where
  | irq (core why : Nat)
  | damask (node type : Nat) (hdr : List Byte) (args : List Nat) (data : MBytes)
  | roce (qpn op : Nat) (args : List Nat) (data : List Byte)
  | frame (port kind : Nat) (args : List Nat) (data : List Byte)
  | reply (iface cmd : Nat) (args : List Nat)
  | data (dst off status : Nat) (bytes : MBytes)
  | codes (dst off : Nat) (codes : List Nat)
  | pin (pin : Nat) (level : Bool)
  deriving DecidableEq, Repr

/-- The module. -/
structure Block where
  /-- Every register field's value, where it is not the reset value (R6). -/
  regs : SMap Nat
  /-- HBM, peat and the local stores, with the check bits each word is stored with (R64, R379). -/
  mem : Mem
  /-- Context tags of granules (R419). -/
  tags : SMap Nat
  /-- The tile sites (R54, R84). -/
  sites : SMap Site
  /-- Fault records on their way to the collector (R565). -/
  faultQ : List FaultRec
  /-- What has left the module. -/
  out : List Out
  /-- The model's own: how many free values have been drawn (assumption log 3). -/
  free : Nat
  /-- The serving tick beside its registers (R47, R51). -/
  tick : TickSt
  /-- Tile retirements that are pending or copying (R61, R62). -/
  retires : List Retire
  /-- A reset, sleep or wake requested by PW_RST_CMD (R604). -/
  rst : Option RstRun
  /-- Requests to logical tiles held while a site copies or resets, in the order they came (R62, R605). -/
  heldQ : List (Nat × HeldReq)
  /-- The Moss engines (R307, R356). -/
  moss : Moss
  /-- The group block (R519). -/
  grp : GrpSt
  /-- The channel that each migrating stack moves out of (R371, R372). -/
  migCh : SMap Nat
  /-- Multicasts of weights on their way (R172). -/
  mcasts : List Mcast
  /-- Semaphore signals on their way (R102). -/
  sigs : List Sig
  /-- Sampled passes (R555). -/
  samples : List Sample
  /-- Bracken (R436). -/
  bk : Bracken
  /-- Lines of the region caches (R384). -/
  rc : List RcLine
  /-- Snoop filter entries (R386). -/
  sf : List SfEntry
  /-- Misses of the region caches (R388). -/
  misses : List RcMiss
  /-- Preloads that run (R392). -/
  pre : List RcPre
  /-- Which way of a set was used last (R384). -/
  plru : SMap Nat
  /-- Dies isolated from the mesh (R591). -/
  isolated : NSet
  /-- Failed packages whose first access has been recorded (R375). -/
  pkgSeen : NSet
  /-- The shared translation buffer (R411). -/
  stlb : List TlbE
  /-- Page table entries cached by the walkers (R411). -/
  wcache : List WalkE
  /-- Context entries cached (R408). -/
  cctx : List CtxE
  /-- Window entries cached by the N-dies (R430). -/
  wins : List WinE
  /-- The invalidation in progress (R415, R417). -/
  inval : Option Inval
  /-- The tag change in progress: first granule, count, tag (R421). -/
  tagSet : Option (Nat × Nat × Nat)
  /-- Contexts that are terminated (R561). -/
  terminated : NSet
  /-- The SEQ of the record that terminated a context (R561). -/
  termSeq : SMap Nat
  /-- A fault interrupt is owed at the end of its coalescing interval (R570). -/
  irqOwed : Bool
  /-- Damask paths (R491). -/
  dm : Damask
  /-- Queue pairs (R481). -/
  qps : List Qp
  /-- Ports: MACsec associations, links, pauses (R474, R479, R515). -/
  ports : Ports
  /-- Register writes that the command in progress made: context, offset, bytes, value (R82). -/
  regQ : List (Nat × Nat × Nat × Nat)
  /-- The snapshot store (R646). -/
  snap : Snap
  /-- Power input, rails and throttling (R579 to R590). -/
  pw : Power
  /-- The module reset (R602). -/
  mrst : ModRst
  /-- Lichen and the vault (R614, R634). -/
  lc : Lichen
  /-- The test port (R659). -/
  tap : Tap
  deriving DecidableEq, Repr

/-- A tick no boundary of the module's own began. -/
def TickFacts.none : TickFacts :=
  { begun := false, inSvc := false, unaligned := false, overrun := false, abort := false, late := false }

/-- Bracken after reset. -/
def Bracken.empty : Bracken :=
  { gens := [], cmds := [], queues := [], watches := [], segs := [], steps := [], placed := [], recs := [], blocks := [],
    loads := [], seedReads := [], handProd := [], resident := [], closedTick := 0, unreleased := [], off := [] }

/-- The group block after reset. -/
def GrpSt.empty : GrpSt :=
  { members := [], prevTick := 0, prevLatch := 0, pass := none, omapOut := [], omapAt := none, maintQ := [], maintOn := [] }

/-- A Damask engine without paths. -/
def Damask.empty : Damask := { uid := 0, tag := 0, send := [], recv := [], holds := [], tags := [] }

/-- Ports without associations or links. -/
def Ports.empty : Ports := { assocs := [], active := [], up := [], paused := [], fecLim := [], sci := [] }

/-- A snapshot store that holds nothing. -/
def Snap.empty : Snap :=
  { regs := [], present := [], cut := 0, meas := 0, queues := [], qps := [], terminated := [], log := [], tags := [],
    send := [], recv := [] }

end Sys2Proof.Machine
end

