-- ==== Sys2Proof/Machine/Ops.lean ====
section
/-! DEFINITION. Machine/Ops.lean: the named operations over registers, counters, fault records, free values and sites.
Every register is read and written here. -/

namespace Sys2Proof.Machine
open Reg

/-! ### Registers -/

/-- The reset value of a field: the number of the table, or the function of the index or of the part the table
states (R59, R593, R642). -/
def Field.resetAt (f : Field) (_i j : Nat) : Nat :=
  if f.id = TL_LMAP.SITE.id then j % 16
  else if f.id = TL_SITE.STATE.id then (if j % 18 < 16 then 0 else 1)
  else if f.id = TL_SITE.LTILE.id then (if j % 18 < 16 then j / 18 * 16 + j % 18 else 0)
  else if f.id = PW_CAP.LIMIT_W.id then Config.maxWatts
  else if f.id = PW_CLK.REQ_MHZ.id then Config.maxMhz
  else if f.id = PW_CLK.BASE_MHZ.id then Config.maxMhz
  else if f.id = TW_LAT.LAT.id then 0x88
  else if f.id = LC_INV0.SERIAL.id then Config.serial % 2 ^ f.width
  else if f.id = LC_INV1.MAC_BASE.id then Config.macBase % 2 ^ f.width
  else if f.id = LC_INV1.PART.id then Config.partLH.toNat
  else if f.id = LC_INV1.FUSE_ERASE.id then Config.fuseErase.toNat
  else if f.id = LC_INV1.FUSE_COSIGN.id then Config.fuseCosign.toNat
  else f.reset

/-- The key of a field's value: field, block instance, register index of an array. -/
def Field.key (f : Field) (i j : Nat) : Nat := f.id * 2 ^ 40 + (i % 2 ^ 20) * 2 ^ 20 + j % 2 ^ 20

/-- The value of a field in block instance `i`, register `j` of an array. -/
def Block.rd (b : Block) (f : Field) (i : Nat := 0) (j : Nat := 0) : Nat :=
  SMap.get (f.resetAt i j) b.regs (f.key i j)

/-- Set a field to `v`, cut to the field's width. -/
def Block.wr (b : Block) (f : Field) (v : Nat) (i : Nat := 0) (j : Nat := 0) : Block :=
  { b with regs := SMap.set (f.resetAt i j) b.regs (f.key i j) (v % 2 ^ f.width) }

/-- A one-bit field as a truth value. -/
def Block.on (b : Block) (f : Field) (i : Nat := 0) (j : Nat := 0) : Bool := b.rd f i j == 1

/-- Count `n` on a counter that saturates at its maximum (R25 and the counters of every block). -/
def Block.inc (b : Block) (f : Field) (n : Nat := 1) (i : Nat := 0) (j : Nat := 0) : Block :=
  b.wr f (min (b.rd f i j + n) (2 ^ f.width - 1)) i j

/-- Add modulo the field's width (indices and sequence numbers that wrap). -/
def Block.addWrap (b : Block) (f : Field) (n : Nat := 1) (i : Nat := 0) (j : Nat := 0) : Block :=
  b.wr f (b.rd f i j + n) i j

/-- The field a key belongs to. -/
def fieldOfKey (k : Nat) : Option Field := allFields[k / 2 ^ 40 - 1]?

/-- Clear to reset every field value that `p` selects by field, instance and index (R10, R596). -/
def Block.clearRegs (b : Block) (p : Field → Nat → Nat → Bool) : Block :=
  { b with regs := b.regs.filter (fun c =>
      match fieldOfKey c.1 with
      | some f => !p f (c.1 / 2 ^ 20 % 2 ^ 20) (c.1 % 2 ^ 20)
      | none => true) }

/-- Fields of the register at an offset of a block. -/
def fieldsAt (blk : Blk) (off : Nat) : List (Field × Nat) :=
  allFields.filterMap (fun f =>
    if f.blk = blk ∧ f.off ≤ off ∧ off < f.off + 8 * f.count ∧ (off - f.off) % 8 = 0
    then some (f, (off - f.off) / 8) else none)

/-! ### Free values -/

/-- Draw a free value of `w` bits: nothing constrains it. -/
def Block.draw (b : Block) (w : Nat) : Nat × Block :=
  (Config.freeNat b.free % 2 ^ w, { b with free := b.free + 1 })

/-- A fresh seed for an array whose content is undefined from now on. -/
def Block.freshSeed (b : Block) : Nat × Block := (b.free + 1, { b with free := b.free + 1 })

/-- The numbers below `n`, from a free one on: what is searched where the spec says that one that is free is taken and not
which (assumption log 39). -/
def spin (v n : Nat) : List Nat := (List.range n).map (fun k => (v + k) % n)

/-- Room for one more entry in a buffer of `n`: a full one gives up an entry. Which one no rule says, so it is a free value
(assumption log 35). -/
def Block.room {α : Type} (b : Block) (n : Nat) (l : List α) : List α × Block :=
  if l.length < n then (l, b)
  else
    let (v, b) := b.draw 32
    (l.eraseIdx (v % l.length), b)

/-- Enter several. -/
def Block.enterAll {α : Type} (n : Nat) : List α → Block → List α → List α × Block
  | [], b, l => (l, b)
  | x :: xs, b, l =>
    match b.room n l with
    | (l, b) => Block.enterAll n xs b (l ++ [x])

/-! ### Fault records and outputs -/

/-- Send a fault record to the collector (R565). Records from one source keep their order. -/
def Block.report (b : Block) (r : FaultRec) : Block := { b with faultQ := b.faultQ ++ [r] }

/-- The SEQ that the next record sent will take. -/
def Block.nextSeq (b : Block) : Nat := (b.rd FLT_SEQ.NEXT + b.faultQ.length) % 2 ^ 64

/-- Send something out of the module. -/
def Block.emit (b : Block) (o : Out) : Block := { b with out := b.out ++ [o] }

/-- Interrupt a control core. The reasons: 0 fault ring, 1 handoff, 2 Lichen, 3 runtime activation, 4 boot, 5 group. -/
def Block.irq (b : Block) (core why : Nat) : Block := b.emit (.irq core why)

/-- The module after an operation that also answers. -/
def Block.done {α : Type} (r : α × Block) : Block := r.2

/-- Apply an update a list of times, once per element. -/
def Block.each {α : Type} (b : Block) (l : List α) (f : Block → α → Block) : Block := l.foldl f b

/-- Apply an update where a condition holds. -/
def Block.whenB (b : Block) (c : Bool) (f : Block → Block) : Block := if c then f b else b

/-! ### Tick -/

/-- TK_COUNT. -/
def Block.now (b : Block) : Nat := b.rd TK_COUNT.COUNT

/-! ### Tiles and sites -/

/-- The flat site that serves logical tile `l` (R55, R56). -/
def Block.siteOf (b : Block) (l : Nat) : Nat := l / 16 * 18 + b.rd TL_LMAP.SITE 0 l

/-- The logical tile a site serves. -/
def Block.tileOf (b : Block) (p : Nat) : Nat := b.rd TL_SITE.LTILE 0 p

/-- Is a region asleep or waking (R604, R612)? -/
def Block.asleep (b : Block) (r : Nat) : Bool := b.rd PW_RST_STATUS.SLEEPING / 2 ^ r % 2 == 1

/-- Does a site serve logical tile `l` (R59, R606)? -/
def Block.served (b : Block) (l : Nat) : Bool := b.on TL_LMAP.VALID 0 l && !b.asleep (l / 16)

/-- The module region of a site. -/
def regionOfSite (p : Nat) : Nat := p / 18

/-- A plan bank that has received nothing. -/
def PlanBank.empty : PlanBank := ⟨0, false, [], [], []⟩

/-- An empty weight plane: not valid. -/
def Plane.empty : Plane :=
  { valid := false, pois := false, loading := 0, multi := false, overlap := false, replayBad := false, fmt := 0,
    signed := false, mx := false, w := Arr.zero, scales := Arr.zero }

/-- A site after reset: the values log 5 names where the spec states none. -/
def Site.fresh : Site :=
  { sreg := Arr.zero, dreg := Arr.zero, treg := Arr.zero, tpois := [], twritten := [], imem := [],
    bank0 := PlanBank.empty, bank1 := PlanBank.empty, run := none, todo := [], draining := false,
    queue := [], flight := [], pend := none, wait := none, pendReg := [], ending := false,
    plane0 := Plane.empty, plane1 := Plane.empty, planeSel := 0, planeWr := [], swapWait := false, overAdd := 0, passes := [],
    runs := [], far := [], semNow := [], waitOld := [], passNo := 0,
    frondQ := 0, nextId := 0,
    start := none, log := [], logAt := 0, fromOut := [], replay := none, noReplay := false,
    tlb := [], copying := false, packLast := none, packRerun := false, stopped := false, pcOver := false, mss := MssUnit.empty }

/-- A site's state. -/
def Block.site (b : Block) (p : Nat) : Site := SMap.get Site.fresh b.sites p

/-- Replace a site's state. -/
def Block.setSite (b : Block) (p : Nat) (s : Site) : Block :=
  { b with sites := SMap.set Site.fresh b.sites p s }

/-- Update a site's state. -/
def Block.onSite (b : Block) (p : Nat) (f : Site → Site) : Block := b.setSite p (f (b.site p))

/-- Bits `lo` to `lo + w - 1` of a number. -/
def bits (v lo w : Nat) : Nat := v / 2 ^ lo % 2 ^ w

/-- One bit of a number. -/
def bit (v k : Nat) : Bool := v / 2 ^ k % 2 == 1

/-- Replace bits `lo` to `lo + w - 1`. -/
def setBits (v lo w x : Nat) : Nat := v + (x % 2 ^ w) * 2 ^ lo - bits v lo w * 2 ^ lo

/-- Two's complement value of the low `w` bits. -/
def toInt (w v : Nat) : Int := if v % 2 ^ w < 2 ^ (w - 1) then (v % 2 ^ w : Nat) else (v % 2 ^ w : Nat) - (2 ^ w : Nat)

/-- The `w`-bit two's complement word of an integer. -/
def ofInt (w : Nat) (v : Int) : Nat := (v % (2 ^ w : Nat)).toNat

/-- A list of bytes as a little-endian number (R5). -/
def leNat : List Byte → Nat
  | [] => 0
  | x :: r => x.toNat + 256 * leNat r

/-- A number as `n` little-endian bytes (R5). -/
def leBytes (n v : Nat) : List Byte := (List.range n).map (fun k => BitVec.ofNat 8 (v / 2 ^ (8 * k)))

/-- A list of bytes as a number in network byte order. -/
def beNat (l : List Byte) : Nat := leNat l.reverse

/-- A number as `n` bytes in network byte order. -/
def beBytes (n v : Nat) : List Byte := (leBytes n v).reverse

/-- mix() of R254. -/
def mix (z : Nat) : Nat :=
  let z := z % 2 ^ 64
  let z := ((z ^^^ (z / 2 ^ 30)) * 0xBF58476D1CE4E5B9) % 2 ^ 64
  let z := ((z ^^^ (z / 2 ^ 27)) * 0x94D049BB133111EB) % 2 ^ 64
  z ^^^ (z / 2 ^ 31)

end Sys2Proof.Machine
end

