-- ==== Sys2Proof/Machine/Flags.lean ====
section
/-! DEFINITION. Machine/Flags.lean: the status bits and counters by access code (R7, R8): what a write and a read of a
register do to one field, and to a whole 64-bit register. -/

namespace Sys2Proof.Machine
open Reg

/-- What a write of `v` does to a field by its access code (R7): RW sets it, W1C clears where 1, W1S sets where 1;
RO, RC and WO keep nothing of it. -/
def Block.writeField (b : Block) (f : Field) (i j v : Nat) : Block :=
  match f.acc with
  | .rw => b.wr f v i j
  | .w1c => b.wr f (b.rd f i j - (b.rd f i j &&& (v % 2 ^ f.width))) i j
  | .w1s => b.wr f (b.rd f i j ||| (v % 2 ^ f.width)) i j
  | .ro => b
  | .rc => b
  | .wo => b

/-- What a read of a field returns (R7): WO reads as 0. -/
def Block.readField (b : Block) (f : Field) (i j : Nat) : Nat :=
  match f.acc with
  | .wo => 0
  | _ => b.rd f i j

/-- What a read does to a field: RC clears (R7). -/
def Block.afterRead (b : Block) (f : Field) (i j : Nat) : Block :=
  match f.acc with
  | .rc => b.wr f 0 i j
  | _ => b

/-- Set a CFG_ERR bit. -/
def Block.cfgErr (b : Block) (f : Field) (i : Nat := 0) : Block := b.wr f 1 i

end Sys2Proof.Machine
end

