-- ==== Sys2Proof/Machine/AddrMap.lean ====
section
/-! DEFINITION. Machine/AddrMap.lean: the local physical map (R78 to R80): where a local offset leads, and
which controller, channel, bank and row hold it (R365 to R374). -/

namespace Sys2Proof.Machine
open Reg

/-! ### The local physical map -/

/-- Where a local offset leads (R78). -/
inductive Place where
  | hbm (m o : Nat)
  | peat (o : Nat)
  | store (l off : Nat)
  | regs (off : Nat)
  | lockWin (r off : Nat)
  | absent
  deriving DecidableEq, Repr

/-- Number of set bits among the low `n`. -/
def popN (n v : Nat) : Nat := ((List.range n).filter (fun k => bit v k)).length

/-- Channels of stack `m` mapped out now. -/
def Block.chOut (b : Block) (m : Nat) : Nat := popN 32 (b.rd MEM_CHMAP.EFFECTIVE m)

/-- Peat packages mapped out now, module-wide (R374). -/
def Block.pkgOut (b : Block) : Nat :=
  ((List.range 4).map (fun c => popN 4 (b.rd MEM_PKGMAP.EFFECTIVE (12 + c)))).sum

/-- Bytes of the peat range present: (16 − y) × 64 GiB, none with more than 4 packages mapped out (R374, R375). -/
def Block.peatSize (b : Block) : Nat := if b.pkgOut > 4 then 0 else (16 - b.pkgOut) * 2 ^ 36

/-- Decode a local offset (R78, R79, R80); what is not listed is absent. -/
def Block.place (b : Block) (a : Nat) : Place :=
  if a < 12 * 2 ^ 36 then
    let m := a / 2 ^ 36
    let o := a % 2 ^ 36
    if o < (32 - b.chOut m) * 2 ^ 31 then .hbm m o else .absent
  else if 0x0100_0000_0000 ≤ a ∧ a < 0x0100_0000_0000 + 2 ^ 40 then
    let o := a - 0x0100_0000_0000
    if o < b.peatSize then .peat o else .absent
  else if 0x0200_0000_0000 ≤ a ∧ a < 0x0200_0000_0000 + 2 ^ 31 then
    let l := (a - 0x0200_0000_0000) / 2 ^ 22
    let off := (a - 0x0200_0000_0000) % 2 ^ 22
    if off < 0x30_0000 ∧ b.served l then .store l off else .absent
  else if 0x0300_0000_0000 ≤ a ∧ a < 0x0300_0000_0000 + 2 ^ 32 then .regs (a - 0x0300_0000_0000)
  else if 0x0301_0000_0000 ≤ a ∧ a < 0x0301_0000_0000 + 2 ^ 28 then
    .lockWin ((a - 0x0301_0000_0000) / 2 ^ 23) ((a - 0x0301_0000_0000) % 2 ^ 23)
  else .absent

/-- Is a local offset memory that the module has (HBM or peat present)? -/
def Block.isMem (b : Block) (a : Nat) : Bool :=
  match b.place a with
  | .hbm _ _ => true
  | .peat _ => true
  | _ => false

/-- The key a byte is stored under: HBM and peat under their local offset, local stores under their site. -/
def lsKey (p off : Nat) : Nat := 0x0200_0000_0000 + p * 2 ^ 22 + off

/-- The key of a local offset that holds bytes. -/
def Block.keyOf (b : Block) (a : Nat) : Nat :=
  match b.place a with
  | .store l off => lsKey (b.siteOf l) off
  | _ => a

/-- The part of storage whose content becomes undefined as one: a stack, the peat tier, a site's local store. -/
def domainOf (key : Nat) : Nat :=
  if key < 12 * 2 ^ 36 then key / 2 ^ 36
  else if key < 0x0200_0000_0000 then 12
  else 16 + (key - 0x0200_0000_0000) / 2 ^ 22

/-! ### Channels and packages -/

/-- In-service numbers among `n` under a mask of those out. -/
def inService (n mask : Nat) : List Nat := (List.range n).filter (fun k => !bit mask k)

/-- XOR of the 5-bit groups of q in the hash of R367. -/
def hash5 (q : Nat) : Nat := bits q 0 5 ^^^ bits q 5 5 ^^^ bits q 10 5 ^^^ bits q 15 5 ^^^ bits q 20 3

/-- XOR of the 4-bit groups of q in the hash of R374. -/
def hash4 (q : Nat) : Nat :=
  bits q 0 4 ^^^ bits q 4 4 ^^^ bits q 8 4 ^^^ bits q 12 4 ^^^ bits q 16 4 ^^^ bits q 20 4 ^^^ bits q 24 4

/-- Channel and channel-local granule of an offset of a stack window under a mask of channels out (R367). -/
def hbmHash (mask o : Nat) : Nat × Nat :=
  let ch := inService 32 mask
  let n := ch.length
  let g := o / 256
  let q := g / n
  (ch.getD ((g % n + hash5 q) % n) 0, q)

/-- Package and package-local granule of an offset of the peat range (R374). -/
def peatHash (mask o : Nat) : Nat × Nat :=
  let pk := inService 16 mask
  let n := pk.length
  let g := o / 256
  let q := g / n
  (pk.getD ((g % n + hash4 q) % n) 0, q)

/-- The module-wide mask of packages out. -/
def Block.pkgMask (b : Block) : Nat :=
  ((List.range 4).map (fun c => b.rd MEM_PKGMAP.EFFECTIVE (12 + c) * 2 ^ (4 * c))).sum

/-- The channels that hold a granule now: while the stack migrates, a granule not yet moved lies where the map before
the live map-out put it (R372). -/
def Block.hbmMask (b : Block) (m o : Nat) : Nat :=
  let eff := b.rd MEM_CHMAP.EFFECTIVE m
  if b.rd MEM_STATUS.STATE m = 2 ∧ b.rd MEM_STATUS.MIG_PROGRESS m ≤ o / 256
  then setBits eff (SMap.get 0 b.migCh m) 1 0 else eff

/-- Controller instance, channel or package, pseudo-channel, bank and row of a local offset (R367, R368, R374). For
peat the pseudo-channel is 0 and bank and row name the package row. -/
def Block.locOf (b : Block) (a : Nat) : Nat × Nat × Nat × Nat × Nat :=
  match b.place a with
  | .hbm m o =>
    let (c, q) := hbmHash (b.hbmMask m o) o
    (m, c, bits q 0 1 ^^^ bits q 11 1, bits q 1 4 ^^^ bits q 12 4, Config.dramRow (bits q 5 18) % 2 ^ 18)
  | .peat o =>
    let (p, q) := peatHash b.pkgMask o
    (12 + p / 4, p, 0, 0, Config.dramRow q % 2 ^ 18)
  | _ => (0, 0, 0, 0, 0)

/-- The controller instance of a line. -/
def Block.lineInst (b : Block) (line : Nat) : Nat := (b.locOf (line * 128)).1

end Sys2Proof.Machine
end

