-- ==== Sys2Proof/Machine/Shown.lean ====
section
/-! DEFINITION. Machine/Shown.lean: status fields that show what a site, a region cache, a controller or the Damask engine
holds beside its registers: they are computed when they are read or copied, never stored. -/

namespace Sys2Proof.Machine
open Reg

/-- The plan bank of a site that holds the running list, and the other. -/
def Block.bankOf (b : Block) (p : Nat) : PlanBank := if b.on TL_STATUS.BANK p then (b.site p).bank1 else (b.site p).bank0

/-- The active and the shadow plane. -/
def Site.active (x : Site) : Plane := if x.planeSel = 0 then x.plane0 else x.plane1
/-- The shadow plane. -/
def Site.shadow (x : Site) : Plane := if x.planeSel = 0 then x.plane1 else x.plane0
/-- Replace the shadow plane. -/
def Site.setShadow (x : Site) (pl : Plane) : Site := if x.planeSel = 0 then { x with plane1 := pl } else { x with plane0 := pl }
/-- Replace the active plane. -/
def Site.setActive (x : Site) (pl : Plane) : Site := if x.planeSel = 0 then { x with plane0 := pl } else { x with plane1 := pl }

/-- The seed of the running step (R256, R257): the seed, or the exception its read left: 8 POISON, 7 CONTEXT_TAG; none
while it has not arrived. -/
inductive SeedSt where
  | value (v : Nat)
  | failed (exc : Nat)
  | waiting
  deriving DecidableEq, Repr

/-- Fetch the seed state of the running step from the running bank. -/
def Block.seedOf (b : Block) (p : Nat) : SeedSt :=
  match (b.site p).run with
  | none => .waiting
  | some r =>
    let bk := b.bankOf p
    if r.spilled then
      match r.seed with
      | some (v, e) => if e = 0 then .value v else .failed e
      | none => .waiting
    else
    match bk.seeds.find? (fun s => s.1 == r.d.index) with
    | some s => if NSet.mem bk.seedBad (2 * r.d.index) then .failed 8
        else if NSet.mem bk.seedBad (2 * r.d.index + 1) then .failed 7 else .value s.2
    | none => .waiting

/-- Engine activity bits of a site (TL_STATUS.ENG_BUSY, R128): engine 0 holds a load whose value is on its way, or
`stp.end`. -/
def Site.busy (x : Site) : Nat :=
  (x.pend.isSome || x.ending).toNat
    + ((List.range 5).map (fun e => if (x.queue ++ x.flight).any (fun i => i.eng == e + 1) then 2 ^ (e + 1) else 0)).sum

/-- Parts of a tile that have not completed. -/
def MssUnit.openParts (u : MssUnit) : Nat := (u.bags.map (fun g => (g.parts.filter (fun q => q.st.isNone)).length)).sum

/-- What the status fields of a tile show (R128, R333): its engines and its issue unit. -/
def Site.shownTl (s : Site) (f : Field) : Option Nat :=
  if f.id = TL_STATUS.ENG_BUSY.id then some s.busy
  else if f.id = TL_MSS_STATUS.INSTR.id then some (s.flight.filter (fun i => i.eng == 5)).length
  else if f.id = TL_MSS_STATUS.BAGS.id then some s.mss.bags.length
  else if f.id = TL_MSS_STATUS.PARTS.id then some s.mss.openParts
  else if f.id = TL_TLB_STATUS.ENTRIES.id then some s.tlb.length
  else none

/-- What TW_STATUS shows of the planes (R225). -/
def Site.shownTw (s : Site) (f : Field) : Option Nat :=
  if f.id = TW_STATUS.ACT_VALID.id then some s.active.valid.toNat
  else if f.id = TW_STATUS.ACT_POISON.id then some s.active.pois.toNat
  else if f.id = TW_STATUS.SHD_VALID.id then some s.shadow.valid.toNat
  else if f.id = TW_STATUS.SHD_POISON.id then some s.shadow.pois.toNat
  else if f.id = TW_STATUS.LOADING.id then some (if s.shadow.loading > 0 then 1 else 0)
  else if f.id = TW_STATUS.LOAD_SRC.id then some s.shadow.multi.toNat
  else if f.id = TW_STATUS.ACT_FMT.id then some s.active.fmt
  else if f.id = TW_STATUS.SHD_FMT.id then some s.shadow.fmt
  else if f.id = TW_STATUS.PASS.id then some (min s.passNo 0xFFFF)
  else none

/-- What FR_STATUS and the seed registers show (R263, R290): the seed is that of the running step, 0 while it is not
valid. -/
def Block.shownFr (b : Block) (f : Field) (p : Nat) : Option Nat :=
  let s := b.site p
  let seed := b.seedOf p
  if f.id = FR_STATUS.BUSY.id then some (s.flight.any (fun i => i.eng == 4)).toNat
  else if f.id = FR_STATUS.QDEPTH.id then some (s.queue.filter (fun i => i.eng == 4)).length
  else if f.id = FR_STATUS.STARTED.id then some (min s.frondQ (2 ^ 32 - 1))
  else if f.id = FR_SEED_STATUS.VALID.id then some (match seed with
    | .value _ => 1
    | _ => 0)
  else if f.id = FR_SEED_STATUS.FAILED.id then some (match seed with
    | .failed _ => 1
    | _ => 0)
  else if f.id = FR_SEED_CUR.SEED.id then some (match seed with
    | .value v => v
    | _ => 0)
  else none

/-- 64-byte units that a held message takes in the reorder store. -/
def RxMsg.units (m : RxMsg) : Nat := max 1 ((m.data.length + 63) / 64)

/-- 64-byte units that a part of `n` rows takes there: its item and its row entries, four per 32 bytes (R319). -/
def partUnits (n : Nat) : Nat := (32 + (n + 3) / 4 * 32 + 63) / 64

/-- Units in use in the reorder store of a physical port (R493): held messages, and parts that wait for an engine. -/
def Block.storeUse (b : Block) (port : Nat) : Nat :=
  (b.dm.recv.map (fun r => ((r.held.filter (fun m => m.at_ == port)).map RxMsg.units).sum)).sum
    + ((b.moss.waiting.filter (fun q => q.port == some port)).map (fun q => partUnits q.rows.length)).sum

/-- What a status field shows of the state it is computed from; none for a field that holds its own value. -/
def Block.shown (b : Block) (f : Field) (i : Nat) : Option Nat :=
  match f.blk with
  | .tl => (b.site i).shownTl f
  | .tw => (b.site i).shownTw f
  | .fr => b.shownFr f i
  | .rc => if f.id = RC_STATUS.MISS_OUT.id then some (b.misses.filter (fun m => m.region == i)).length else none
  | .mem =>
    if f.id = MEM_SF_STATUS.ENTRIES.id then some (b.sf.filter (fun e => b.lineInst e.line == i)).length else none
  | .dm =>
    if f.id = DM_STATUS.STORE_KIB.id then some (((List.range 16).map (fun p => (b.storeUse p + 15) / 16)).foldl max 0)
    else if f.id = DM_STATUS.SEND_PATHS.id then some b.dm.send.length
    else if f.id = DM_STATUS.RECV_PATHS.id then some b.dm.recv.length
    else none
  | .dmp =>
    if f.id = DM_MSEC_SCI.SCI.id then some (SMap.get 0 b.ports.sci (4 * i + b.rd DM_MSEC_SEL.SUB i)) else none
  | _ => none

/-- The instances that a shown field can have another value in than at reset. -/
def Block.shownAt (b : Block) (f : Field) : List Nat :=
  match f.blk with
  | .tl => b.sites.map (·.1)
  | .tw => b.sites.map (·.1)
  | .fr => b.sites.map (·.1)
  | .rc => List.range 32
  | .mem => List.range 16
  | .dmp => List.range 16
  | _ => [0]

/-- The registers with the values that shown fields have now: what a snapshot copies. -/
def Block.latchRegs (b : Block) : SMap Nat :=
  (b.each allFields (fun a f => a.each (b.shownAt f) (fun a i =>
    match b.shown f i with
    | some v => a.wr f v i
    | none => a))).regs

end Sys2Proof.Machine
end

