-- ==== Sys2Proof/Machine/RegSpace.lean ====
section
/-! DEFINITION. Machine/RegSpace.lean: the register space (R82, R83): which register an offset names, what reading it
gives, the configuration digest over it (R532) and the snapshot copies of it (R646, R652). -/

namespace Sys2Proof.Machine
open Reg

/-- The local offset of the register space. -/
def regBase : Nat := 0x0300_0000_0000

/-- A register: block, block instance (a flat site index for the blocks of a per-tile window), offset in the block. -/
structure RegAt where
  blk : Blk
  inst : Nat
  off : Nat
  deriving DecidableEq, Repr

/-- What an offset of the register space names. -/
inductive RegPlace where
  | reg (r : RegAt)
  /-- An offset of the tile snapshot area of a logical tile. -/
  | snap (l off : Nat)
  | none
  deriving DecidableEq, Repr

/-- A block of one instance below 1 MiB steps (R83). -/
def oneBlk (k : Nat) : Option Blk :=
  [(0, Blk.tk), (1, .tlMap), (2, .xl), (3, .bk), (4, .grp), (5, .flt), (6, .pw), (7, .lc), (8, .sv), (9, .sn)].lookup k

/-- A per-tile window offset (R83): TL_ tile, TW_, FR_, tile snapshot. -/
def tilePlace (p l o : Nat) : RegPlace :=
  if o < 0x1000 then .reg ⟨.tl, p, o⟩
  else if o < 0x2000 then .reg ⟨.tw, p, o - 0x1000⟩
  else if o < 0x3000 then .reg ⟨.fr, p, o - 0x2000⟩
  else .snap l (o - 0x3000)

/-- The peat controllers hold MEM_PKGMAP at 0x010, and no register at 0x018, 0x040 and 0x048 (R399). -/
def memPlace (i o : Nat) : RegPlace :=
  if i < 12 then .reg ⟨.mem, i, o⟩
  else if o = 0x10 then .reg ⟨.pkg, i, o⟩
  else if o = 0x18 ∨ o = 0x40 ∨ o = 0x48 then .none
  else .reg ⟨.mem, i, o⟩

/-- Decode an offset of the register space (R83). Per-tile windows follow TL_LMAP; those of degraded tiles and of a
sleeping region's tiles hold no register (R63, R606). -/
def Block.regPlace (b : Block) (off : Nat) : RegPlace :=
  if off < 0xA0_0000 then
    match oneBlk (off / 0x10_0000) with
    | some k => .reg ⟨k, 0, off % 0x10_0000⟩
    | none => .none
  else if 0x100_0000 ≤ off ∧ off < 0x100_0000 + 512 * 0x4000 then
    let l := (off - 0x100_0000) / 0x4000
    if b.served l then tilePlace (b.siteOf l) l ((off - 0x100_0000) % 0x4000) else .none
  else if 0x200_0000 ≤ off ∧ off < 0x220_0000 then .reg ⟨.rc, (off - 0x200_0000) / 0x1_0000, off % 0x1_0000⟩
  else if 0x300_0000 ≤ off ∧ off < 0x30C_0000 then .reg ⟨.ms, (off - 0x300_0000) / 0x1_0000, off % 0x1_0000⟩
  else if 0x400_0000 ≤ off ∧ off < 0x40C_0000 then memPlace ((off - 0x400_0000) / 0x1_0000) (off % 0x1_0000)
  else if 0x410_0000 ≤ off ∧ off < 0x414_0000 then memPlace (12 + (off - 0x410_0000) / 0x1_0000) (off % 0x1_0000)
  else if 0x500_0000 ≤ off ∧ off < 0x510_0000 then .reg ⟨.dmp, (off - 0x500_0000) / 0x1_0000, off % 0x1_0000⟩
  else if 0x510_0000 ≤ off ∧ off < 0x511_0000 then .reg ⟨.dm, 0, off - 0x510_0000⟩
  else .none

/-- The offset of an instance of a block, from the start of the register space. `i` is a logical tile for the blocks of a
per-tile window. -/
def blkBase (k : Blk) (i : Nat) : Nat :=
  match k with
  | .tk => 0
  | .tlMap => 0x10_0000
  | .xl => 0x20_0000
  | .bk => 0x30_0000
  | .grp => 0x40_0000
  | .flt => 0x50_0000
  | .pw => 0x60_0000
  | .lc => 0x70_0000
  | .sv => 0x80_0000
  | .sn => 0x90_0000
  | .tl => 0x100_0000 + i * 0x4000
  | .tw => 0x100_1000 + i * 0x4000
  | .fr => 0x100_2000 + i * 0x4000
  | .rc => 0x200_0000 + i * 0x1_0000
  | .ms => 0x300_0000 + i * 0x1_0000
  | .mem => if i < 12 then 0x400_0000 + i * 0x1_0000 else 0x410_0000 + (i - 12) * 0x1_0000
  | .pkg => 0x410_0000 + (i - 12) * 0x1_0000
  | .dmp => 0x500_0000 + i * 0x1_0000
  | .dm => 0x510_0000

/-- A field that every instance of its block shows alike (R329, R330): its one home is instance 0. -/
def Field.common (f : Field) : Bool :=
  f.blk == .ms && (f.off == 0x10 || f.off == 0x18 || f.off == 0x48 || f.off ≥ 0x8000
    || f.id == MS_ERR_CNT.TICK_SKEW.id)

/-- The instance that holds a field's value. -/
def Field.home (f : Field) (i : Nat) : Nat := if f.common then 0 else i

/-- A field whose value is a measurement or a running count of time: it reads as a free value (assumption log 3). -/
def Field.measured (f : Field) : Bool :=
  [TL_STEP.CYCLES.id, DM_PTP_TIME.NS.id, DM_PTP_TIME.SEC.id, PW_INPUT.VA_MV.id, PW_INPUT.VB_MV.id, PW_INPUT.IA_CA.id,
   PW_INPUT.IB_CA.id, PW_POWER.INST_W.id, PW_POWER.PEAK_W.id, PW_TEMP.CDIE_C.id, PW_TEMP.NDIE_C.id, PW_TEMP.HBM_C.id,
   PW_TEMP.INLET_C.id, PW_TEMP.FLOW.id].any (· == f.id)

/-- The step of a region's clock: the largest of UV_STEP, CAP_STEP, COOL_STEP and its die's DIE_STEP (R585). -/
def Block.stepOf (b : Block) (r : Nat) : Nat :=
  max (max (b.rd PW_STATUS.UV_STEP) (b.rd PW_STATUS.CAP_STEP))
    (max (b.rd PW_STATUS.COOL_STEP) (bits (b.rd PW_STATUS.DIE_STEP) (2 * (r / 4)) 2))

/-- The largest region step (PW_STATUS.STEP). -/
def Block.maxStep (b : Block) : Nat := ((List.range 8).map (fun d => b.stepOf (4 * d))).foldl max 0

/-! ### Configuration digest -/

/-- mix() term of one field (R532): register offset `a` within the local map, lowest bit, width, value. -/
def digestTerm (a lo w v : Nat) : Nat := mix (mix (a ^^^ (lo * 2 ^ 48) ^^^ (w * 2 ^ 56)) ^^^ v)

/-- The instances of a field's block over which the digest runs. -/
def Field.instances (f : Field) : List Nat :=
  match f.blk with
  | .tl => List.range 512
  | .tw => List.range 512
  | .fr => List.range 512
  | .rc => List.range 32
  | .ms => List.range 12
  | .mem => if f.id = MEM_CTRL.MIGRATE_SHARE.id then List.range 12 else List.range 16
  | .pkg => [12, 13, 14, 15]
  | .dmp => List.range 16
  | _ => [0]

/-- Is the block one of a per-tile window? -/
def Blk.perTile : Blk → Bool
  | .tl => true
  | .tw => true
  | .fr => true
  | _ => false

/-- The instance of the state for an instance of the map: the site that serves a logical tile. -/
def Block.stateInst (b : Block) (k : Blk) (i : Nat) : Nat := if k.perTile then b.siteOf i else i

/-- GRP_DIGEST: the XOR of the terms of every /G field of every instance (R532). -/
def Block.digest (b : Block) : Nat :=
  allFields.foldl (fun d f =>
    if !f.grp then d
    else f.instances.foldl (fun d i =>
      (List.range f.count).foldl (fun d j =>
        d ^^^ digestTerm (regBase + blkBase f.blk i + f.off + 8 * j) f.lo f.width
          (b.rd f (f.home (b.stateInst f.blk i)) j)) d) d) 0

/-! ### Reading -/

/-- Status fields that show state held elsewhere: the queue BK_QSEL selects, the queue pair DM_QPSTAT selects, the
context FLT_CTX selects, the log entry LC_LOG_SEL selects, and others. None: the field holds its own value. -/
def Block.view (b : Block) (f : Field) (j : Nat) : Option Nat :=
  let q := b.bk.queues.find? (fun x => x.q == b.rd BK_QSEL.QUEUE)
  let qp := fun i => b.qps.find? (fun (x : Qp) => x.i == i)
  let e := (b.lc.log.find? (fun x => x.1 == b.rd LC_LOG_SEL.INDEX)).map (·.2)
  if f.id = GRP_DIGEST.DIGEST.id then some b.digest
  else if f.id = BK_QSTATUS.STATE.id then some (q.elim 0 (·.st))
  else if f.id = BK_QSTATUS.DB_PEND.id then some (q.elim 0 (fun x => x.dbPend.toNat))
  else if f.id = BK_QSTATUS.CAUSE.id then some (q.elim 0 (·.cause))
  else if f.id = BK_QSTATUS.SLOT.id then some (q.elim 0 (fun x => bits x.w0 0 5))
  else if f.id = BK_QSTATUS.CONS.id then some (q.elim 0 (·.cons))
  else if f.id = BK_QIDX.PROD_SEEN.id then some (q.elim 0 (·.prodSeen))
  else if f.id = BK_QIDX.FAULT_RUN.id then some (q.elim 0 (·.faultRun))
  else if f.id = DM_QPSTAT.STATE.id then some ((qp (b.rd DM_QPSTAT.QP)).elim 0 (·.st))
  else if f.id = DM_QPSTAT.LAST_ERR.id then some ((qp (b.rd DM_QPSTAT.QP)).elim 0 (·.lastErr))
  else if f.id = DM_RQ_IDX.PROD.id then some ((qp j).elim 0 (·.rqProd))
  else if f.id = FLT_CTX.TERM.id then some (NSet.mem b.terminated (b.rd FLT_CTX.CTX)).toNat
  else if f.id = FLT_STATUS.TERMINATED.id then some b.terminated.length
  else if f.id = PW_STATUS.STEP.id then some b.maxStep
  else if f.id = TL_MAP_STATUS.DEGRADED.id then some ((List.range 512).filter (fun l => !b.on TL_LMAP.VALID 0 l)).length
  else if f.id = XL_TAG_RD.TAG.id then some (SMap.get 0xFFF b.tags (b.rd XL_TAG_RD.GRANULE))
  else if f.id = XL_TAG_RD.PRESENT.id then
    some (b.place (b.rd XL_TAG_RD.GRANULE * 2 ^ 21) != .absent).toNat
  else if f.id = LC_LOG_DATA.WORD.id then
    some (match e with
      | none => 0
      | some e => if j = 0 then e.seq % 2 ^ 32 + e.code % 256 * 2 ^ 32 + e.sev % 4 * 2 ^ 40
        else if j = 1 then e.tick else if j = 2 then e.ns else e.arg)
  else none

/-- The value of a field that is not shown from the state of a site, a cache, a controller or the Damask engine. -/
def Block.fieldOwn (b : Block) (f : Field) (i j : Nat) : Nat :=
  match b.view f j with
  | some v => v % 2 ^ f.width
  | none => b.rd f (f.home i) j

/-- The current value of a field. -/
def Block.fieldNow (b : Block) (f : Field) (i j : Nat) : Nat :=
  match b.shown f i with
  | some v => v % 2 ^ f.width
  | none => b.fieldOwn f i j

/-- Fields a controller of peat has not (R399). -/
def Field.absentAt (f : Field) (i : Nat) : Bool := f.id == MEM_CTRL.MIGRATE_SHARE.id && 12 ≤ i

/-- The fields of a register. -/
def RegAt.fields (r : RegAt) : List (Field × Nat) := (fieldsAt r.blk r.off).filter (fun x => !x.1.absentAt r.inst)

/-! ### The snapshot store -/

/-- The module as the snapshot holds it. -/
def Block.atSnap (b : Block) : Block :=
  { b with
    regs := b.snap.regs, qps := b.snap.qps, terminated := b.snap.terminated, tags := b.snap.tags
    bk := { b.bk with queues := b.snap.queues }
    lc := { b.lc with log := b.snap.log }
    dm := { b.dm with send := b.snap.send, recv := b.snap.recv } }

/-- The word of a register as the snapshot latched it; a measured field holds its free value of the latch. -/
def Block.snapRegWord (b : Block) (r : RegAt) : Nat :=
  (r.fields.map (fun x =>
    (if x.1.acc = .wo then 0
     else if x.1.measured then Config.freeAt b.snap.meas (x.1.key r.inst x.2) % 2 ^ x.1.width
     else b.atSnap.fieldOwn x.1 r.inst x.2) * 2 ^ x.1.lo)).sum

/-- A copy of a register in the snapshot store: none where no copy exists. Every read returns 0 while VALID is 0. The
part of a partial copy that had not been copied reads as 0 (R647): which part that is, is a free value. -/
def Block.snapWord (b : Block) (r : RegAt) : Option Nat :=
  if !b.on SN_STATUS.VALID ∨ r.fields.isEmpty ∨ r.blk = .sn then none
  else if r.blk.perTile ∧ !NSet.mem b.snap.present r.inst then none
  else if b.snap.cut ≠ 0 ∧ Config.freeAt b.snap.cut (blkBase r.blk r.inst + r.off) % 2 = 0 then some 0
  else some (b.snapRegWord r)

/-- The tile snapshot area of logical tile `l` (R652). -/
def Block.snapTile (b : Block) (l o : Nat) : Nat :=
  if !b.on SN_STATUS.VALID then 0 else
  let s := b.atSnap
  if !s.on TL_LMAP.VALID 0 l then 0 else
  let p := s.siteOf l
  let got := fun (k : Blk) o => (b.snapWord ⟨k, p, o⟩).getD 0
  if o < 0x600 then got .tl o
  else if o < 0x630 then got .tw (o - 0x600)
  else if o < 0x700 then 0
  else if o < 0x710 then got .fr (o - 0x700)
  else if o < 0x800 then 0
  else if o < 0x828 then got .fr o
  else if o = 0xF00 then p + (NSet.mem b.snap.present p).toNat * 2 ^ 10
  else 0

/-- The copy SN_RD_SEL selects (R652): KIND 0 a site's, KIND 1 a register by its offset. -/
def Block.snapSel (b : Block) : Option Nat :=
  let o := b.rd SN_RD_SEL.OFFSET
  if !b.on SN_RD_SEL.KIND then
    match tilePlace (b.rd SN_RD_SEL.SITE) 0 (o % 0x4000) with
    | .reg r => if o < 0x4000 then b.snapWord r else none
    | _ => none
  else
    match b.atSnap.regPlace o with
    | .reg r => b.snapWord r
    | _ => none

/-! ### Accesses -/

/-- A field as a read returns it (R7), a measured one as a free value. -/
def Block.readOne (b : Block) (f : Field) (i j : Nat) : Nat × Block :=
  if f.acc = .wo then (0, b)
  else if f.id = SN_RD_DATA.DATA.id then (b.snapSel.getD 0, b)
  else if f.id = SN_RD_SEL.PRESENT.id then (b.snapSel.isSome.toNat, b)
  else if f.measured then
    let (v, b) := b.draw f.width
    (v, b.afterRead f (f.home i) j)
  else (b.fieldNow f i j, b.afterRead f (f.home i) j)

/-- Read a whole register: each field's value, RC fields clearing (R7, R8). -/
def Block.readReg (b : Block) (r : RegAt) : Nat × Block :=
  r.fields.foldl (fun (acc : Nat × Block) x =>
    let (v, b) := acc.2.readOne x.1 r.inst x.2
    (acc.1 + v * 2 ^ x.1.lo, b)) (0, b)

/-- The record of an unmapped or malformed register access (R82): cause 1 no register, 2 unaligned or narrow. -/
def Block.unmapped (b : Block) (ctx off cause : Nat) : Block :=
  b.report { cls := 5, cause := cause, level := 4, ctx := some ctx, addr := regBase + off }

/-- A read of the register space (R82): anything but a naturally aligned 8-byte read, and a read of no register, gives
0 and a record. -/
def Block.regRead (b : Block) (ctx off n : Nat) : Nat × Block :=
  if n ≠ 8 ∨ off % 8 ≠ 0 then (0, b.unmapped ctx off 2)
  else
    match b.regPlace off with
    | .none => (0, b.unmapped ctx off 1)
    | .snap l o => (b.snapTile l o, b)
    | .reg r => if r.fields.isEmpty then (0, b.unmapped ctx off 1) else b.readReg r

/-- A write to the register space by a master other than this file's caller's register path: it is carried out in the
same command, after the instruction that makes it (R82). -/
def Block.regPost (b : Block) (ctx off n v : Nat) : Block := { b with regQ := b.regQ ++ [(ctx, off, n, v)] }

end Sys2Proof.Machine
end

