-- ==== Sys2Proof/Machine/SnapOps.lean ====
section
/-! DEFINITION. Machine/SnapOps.lean: a snapshot trigger (R646 to R650, R653). -/

namespace Sys2Proof.Machine
open Reg

/-- Pins the module drives: SNAP_OUT_N, ALERT_N, THERM_TRIP_N, PWR_GOOD, the 1PPS output. -/
def pinSnapOut : Nat := 0
/-- ALERT_N. -/
def pinAlert : Nat := 1
/-- THERM_TRIP_N. -/
def pinTherm : Nat := 2
/-- PWR_GOOD. -/
def pinGood : Nat := 3
/-- The 1PPS output. -/
def pinPps : Nat := 4

/-- Sites that latch (R653): not DISABLED, not of an isolated die, not of a sleeping region. -/
def Block.latchSites (b : Block) : NSet :=
  (List.range 576).filter (fun p => b.rd TL_SITE.STATE 0 p != 3 && !NSet.mem b.isolated (p / 72) && !b.asleep (p / 18))

/-- Latch every register (R646, R648) for source `src` with argument `arg`: the copy begins. -/
def Block.snapLatch (b : Block) (src arg : Nat) : Block :=
  let (seed, b) := b.freshSeed
  let (ns, b) := b.draw 30
  let (sec, b) := b.draw 34
  let st : Snap := { regs := b.latchRegs, present := b.latchSites, cut := 0, meas := seed, queues := b.bk.queues, qps := b.qps,
                     terminated := b.terminated, log := b.lc.log, tags := b.tags, send := b.dm.send, recv := b.dm.recv }
  let b := { b with snap := st }
  ((((((((b.wr SN_CTRL.ARMED 0).wr SN_STATUS.VALID 0).wr SN_STATUS.PARTIAL 0).wr SN_STATUS.COPY_BUSY 1).wr
    SN_STATUS.SOURCE src).wr SN_TICK.TICK b.now).wr SN_TIME.NS ns).wr SN_TIME.SEC sec).wr SN_INFO.ARG arg

/-- A snapshot trigger (R648, R649): SNAP_OUT_N pulses low; the trigger latches where its source is enabled, the snapshot
armed and no copy runs, and counts in MISSED otherwise. -/
def Block.snapTrigger (b : Block) (src arg : Nat) : Block :=
  let b := (b.emit (.pin pinSnapOut false)).inc SN_CNT.TRIGGERS
  if bit (b.rd SN_CTRL.SRC_EN) src ∧ b.on SN_CTRL.ARMED ∧ !b.on SN_STATUS.COPY_BUSY then b.snapLatch src arg
  else b.inc SN_CNT.MISSED

end Sys2Proof.Machine
end

