-- ==== Sys2Proof/Machine/Code.lean ====
section
/-! DEFINITION. Machine/Code.lean: the end-to-end check code RS(18,16) over GF(2⁸) (R377, R378, R379). A stored word is
kept as its data and the deviation of its stored code from the correct code, which fixes the code and the syndromes. -/

namespace Sys2Proof.Machine

/-- Multiply by α = 0x02 modulo x⁸ + x⁴ + x³ + x² + 1 (R377). -/
def gfX (a : Nat) : Nat := if a < 128 then 2 * a else (2 * a - 256) ^^^ 0x1D

/-- Multiply in GF(2⁸): `n` steps of shift and add. -/
def gfMulN : Nat → Nat → Nat → Nat
  | 0, _, _ => 0
  | n + 1, a, c => (if c % 2 = 1 then a else 0) ^^^ gfMulN n (gfX a) (c / 2)

/-- Product in GF(2⁸). -/
def gfMul (a c : Nat) : Nat := gfMulN 8 a c

/-- αᵏ. -/
def alpha : Nat → Nat
  | 0 => 1
  | k + 1 => gfX (alpha k)

/-- The syndromes (S0, S1) of 18 symbols (R377). -/
def syndromes (c : List Nat) : Nat × Nat :=
  let z := c.zip (List.range c.length)
  (c.foldl (· ^^^ ·) 0, z.foldl (fun s p => s ^^^ gfMul p.1 (alpha p.2)) 0)

/-- The 16 data symbols of a word. -/
def symbols (data : Nat) : List Nat := (List.range 16).map (fun i => bits data (8 * i) 8)

/-- a⁻¹ in GF(2⁸): a²⁵⁴. -/
def gfInv (a : Nat) : Nat :=
  let a2 := gfMul a a
  let a4 := gfMul a2 a2
  let a8 := gfMul a4 a4
  let a16 := gfMul a8 a8
  let a32 := gfMul a16 a16
  let a64 := gfMul a32 a32
  let a128 := gfMul a64 a64
  gfMul a128 (gfMul a64 (gfMul a32 (gfMul a16 (gfMul a8 (gfMul a4 a2)))))

/-- The correct 16-bit code of a 128-bit word: the pair c₁₆, c₁₇ that makes S0 = S1 = 0 (R377). -/
def encodeWord (data : Nat) : Nat :=
  let s := syndromes (symbols data)
  let c17 := gfMul (s.2 ^^^ gfMul s.1 (alpha 16)) (gfInv (alpha 16 ^^^ alpha 17))
  (s.1 ^^^ c17) + 256 * c17

/-- The stored code of a word. -/
def Cw.code (w : Cw) : Nat := encodeWord w.data ^^^ w.dev

/-- A word read as `data` with stored code `code`. -/
def Cw.ofCode (data code : Nat) : Cw := ⟨data, code ^^^ encodeWord data⟩

/-- A word with a fresh, correct code. -/
def Cw.clean (data : Nat) : Cw := ⟨data % 2 ^ 128, 0⟩

/-- The poisoned form: the same data, the correct code XOR 0xFFFF (R377, R379). -/
def Cw.poison (data : Nat) : Cw := ⟨data % 2 ^ 128, 0xFFFF⟩

/-- A word carries the poison syndrome. -/
def Cw.isPoison (w : Cw) : Bool := w.dev == 0xFFFF

/-- What a checking point finds (R378). -/
inductive Check where
  | clean | poison | corrected | uncorrectable
  deriving DecidableEq, Repr

/-- The symbol position k ≤ 17 with αᵏ = S1 / S0, if there is one. -/
def locate (s0 s1 : Nat) : Option Nat :=
  (List.range 18).find? (fun k => gfMul s0 (alpha k) == s1)

/-- The syndromes of a stored word: the correct code makes both 0 and the code is linear, so they are those of the
deviation alone. -/
def Cw.synd (w : Cw) : Nat × Nat :=
  let d16 := w.dev % 256
  let d17 := w.dev / 256
  (d16 ^^^ d17, gfMul d16 (alpha 16) ^^^ gfMul d17 (alpha 17))

/-- The procedure of R378, with the word that leaves the checking point (R379): corrected with a fresh code, or in its
poisoned form. `correcting` is the mode. -/
def checkWord (correcting : Bool) (w : Cw) : Check × Cw :=
  let s := w.synd
  if s.1 = 0 ∧ s.2 = 0 then (.clean, w)
  else if s.1 = 0 ∧ s.2 = gfMul 0xFF (alpha 16 ^^^ alpha 17) then (.poison, w)
  else if s.1 ≠ 0 ∧ correcting then
    match locate s.1 s.2 with
    | some k => if k < 16 then (.corrected, Cw.clean (w.data ^^^ (s.1 * 2 ^ (8 * k)))) else (.corrected, Cw.clean w.data)
    | none => (.uncorrectable, Cw.poison w.data)
  else (.uncorrectable, Cw.poison w.data)

end Sys2Proof.Machine
end

