-- ==== Sys2Proof/Machine/Mem.lean ====
section
/-! DEFINITION. Machine/Mem.lean: the memory controllers with their checks and
captures (R365 to R382), context tags (R419, R420), snoop filters and region caches (R384 to R394). -/

namespace Sys2Proof.Machine
open Reg

/-! ### Bytes and words -/

/-- What an unlisted byte reads as: 0, or a free byte where the content of its part is undefined. -/
def Mem.dflt (m : Mem) (key : Nat) : Byte :=
  let s := SMap.get 0 m.seeds (domainOf key)
  if s = 0 then 0 else BitVec.ofNat 8 (Config.freeAt s (if key < 0x0200_0000_0000 then key else key % 2 ^ 22))

/-- Read one byte. -/
def Mem.loadB (m : Mem) (key : Nat) : Byte := SMap.get (m.dflt key) m.cells key

/-- Write one byte. -/
def Mem.storeB (m : Mem) (key : Nat) (v : Byte) : Mem := { m with cells := SMap.set (m.dflt key) m.cells key v }

/-- Write a list of bytes from a key on. -/
def Mem.storeBs (m : Mem) (key : Nat) : List Byte → Mem
  | [] => m
  | v :: r => (m.storeB key v).storeBs (key + 1) r

/-- Read `n` bytes from a key on. -/
def Mem.loadBs (m : Mem) (key n : Nat) : List Byte := (List.range n).map (fun k => m.loadB (key + k))

/-- The 128-bit word of index `w` (key div 16) with its code. -/
def Mem.word (m : Mem) (w : Nat) : Cw := ⟨leNat (m.loadBs (16 * w) 16), SMap.get 0 m.dev w⟩

/-- Store a 128-bit word with its code. -/
def Mem.setWord (m : Mem) (w : Nat) (v : Cw) : Mem :=
  { m.storeBs (16 * w) (leBytes 16 v.data) with dev := SMap.set 0 m.dev w (v.dev % 2 ^ 16) }

/-- The content of a part becomes undefined; every word reads with a valid code (R84, R370). -/
def Mem.undef (m : Mem) (dom seed : Nat) : Mem :=
  { cells := m.cells.filter (fun c => domainOf c.1 != dom)
    dev := m.dev.filter (fun c => domainOf (16 * c.1) != dom)
    seeds := SMap.set 0 m.seeds dom seed }

/-- The canonical form of memory: keys rise strictly and no byte listed is what it reads as unlisted. -/
def Mem.wf (m : Mem) : Bool := SMap.wf m.dflt m.cells && SMap.wf (fun _ => 0) m.dev

/-- Undefine a part of memory with a fresh seed. -/
def Block.undefMem (b : Block) (dom : Nat) : Block :=
  let (s, b) := b.freshSeed
  { b with mem := b.mem.undef dom s }

/-! ### Checks and captures -/

/-- Row log (R396): an error in a logged row counts; a new row takes a free entry, or the one with the lowest CORR. -/
def Block.rowLog (b : Block) (i ch pc bank row : Nat) (unc : Bool) : Block :=
  let hit := (List.range 16).find? (fun e => b.on MEM_ROWLOG.VALID i e && b.rd MEM_ROWLOG.CHANNEL i e == ch
    && b.rd MEM_ROWLOG.PC i e == pc && b.rd MEM_ROWLOG.BANK i e == bank && b.rd MEM_ROWLOG.ROW i e == row)
  match hit with
  | some e => (b.inc MEM_ROWLOG.CORR 1 i e).whenB unc (fun b => b.wr MEM_ROWLOG.UNCORR 1 i e)
  | none =>
    let free := (List.range 16).find? (fun e => !b.on MEM_ROWLOG.VALID i e)
    let low := (List.range 16).foldl (fun best e =>
      if b.rd MEM_ROWLOG.CORR i e < b.rd MEM_ROWLOG.CORR i best then e else best) 0
    let e := free.getD low
    ((((((b.wr MEM_ROWLOG.CHANNEL ch i e).wr MEM_ROWLOG.PC pc i e).wr MEM_ROWLOG.BANK bank i e).wr
      MEM_ROWLOG.ROW row i e).wr MEM_ROWLOG.CORR 1 i e).wr MEM_ROWLOG.UNCORR unc.toNat i e).wr MEM_ROWLOG.VALID 1 i e

/-- The UNIT field of a record for a stack (kind 1) or a package (kind 2) (R566). -/
def unitOf (i ch : Nat) : Nat := if i < 12 then 0x1000 + i else 0x2000 + ch

/-- An uncorrectable word at a controller (R380, R566): count, capture, row log and memory fault record. `src` is
MEM_ERR_FIRST.SRC: 0 read, 1 scrub, 2 write, 3 migration. -/
def Block.memErr (b : Block) (a src : Nat) : Block :=
  let (i, ch, pc, bank, row) := b.locOf a
  let tl := b.now % 2 ^ 26
  let first := 1 + src * 4 + ch % 32 * 16 + pc * 512 + tl * 1024
  let b := b.inc MEM_ERR_CNT.UNCORRECTABLE 1 i
  let b := if b.on MEM_ERR_FIRST.VALID i then b.wr MEM_ERR_FIRST.MORE 1 i
    else (((((b.wr MEM_ERR_FIRST.VALID 1 i).wr MEM_ERR_FIRST.SRC src i).wr MEM_ERR_FIRST.CHANNEL ch i).wr
      MEM_ERR_FIRST.PC pc i).wr MEM_ERR_FIRST.TICK_LO tl i).wr MEM_ERR_ADDR.OFFSET a i
  let b := b.rowLog i ch pc bank row true
  b.report { cls := 6, cause := src + 1, level := 4, unit := unitOf i ch, addr := a, aux1 := first, aux2 := a }

/-- A corrected word at a controller. -/
def Block.memCorr (b : Block) (a : Nat) : Block :=
  let (i, ch, pc, bank, row) := b.locOf a
  (b.inc MEM_ERR_CNT.CORRECTED 1 i).rowLog i ch pc bank row false

/-- A controller corrects single-symbol errors while ECC_MODE is 0. -/
def Block.correcting (b : Block) (a : Nat) : Bool := b.rd MEM_CTRL.ECC_MODE (b.locOf a).1 == 0

/-- Store a word at a local offset. -/
def Block.putWord (b : Block) (a : Nat) (w : Cw) : Block :=
  { b with mem := b.mem.setWord (b.keyOf a / 16) w }

/-- The stored word at a local offset. -/
def Block.getWord (b : Block) (a : Nat) : Cw := b.mem.word (b.keyOf a / 16)

/-- A check of a word at its controller (R380): read, scrub and migration, by `src`. Corrected and poisoned forms are
written back. -/
def Block.ctlRead (b : Block) (a src : Nat) : Cw × Block :=
  match checkWord (src == 3 || b.correcting a) (b.getWord a) with
  | (.clean, w) => (w, b)
  | (.poison, w) => (w, b)
  | (.corrected, w) => (w, (b.putWord a w).memCorr a)
  | (.uncorrectable, w) => (w, (b.putWord a w).memErr a src)

/-- A write of a whole word at its controller (R380). -/
def Block.ctlWrite (b : Block) (a : Nat) (w : Cw) : Block :=
  match checkWord (b.correcting a) w with
  | (.clean, w) => b.putWord a w
  | (.poison, w) => b.putWord a w
  | (.corrected, w) => (b.putWord a w).memCorr a
  | (.uncorrectable, w) => (b.putWord a w).memErr a 2

/-- Lay bytes over a word from byte `off`. -/
def overlay (data off : Nat) (bs : List Byte) : Nat :=
  setBits data (8 * off) (8 * bs.length) (leNat bs)

/-- The word a partial write leaves (R141, R380), checked in correcting mode, and whether the old word was
uncorrectable. A word that was poisoned stays poisoned. -/
def mergeWord (w : Cw) (off : Nat) (bs : List Byte) (pois : Bool) : Cw × Check :=
  let r := checkWord true w
  let d := overlay r.2.data off bs
  match r.1 with
  | .clean => (if pois then Cw.poison d else Cw.clean d, .clean)
  | .poison => (Cw.poison d, .poison)
  | .corrected => (if pois then Cw.poison d else Cw.clean d, .corrected)
  | .uncorrectable => (Cw.poison d, .uncorrectable)

/-- A partial write at a controller. -/
def Block.ctlMerge (b : Block) (a off : Nat) (bs : List Byte) (pois : Bool) : Block :=
  match mergeWord (b.getWord a) off bs pois with
  | (w, .corrected) => (b.putWord a w).memCorr a
  | (w, .uncorrectable) => (b.putWord a w).memErr a 2
  | (w, _) => b.putWord a w

/-! ### Local stores -/

/-- The tile fault record of an uncorrectable local store word (R380). -/
def Block.lsErr (b : Block) (p off : Nat) : Block :=
  b.report { cls := 8, cause := 1, level := 0, unit := b.tileOf p, site := p, addr := off }

/-- Read a word of a site's local store at offset `off`, checked in correcting mode (R380). -/
def Block.lsRead (b : Block) (p off : Nat) : Cw × Block :=
  let k := lsKey p off / 16
  match checkWord true (b.mem.word k) with
  | (.clean, w) => (w, b)
  | (.poison, w) => (w, b)
  | (.corrected, w) => (w, { b with mem := b.mem.setWord k w })
  | (.uncorrectable, w) => (w, { b with mem := b.mem.setWord k w }.lsErr p off)

/-- Write bytes into one word of a site's local store. A whole word replaces it; a part of one merges (R141). -/
def Block.lsWrite (b : Block) (p off : Nat) (bs : List Byte) (pois : Bool) : Block :=
  let k := lsKey p off / 16
  if off % 16 = 0 ∧ bs.length = 16 then
    { b with mem := b.mem.setWord k (if pois then Cw.poison (leNat bs) else Cw.clean (leNat bs)) }
  else
    match mergeWord (b.mem.word k) (off % 16) bs pois with
    | (w, .uncorrectable) => { b with mem := b.mem.setWord k w }.lsErr p off
    | (w, _) => { b with mem := b.mem.setWord k w }

/-! ### Context tags -/

/-- The context tag of the granule of a local offset as its holder has it (R419). -/
def Block.tagAt (b : Block) (a : Nat) : Nat := SMap.get 0xFFF b.tags (a / 2 ^ 21)

/-- The tag check of R419. -/
def tagPasses (tag ctx : Nat) : Bool := tag == 0xFFF || tag == ctx || ctx == 0xFFF

/-- Does the access pass the tag check at the holder? Registers and lock windows are never checked. -/
def Block.tagOk (b : Block) (ctx a : Nat) : Bool :=
  match b.place a with
  | .hbm _ _ => tagPasses (b.tagAt a) ctx
  | .peat _ => tagPasses (b.tagAt a) ctx
  | .store _ _ => tagPasses (b.tagAt a) ctx
  | _ => true

/-- A tag failure: one record of class CONTEXT_TAG with the granule, the context and the tag (R420), and the count. -/
def Block.tagFail (b : Block) (ctx a : Nat) : Block :=
  (b.inc XL_FAULT_CNT.TAG).report
    { cls := 3, cause := 13, level := 4, ctx := some ctx, addr := a, aux0 := b.tagAt a, aux1 := a / 2 ^ 21 }

/-! ### Absent and failed memory -/

/-- A record of class ABSENT (R81, R373, R375): cause 1 read, 2 write, 3 failed stack, 4 failed package. -/
def Block.absentRec (b : Block) (cause ctx a unit : Nat) : Block :=
  b.report { cls := 4, cause := cause, level := 4, ctx := some ctx, unit := unit, addr := a }

/-- An access to a failed package: the first writes a record, each later one counts (R375). -/
def Block.pkgAccess (b : Block) (p ctx a : Nat) : Block :=
  if NSet.mem b.pkgSeen p then b.inc MEM_PKGMAP.FAILED_ACC 1 (12 + p / 4)
  else { b with pkgSeen := NSet.add b.pkgSeen p }.absentRec 4 ctx a (0x2000 + p)

/-- A module-fatal fault (R571): one record of class 21, boundaries stop, Bracken and Damask stop. Causes: 1 die
isolated, 2 stack FAILED, 3 modified cache entry parity. -/
def Block.moduleFatal (b : Block) (cause level unit : Nat) : Block :=
  let b := b.report { cls := 21, cause := cause, level := level, severity := 3, unit := unit }
  { b with tick := { b.tick with fatal := true } }

/-- Has the package that holds a peat offset failed? -/
def Block.pkgFailed (b : Block) (o : Nat) : Option Nat :=
  let p := (peatHash b.pkgMask o).1
  if bit (b.rd MEM_PKGMAP.FAILED (12 + p / 4)) (p % 4) then some p else none

/-- Is the die of a logical tile isolated (R68)? -/
def Block.dieOff (b : Block) (l : Nat) : Bool := NSet.mem b.isolated (l / 64)

/-- Why no memory answers at a local offset. -/
inductive Miss where
  | absent
  | stack (m : Nat)
  | pkg (p : Nat)
  deriving DecidableEq, Repr

/-- Does HBM or peat answer at a local offset: none, or why not (R81, R373, R375)? -/
def Block.memMiss (b : Block) (a : Nat) : Option Miss :=
  match b.place a with
  | .hbm m _ => if b.rd MEM_STATUS.STATE m = 3 then some (.stack m) else none
  | .peat o => (b.pkgFailed o).map .pkg
  | .absent => some .absent
  | _ => none

/-- The record of an access that no memory answers. -/
def Block.missRec (b : Block) (write : Bool) (ctx a : Nat) : Miss → Block
  | .absent => b.absentRec (if write then 2 else 1) ctx a 0
  | .stack m => b.absentRec 3 ctx a (0x1000 + m)
  | .pkg p => b.pkgAccess p ctx a

/-- The reasons among the words an access touches, each with the first address it holds at. -/
def firstMisses : List (Option Miss × Nat) → List (Miss × Nat)
  | [] => []
  | (none, _) :: r => firstMisses r
  | (some m, a) :: r => (m, a) :: (firstMisses r).filter (fun x => x.1 != m)

/-- An access of several words: one record for it per reason, not per word (R81, R373, R375, R381). -/
def Block.missRecs (b : Block) (write : Bool) (ctx : Nat) (ms : List (Option Miss × Nat)) : Block :=
  b.each (firstMisses ms) (fun b x => b.missRec write ctx x.2 x.1)

/-! ### Snoop filters -/

/-- Check the words of a cached line in correcting mode as it is recalled, evicted or flushed (R380, R402): the words that
leave it; a word found uncorrectable is passed on poisoned with the region's record. -/
def Block.checkWords (b : Block) (region line : Nat) : Nat → List Cw → List Cw × Block
  | _, [] => ([], b)
  | i, w :: ws =>
    let r := checkWord true w
    let b := match r.1 with
      | .uncorrectable => (b.inc RC_ERR_CNT.POISONED 1 region).report
          { cls := 7, cause := 1, level := 2, unit := region, addr := line * 128 + 16 * i }
      | .corrected => b.inc RC_ERR_CNT.CORRECTED 1 region
      | _ => b
    let (vs, b) := b.checkWords region line (i + 1) ws
    (r.2 :: vs, b)

/-- Store the words of a line at its controller from word `i` on; a word found uncorrectable brings no second record
(R402). -/
def Block.putWords (b : Block) (line : Nat) : Nat → List Cw → Block
  | _, [] => b
  | i, w :: ws => (b.putWord (line * 128 + 16 * i) w).putWords line (i + 1) ws

/-- Write back a modified line at its controller: its words as they leave the line, and the state after. A FAILED stack and
a failed package discard it with the record of an access (R373, R375), under the system context: no step makes it
(assumption log 54). -/
def Block.writeBackWords (b : Block) (ln : RcLine) : List Cw × Block :=
  let (ws, b) := b.checkWords ln.region ln.line 0 ln.words
  match b.memMiss (ln.line * 128) with
  | some m => (ws, b.missRec true 0xFFF (ln.line * 128) m)
  | none => (ws, b.putWords ln.line 0 ws)

/-- Write back a modified line at its controller. -/
def Block.writeBack (b : Block) (ln : RcLine) : Block := (b.writeBackWords ln).2

/-- The line as region `r` holds it. -/
def Block.rcFind (b : Block) (r line : Nat) : Option RcLine :=
  b.rc.find? (fun x => x.region == r && x.line == line)

/-- Put a line in place of the one the region holds. -/
def Block.rcPut (b : Block) (x : RcLine) : Block :=
  { b with rc := b.rc.map (fun y => if y.region == x.region && y.line == x.line then x else y) }

/-- Remove a line from a region. -/
def Block.rcDrop (b : Block) (r line : Nat) : Block :=
  { b with rc := b.rc.filter (fun y => !(y.region == r && y.line == line)) }

/-- Recall a modified copy: it is written back, and its region keeps it shared, with its words as they were checked
(R380, R386). -/
def Block.recall (b : Block) (line : Nat) : Block :=
  match b.rc.find? (fun x => x.line == line && x.st == .modified) with
  | none => b
  | some x =>
    let (ws, b) := b.writeBackWords x
    { b.rcPut { x with st := .shared, words := ws } with
      sf := b.sf.map (fun e => if e.line == line then { e with owner := none } else e) }

/-- Recall a modified copy and invalidate every unlocked copy but that of region `keep` (R386). -/
def Block.recallInval (b : Block) (line : Nat) (keep : Option Nat) : Block :=
  let b := match b.rc.find? (fun x => x.line == line && x.st == .modified && some x.region != keep) with
    | some x => b.writeBack x
    | none => b
  { b with
    rc := b.rc.filter (fun x => x.line != line || x.st == .locked || some x.region == keep)
    sf := match keep with
      | none => b.sf.filter (fun e => e.line != line)
      | some r => b.sf.map (fun e => if e.line == line then { e with regions := e.regions.filter (· == r) } else e) }

/-- Filter entries a controller holds at most (R387). -/
def sfSize (i : Nat) : Nat := if i < 12 then 262144 else 131072

/-- The entry that a full filter of a controller displaces (R387): an old one, and which one no rule says (a free value,
assumption log 35). -/
def Block.sfVictim (b : Block) (i : Nat) : Option SfEntry × Block :=
  let mine := b.sf.filter (fun e => b.lineInst e.line == i)
  if mine.length < sfSize i then (none, b)
  else
    let (v, b) := b.draw 32
    (mine[v % mine.length]?, b)

/-- Enter a region for a line in the snoop filter; a full filter displaces an entry, whose copies are recalled and
invalidated first (R386, R387). -/
def Block.sfEnter (b : Block) (r line : Nat) (own : Bool) : Block :=
  let o := if own then some r else none
  if b.sf.any (fun e => e.line == line) then
    { b with sf := b.sf.map (fun e => if e.line == line
        then { e with regions := NSet.add e.regions r, owner := if own then o else e.owner } else e) }
  else
    let i := b.lineInst line
    let (v, b) := b.sfVictim i
    let b : Block := match v with
      | some old => (b.recallInval old.line none).inc MEM_SF_STATUS.BACK_INVAL 1 i
      | none => b
    { b with sf := b.sf ++ [(⟨line, [r], o⟩ : SfEntry)] }

/-- A line leaves a region: the filter forgets it there. -/
def Block.sfLeave (b : Block) (r line : Nat) : Block :=
  { b with sf := (b.sf.map (fun e => if e.line == line
      then { e with regions := e.regions.filter (· != r), owner := if e.owner == some r then none else e.owner }
      else e)).filter (fun e => !e.regions.isEmpty) }

/-- Check one word of a cached line in correcting mode (R380): corrected words are rewritten in the line. -/
def Block.rcCheck (b : Block) (x : RcLine) (i : Nat) : Cw × Block :=
  match checkWord true (x.words.getD i (Cw.clean 0)) with
  | (.corrected, w) => (w, (b.inc RC_ERR_CNT.CORRECTED 1 x.region).rcPut { x with words := x.words.set i w })
  | (.uncorrectable, w) =>
    (w, ((b.inc RC_ERR_CNT.POISONED 1 x.region).rcPut { x with words := x.words.set i w }).report
      { cls := 7, cause := 1, level := 2, unit := x.region, addr := x.line * 128 + 16 * i })
  | (_, w) => (w, b)

/-! ### Lock windows -/

/-- Slice of a line (R384). -/
def sliceOf (line : Nat) : Nat := bits line 0 3 ^^^ bits line 3 3 ^^^ bits line 6 3 ^^^ bits line 9 3

/-- Set of a line within its slice (R384). -/
def setOf (line : Nat) : Nat := bits line 3 9 ^^^ bits line 12 9 ^^^ bits line 21 9

/-- The position a lock window offset names: slice, way, set (R393). -/
def lockPos (w : Nat) : Nat × Nat × Nat := (bits w 20 3, bits w 16 4, bits w 7 9)

/-- The locked line at a lock window offset of region `r`. -/
def Block.lockedAt (b : Block) (r w : Nat) : Option RcLine :=
  let (sl, way, set) := lockPos w
  if bit (b.rd RC_CTRL.LOCK_MASK r) way then
    b.rc.find? (fun x => x.region == r && x.st == .locked && x.way == way && sliceOf x.line == sl && setOf x.line == set)
  else none

/-- The stored word of a locked line at a lock window offset, with its code (R393); poison where the die is isolated (R68)
or no line is. -/
def Block.lockWord (b : Block) (r w : Nat) : Cw :=
  if NSet.mem b.isolated (r / 4) then Cw.poison 0 else
  match b.lockedAt r w with
  | some x => x.words.getD (w % 128 / 16) (Cw.clean 0)
  | none => Cw.poison 0

/-- A word read through the lock window by a requester that keeps bytes and forms codes of its own: it is checked as at a
read hit, since no code is formed over data that was not checked (R379; DESIGN CHOICE, assumption log 54). -/
def Block.lockRead (b : Block) (r w : Nat) : Cw × Block :=
  if NSet.mem b.isolated (r / 4) then (Cw.poison 0, b) else
  match b.lockedAt r w with
  | some x => b.rcCheck x (w % 128 / 16)
  | none => (Cw.poison 0, b)

/-- A write of stored words through the lock window (R393): one line position, 16 bytes. -/
def Block.lockWrite (b : Block) (r w : Nat) (ms : MBytes) : Bool × Block :=
  if NSet.mem b.isolated (r / 4) then (true, b) else
  match b.lockedAt r w with
  | some x =>
    let v := leNat ms.bytes
    (true, b.rcPut { x with words := x.words.set (w % 128 / 16) (if ms.pois then Cw.poison v else Cw.clean v) })
  | none => (false, b)

/-- Why no memory answers at a local offset, lock windows included (R393). -/
def Block.missAt (b : Block) (a : Nat) : Option Miss :=
  match b.place a with
  | .lockWin r w => if NSet.mem b.isolated (r / 4) || (b.lockedAt r w).isSome then none else some .absent
  | _ => b.memMiss a

/-! ### Accesses at the holder -/

/-- `n` bytes of a word from byte `off`, with its poison mark. -/
def Cw.slice (w : Cw) (off n : Nat) : MBytes := (leBytes n (w.data / 2 ^ (8 * off))).map (fun x => (x, w.isPoison))

/-- Does a reset of the tile or of its region run (R605)? -/
def Block.resetting (b : Block) (l : Nat) : Bool :=
  match b.rst with
  | some r => r.begun && ((r.op == 0 && r.target == l) || (r.op == 1 && r.target == l / 16))
  | none => false

/-- Are requests to a tile's window held: a retirement copy into its new site runs (R62), or its reset (R605)? -/
def Block.held (b : Block) (l : Nat) : Bool := b.retires.any (fun r => r.l == l && r.copying) || b.resetting l

/-- Hold a request to a tile until the copy or the reset ends. -/
def Block.holdReq (b : Block) (l : Nat) (q : HeldReq) : Block := { b with heldQ := b.heldQ ++ [(l, q)] }

/-- The effect of a held write on the local store it goes to. -/
def Block.heldStore (b : Block) (p : Nat) : HeldReq → Block
  | .store _ _ off bs => b.lsWrite p off bs.bytes bs.pois
  | _ => b

/-- A word of a held tile's window as a requester that holds no read finds it (R62, R605): after the requests held before it,
it is what the copy or the reset leaves there. -/
def Block.heldRead (b : Block) (l off : Nat) : Cw :=
  let p := match b.retires.find? (fun r => r.l == l && r.copying) with
    | some r => r.oldSite
    | none => b.siteOf l
  let c := (b.heldQ.filter (fun x => x.1 == l)).foldl (fun (c : Block) x => c.heldStore p x.2) b
  (c.lsRead p off).1

/-- The logical tile whose register window an offset of the register space lies in (R83). -/
def windowTile (off : Nat) : Option Nat :=
  if 0x100_0000 ≤ off ∧ off < 0x100_0000 + 512 * 0x4000 then some ((off - 0x100_0000) / 0x4000) else none

/-- The tile whose requests are held, where a local offset lies in the window of one: its local store or its registers. -/
def Block.heldTile (b : Block) (a : Nat) : Option Nat :=
  let t := match b.place a with
    | .store l _ => some l
    | .regs off => windowTile off
    | _ => none
  t.filter (fun l => b.held l && !b.dieOff l)

/-- Does a local offset lie in the window of a tile whose requests are held? -/
def Block.heldAt (b : Block) (a : Nat) : Bool := (b.heldTile a).isSome

/-- Hold a request to the tile at a local offset, or do something else with it where nothing holds it. -/
def Block.orHold (b : Block) (a : Nat) (q : HeldReq) (f : Block → Block) : Block :=
  match b.heldTile a with
  | some l => b.holdReq l q
  | none => f b

/-- A word of HBM or peat read at its controller for a request that passes the caches (R386); poison where none answers. -/
def Block.memRead (b : Block) (a : Nat) : Cw × Block :=
  match b.memMiss a with
  | some _ => (Cw.poison 0, b)
  | none => (b.recall (a / 128)).ctlRead (a / 16 * 16) 0

/-- Bytes written into a word of HBM or peat at its controller by a request that passes the caches (R386); discarded where
none answers. -/
def Block.memWrite (b : Block) (a : Nat) (bs : List Byte) (pois : Bool) : Block :=
  match b.memMiss a with
  | some _ => b
  | none =>
    let b := b.recallInval (a / 128) none
    if a % 16 = 0 ∧ bs.length = 16 then b.ctlWrite a (if pois then Cw.poison (leNat bs) else Cw.clean (leNat bs))
    else b.ctlMerge (a / 16 * 16) (a % 16) bs pois

/-- One word read at its holder by a request that passes the caches (R385, R386): the word, and the state after checks and
recalls. Absent, failed and isolated memory returns poison. -/
def Block.holderRead (b : Block) (a : Nat) : Cw × Block :=
  match b.place a with
  | .hbm _ _ => b.memRead a
  | .peat _ => b.memRead a
  | .store l off =>
    if b.dieOff l then (Cw.poison 0, b)
    else if b.held l then (b.heldRead l (off / 16 * 16), b)
    else b.lsRead (b.siteOf l) (off / 16 * 16)
  | .regs _ => (Cw.clean 0, b)
  | .lockWin r w => b.lockRead r w
  | .absent => (Cw.poison 0, b)

/-- Write bytes into one word at its holder (R386, R380). False: the address is absent and the write is discarded. -/
def Block.holderWrite (b : Block) (ctx a : Nat) (ms : MBytes) : Bool × Block :=
  match b.place a with
  | .hbm _ _ => (true, b.memWrite a ms.bytes ms.pois)
  | .peat _ => (true, b.memWrite a ms.bytes ms.pois)
  | .store l off =>
    if b.dieOff l then (true, b)
    else if b.held l then (true, b.holdReq l (.store ctx b.dm.uid off ms))
    else (true, b.lsWrite (b.siteOf l) off ms.bytes ms.pois)
  | .regs _ => (true, b)
  | .lockWin r w => b.lockWrite r w ms
  | .absent => (false, b)

/-- The pieces of a range of bytes that fall into one 128-bit word each: address and length. -/
def pieces (a n : Nat) : List (Nat × Nat) :=
  if n = 0 then [] else
  (List.range ((a + n - 1) / 16 - a / 16 + 1)).map (fun k =>
    let w := (a / 16 + k) * 16
    let lo := max a w
    (lo, min (a + n) (w + 16) - lo))

/-- Why no memory answers, for each word of a range. -/
def Block.missesOf (b : Block) (a n : Nat) : List (Option Miss × Nat) :=
  (pieces a n).map (fun pc => (b.missAt pc.1, pc.1))

/-- What a read gives: its bytes, whether a word was poisoned, and whether the tag check failed (then no data). -/
structure RdRes where
  data : MBytes
  tagFail : Bool
  deriving DecidableEq, Repr

/-- Its bytes. -/
def RdRes.bytes (r : RdRes) : List Byte := r.data.bytes
/-- Is a byte of it poisoned? -/
def RdRes.pois (r : RdRes) : Bool := r.data.pois

/-- The 2 MiB granules a range touches each pass the tag check; the first failing address otherwise. -/
def Block.tagCheck (b : Block) (ctx a n : Nat) : Option Nat :=
  if !b.tagOk ctx a then some a
  else if n > 0 ∧ !b.tagOk ctx (a + n - 1) then some (a + n - 1) else none

/-- A read at the holders under a context (stages 4 and 5 of R403). -/
def Block.mread (b : Block) (ctx a n : Nat) : RdRes × Block :=
  match b.tagCheck ctx a n with
  | some x => (⟨[], true⟩, b.tagFail ctx x)
  | none =>
    match b.place a with
    | .regs off =>
      let (v, b) := b.regRead ctx off n
      (⟨plain (leBytes n v), false⟩, b)
    | _ =>
    let b := b.missRecs false ctx (b.missesOf a n)
    let (bs, b) := (pieces a n).foldl (fun (acc : MBytes × Block) pc =>
      let (w, b) := acc.2.holderRead pc.1
      (acc.1 ++ w.slice (pc.1 % 16) pc.2, b)) ([], b)
    (⟨bs, false⟩, b)

/-- What a write meets. -/
inductive WrRes where
  | ok | absent | tag
  deriving DecidableEq, Repr

/-- A write at the holders under a context. -/
def Block.mwrite (b : Block) (ctx a : Nat) (bs : MBytes) : WrRes × Block :=
  match b.tagCheck ctx a bs.length with
  | some x => (.tag, b.tagFail ctx x)
  | none =>
    match b.place a, decide (a % 16 = 0 ∧ bs.length % 16 = 0) with
    | .regs off, _ =>
      let v := leNat bs.bytes
      (.ok, match windowTile off with
        | some l => if b.held l then b.holdReq l (.reg ctx off bs.length v) else b.regPost ctx off bs.length v
        | none => b.regPost ctx off bs.length v)
    | .lockWin _ _, false => (.absent, b.absentRec 2 ctx a 0)
    | _, _ =>
    let b := b.missRecs true ctx (b.missesOf a bs.length)
    let (ok, b) := (pieces a bs.length).foldl (fun (acc : Bool × Block) pc =>
      let (r, b) := acc.2.holderWrite ctx pc.1 ((bs.drop (pc.1 - a)).take pc.2)
      (acc.1 && r, b)) (true, b)
    (if ok then .ok else .absent, b)

/-- Read `n` whole words with their codes at the holders. -/
def Block.holderWords (b : Block) (a : Nat) : Nat → List Cw × Block
  | 0 => ([], b)
  | n + 1 =>
    let (w, b) := b.holderRead a
    let (ws, b) := b.holderWords (a + 16) n
    (w :: ws, b)

/-- Read whole words with their codes as one access: for transfers that move words unchanged (R161, R62). -/
def Block.mreadWords (b : Block) (ctx a n : Nat) : List Cw × Block :=
  (b.missRecs false ctx (b.missesOf a (16 * n))).holderWords a n

/-! ### Region caches -/

/-- Lines of region `r` in the set of `line`. -/
def Block.rcSet (b : Block) (r line : Nat) : List RcLine :=
  b.rc.filter (fun x => x.region == r && sliceOf x.line == sliceOf line && setOf x.line == setOf line)

/-- The key of a set's pseudo-LRU bits. -/
def plruKey (r line : Nat) : Nat := (r * 8 + sliceOf line) * 512 + setOf line

/-- Follow the tree from node `n` over `d` levels to an unlocked way (R388): bit 1 sends the search to the right half;
a half with no candidate is passed over. -/
def plruVictim (tree : Nat) (ok : Nat → Bool) : Nat → Nat → Nat → Nat
  | 0, _, lo => lo
  | d + 1, n, lo =>
    let half := 2 ^ d
    let anyL := (List.range half).any (fun k => ok (lo + k))
    let anyR := (List.range half).any (fun k => ok (lo + half + k))
    let right := if !anyL then true else if !anyR then false else bit tree n
    plruVictim tree ok d (if right then 2 * n + 1 else 2 * n) (if right then lo + half else lo)

/-- Mark a way used: every node on its path points to the other half. -/
def plruTouch (tree way : Nat) : Nat → Nat → Nat
  | 0, _ => tree
  | d + 1, n =>
    let right := bit way d
    plruTouch (setBits tree n 1 (if right then 0 else 1)) way d (if right then 2 * n + 1 else 2 * n)

/-- A use of a way of a set. -/
def Block.plruUse (b : Block) (r line way : Nat) : Block :=
  { b with plru := SMap.set 0 b.plru (plruKey r line) (plruTouch (SMap.get 0 b.plru (plruKey r line)) way 4 1) }

/-- The way a new unlocked line of a region takes: a free unlocked way, else the pseudo-LRU victim; none where every
way is reserved for locked lines (R388). -/
def Block.rcWay (b : Block) (r line : Nat) : Option Nat :=
  let mask := b.rd RC_CTRL.LOCK_MASK r
  let set := b.rcSet r line
  let ok := fun w => !bit mask w
  match (List.range 16).find? (fun w => ok w && !set.any (fun x => x.way == w)) with
  | some w => some w
  | none =>
    if (List.range 16).any ok then some (plruVictim (SMap.get 0 b.plru (plruKey r line)) ok 4 1 0) else none

/-- An entry whose parity is wrong leaves the cache (R390): a shared or locked one counts, a locked one sets LOCK_LOST and
writes a record, a modified one is a module-fatal fault. -/
def Block.badOut (b : Block) (x : RcLine) : Block :=
  match x.st with
  | .shared => ((b.inc RC_ERR_CNT.TAG_PARITY 1 x.region).rcDrop x.region x.line).sfLeave x.region x.line
  | .locked =>
    (((b.inc RC_ERR_CNT.TAG_PARITY 1 x.region).rcDrop x.region x.line).wr RC_STATUS.LOCK_LOST 1 x.region).report
      { cls := 7, cause := 2, level := 2, unit := x.region, addr := x.line * 128 }
  | .modified => ((b.rcDrop x.region x.line).sfLeave x.region x.line).moduleFatal 3 2 x.region

/-- A line leaves its region's cache (R388, R390): a modified one is written back. -/
def Block.rcOut (b : Block) (x : RcLine) : Block :=
  if x.bad then b.badOut x
  else if x.st = .locked then b.rcDrop x.region x.line
  else ((if x.st = .modified then b.writeBack x else b).rcDrop x.region x.line).sfLeave x.region x.line

/-- A lookup checks the parity of the entries of its set (R390): every bad one leaves, and the access proceeds. -/
def Block.rcLookup (b : Block) (r line : Nat) : Block :=
  b.each ((b.rcSet r line).filter (·.bad)) Block.badOut

/-- Evict whatever holds way `way` of the set. -/
def Block.rcEvict (b : Block) (r line way : Nat) : Block :=
  match (b.rcSet r line).find? (fun x => x.way == way) with
  | some v => b.rcOut v
  | none => b

/-- Read a whole line at its controller for a fill (R386): a modified copy elsewhere is recalled first. -/
def Block.fillWords (b : Block) (ctx line : Nat) : List Cw × Block := (b.recall line).mreadWords ctx (line * 128) 8

/-- Fill a line into a region's cache, shared or modified; the tag copy is the granule's tag (R419). A write of the
`whole` line allocates without a fill (R388). -/
def Block.rcFill (b : Block) (r ctx line : Nat) (modified : Bool) (whole : Bool := false) : Block :=
  match b.rcWay r line with
  | none => b
  | some way =>
    let b := b.rcEvict r line way
    let b := if modified then b.recallInval line (some r) else b
    let (ws, b) := if whole then (List.replicate 8 (Cw.clean 0), b) else b.fillWords ctx line
    let b := b.sfEnter r line modified
    ({ b with rc := b.rc ++ [{ region := r, line := line, way := way, st := if modified then .modified else .shared,
                               words := ws, tag := b.tagAt (line * 128), bad := false : RcLine }] }).plruUse r line way

/-- Read bytes of one line that a region holds. -/
def Block.rcReadHit (b : Block) (r line off n : Nat) : MBytes × Block :=
  (pieces off n).foldl (fun (acc : MBytes × Block) pc =>
    match acc.2.rcFind r line with
    | none => acc
    | some x =>
      let (w, b) := acc.2.rcCheck x (pc.1 / 16)
      (acc.1 ++ w.slice (pc.1 % 16) pc.2, b)) ([], b)

/-- Write bytes into one line that a region holds modified. -/
def Block.rcWriteHit (b : Block) (r line off : Nat) (ms : MBytes) : Block :=
  (pieces off ms.length).foldl (fun b pc =>
    match b.rcFind r line with
    | none => b
    | some x =>
      let i := pc.1 / 16
      let mpart : MBytes := (ms.drop (pc.1 - off)).take pc.2
      let part := mpart.bytes
      let pois := mpart.pois
      if part.length = 16 then
        b.rcPut { x with words := x.words.set i (if pois then Cw.poison (leNat part) else Cw.clean (leNat part)) }
      else
        match mergeWord (x.words.getD i (Cw.clean 0)) (pc.1 % 16) part pois with
        | (w, .uncorrectable) =>
          ((b.inc RC_ERR_CNT.POISONED 1 r).rcPut { x with words := x.words.set i w }).report
            { cls := 7, cause := 1, level := 2, unit := r, addr := line * 128 + 16 * i }
        | (w, .corrected) => (b.inc RC_ERR_CNT.CORRECTED 1 r).rcPut { x with words := x.words.set i w }
        | (w, _) => b.rcPut { x with words := x.words.set i w }) b

/-- A region master's read of one piece of a line (R385, R388, R389): a hit is served by the cache, a miss fills
first. A set whose ways are all locked is served at the controller. -/
def Block.rcRead (b : Block) (r ctx a n : Nat) : RdRes × Block :=
  let line := a / 128
  let b := b.rcLookup r line
  let tag := match b.rcFind r line with
    | some x => x.tag
    | none => b.tagAt a
  if !tagPasses tag ctx then (⟨[], true⟩, b.tagFail ctx a) else
  let hit := (b.rcFind r line).isSome
  let b := if hit then b.inc RC_ACC_CNT.HITS 1 r else (b.inc RC_ACC_CNT.MISSES 1 r).rcFill r ctx line false
  match b.rcFind r line with
  | some x =>
    let (bs, b) := (b.plruUse r line x.way).rcReadHit r line (a % 128) n
    (⟨bs, false⟩, b)
  | none => b.mread ctx a n

/-- A region master's write of one piece of a line (R388, R391): a locked address is written at the controller and
counted; otherwise the line is taken modified. -/
def Block.rcWrite (b : Block) (r ctx a : Nat) (bs : MBytes) : WrRes × Block :=
  let line := a / 128
  let b := b.rcLookup r line
  let cur := b.rcFind r line
  let tag := match cur with
    | some x => x.tag
    | none => b.tagAt a
  if !tagPasses tag ctx then (.tag, b.tagFail ctx a) else
  match cur with
  | some x =>
    if x.st = .locked then (b.inc RC_ERR_CNT.LOCK_WRITES 1 r).mwrite ctx a bs
    else
      let b := b.inc RC_ACC_CNT.HITS 1 r
      let b := if x.st = .shared then
          ((b.recallInval line (some r)).rcPut { x with st := .modified }).sfEnter r line true else b
      (.ok, (b.plruUse r line x.way).rcWriteHit r line (a % 128) bs)
  | none =>
    let b := (b.inc RC_ACC_CNT.MISSES 1 r).rcFill r ctx line true (bs.length == 128)
    match b.rcFind r line with
    | some _ => (.ok, b.rcWriteHit r line (a % 128) bs)
    | none => b.mwrite ctx a bs

/-- The pieces of a range that fall into one 128-byte line each. -/
def linePieces (a n : Nat) : List (Nat × Nat) :=
  if n = 0 then [] else
  (List.range ((a + n - 1) / 128 - a / 128 + 1)).map (fun k =>
    let w := (a / 128 + k) * 128
    let lo := max a w
    (lo, min (a + n) (w + 128) - lo))

/-- Does the region cache serve a region master's access to this offset (R385)? Only lines of HBM and peat present,
through a page whose NC is 0; a failed stack or package is served by its controller. -/
def Block.cacheable (b : Block) (a : Nat) (nc : Bool) : Bool := b.isMem a && !nc && (b.memMiss a).isNone

/-- A read by a tile of region `r` at a local offset. -/
def Block.tread (b : Block) (r ctx a n : Nat) (nc : Bool) : RdRes × Block :=
  if b.cacheable a nc then
    (linePieces a n).foldl (fun (acc : RdRes × Block) pc =>
      if acc.1.tagFail then acc else
      let (x, b) := acc.2.rcRead r ctx pc.1 pc.2
      (⟨acc.1.data ++ x.data, x.tagFail⟩, b)) (⟨[], false⟩, b)
  else b.mread ctx a n

/-- A write by a tile of region `r` at a local offset. -/
def Block.twrite (b : Block) (r ctx a : Nat) (bs : MBytes) (nc : Bool) : WrRes × Block :=
  if b.cacheable a nc then
    (linePieces a bs.length).foldl (fun (acc : WrRes × Block) pc =>
      if acc.1 = .tag then acc else
      acc.2.rcWrite r ctx pc.1 ((bs.drop (pc.1 - a)).take pc.2)) (.ok, b)
  else b.mwrite ctx a bs

/-- Write back every modified line of a region that `p` selects, and drop the unlocked lines it selects, locked ones
where `lockedToo`; the flush checks each entry's parity (R390). -/
def Block.rcFlush (b : Block) (r : Nat) (p : RcLine → Bool) (lockedToo : Bool) : Block :=
  b.each (b.rc.filter (fun x => x.region == r && p x && (lockedToo || x.st != .locked))) Block.rcOut

end Sys2Proof.Machine
end

