-- ==== Sys2Proof/Machine/PortOps.lean ====
section
/-! DEFINITION. Machine/PortOps.lean: what every frame the module sends goes through: the sub-ports in service, their
counters and their MACsec associations (R475, R478, R482, R496, R513, R515). -/

namespace Sys2Proof.Machine
open Reg

/-- Update what the ports hold. -/
def Block.onPorts (b : Block) (f : Ports → Ports) : Block := { b with ports := f b.ports }

/-- The transmit association a sub-port uses. -/
def Block.txAssoc (b : Block) (sub : Nat) : Option Assoc :=
  b.ports.assocs.find? (fun a => a.tx && a.sub == sub && SMap.get 4 b.ports.active sub == a.an)

/-- The last packet number of extended packet numbering (R476). -/
def lastPn : Nat := 2 ^ 64 - 1

/-- Protect a frame on a sub-port with MSEC_EN (R477, R513): it takes the next PN of the association in use. The frame that
takes the last one stops the sub-port. False: the sub-port sends nothing. -/
def Block.protect (b : Block) (sub : Nat) : Bool × Block :=
  match b.txAssoc sub with
  | none => (false, b)
  | some a =>
    if a.pn > lastPn then (false, b)
    else
      let b := b.onPorts (fun p => { p with assocs := p.assocs.map (fun (x : Assoc) => if x = a then { x with pn := a.pn + 1 } else x) })
      if a.pn = lastPn then
        (true, (b.wr DM_PSTATUS.PN_EXHAUST 1 (sub / 4)).report { cls := 16, cause := 4, level := 4, unit := 0x3000 + sub })
      else (true, b)

/-- Send a frame on a sub-port: false where it is not in service or has stopped sending. -/
def Block.txFrame (b : Block) (sub : Nat) : Bool × Block :=
  if !NSet.mem b.ports.up sub then (false, b)
  else
    let (ok, b) := if b.on DM_PCTRL.MSEC_EN (sub / 4) then b.protect sub else (true, b)
    if ok then (true, b.inc DM_PFRM_CNT.TX 1 (sub / 4)) else (false, b)

/-- The gateway MAC address of a sub-port (R478). -/
def Block.gateway (b : Block) (sub : Nat) : Nat := b.rd DM_PGW.MAC (sub / 4) (sub % 4)

/-- The 802.1p priority of a class (R479). -/
def Block.priority (b : Block) (cls : Nat) : Nat := if cls = 0 then b.rd DM_CLASS.LAT_PRI else b.rd DM_CLASS.BULK_PRI

/-- The markings of a packet of a class (R479): DSCP and 802.1p priority. -/
def Block.marks (b : Block) (cls : Nat) : List Nat :=
  [if cls = 0 then b.rd DM_CLASS.LAT_DSCP else b.rd DM_CLASS.BULK_DSCP, b.priority cls]

/-- Is a class held back on a sub-port by received PFC frames (R476)? -/
def Block.classPaused (b : Block) (cls sub : Nat) : Bool := bit (SMap.get 0 b.ports.paused sub) (b.priority cls)

/-- The sub-port of the queue pair with index `i` (R482): chosen by the index among those in service; 64 where none is. -/
def Block.qpSub (b : Block) (i : Nat) : Nat := b.ports.up.getD (i % max 1 b.ports.up.length) 64

/-- Send a packet of a queue pair (R479, R481, R482): to the client's QPN on the queue pair's sub-port, with its class, the
client's address, the UDP source port, the gateway's MAC address (R478) and its markings. The kinds: 0 RDMA Write, 1 Fetch-and-Add, 2 ACK, 3 NAK, 4 read
response, 5 atomic response, 6 CNP. -/
def Block.roceTx (b : Block) (q : Qp) (op : Nat) (args : List Nat) (data : List Byte) : Block :=
  let sub := b.qpSub q.i
  match b.txFrame sub with
  | (true, b) => b.emit (.roce q.destQpn op ([sub, q.cls, q.addr, 0xC000 + q.i, b.gateway sub] ++ b.marks q.cls ++ args) data)
  | (false, b) => b

end Sys2Proof.Machine
end

