-- ==== Sys2Proof/Machine/Damask.lean ====
section
/-! DEFINITION. Machine/Damask.lean: the sending side of the Damask transport that every remote access uses: nodes,
send paths, the window, release attributes and what waits for an answer (R488 to R506). -/

namespace Sys2Proof.Machine
open Reg

/-- Words of an entry of a table in HBM, read under the system context: the 64-bit words and whether any word was
poisoned or absent. -/
def Block.tableWords (b : Block) (off n : Nat) : List Nat × Bool × Block :=
  let (r, b) := b.mread 0xFFF off (8 * n)
  ((List.range n).map (fun k => leNat ((r.bytes.drop (8 * k)).take 8)), r.pois, b)

/-- The IPv6 address of a node, if its node table entry is valid (R498): words 2 and 3 hold it in network order. -/
def Block.nodeAddr (b : Block) (node : Nat) : Option Nat :=
  let r := (b.tableWords (b.rd DM_NTAB.BASE * 2 ^ 15 + 32 * node) 4)
  if r.2.1 then none
  else if bit (r.1.getD 0 0) 0 then some (beNat (leBytes 8 (r.1.getD 2 0) ++ leBytes 8 (r.1.getD 3 0))) else none

/-- The key of a source among the send paths to a node (R491). -/
def Block.pathKey (b : Block) (src : Nat) : Nat := src % 2 ^ b.rd DM_CTRL.PPP_LOG2

/-- The open send path of (node, class, source) (R491). -/
def Block.pathOf (b : Block) (node cls src : Nat) : Option SendPath :=
  b.dm.send.find? (fun p => p.node == node && p.cls == cls && p.key == b.pathKey src && !p.closing)

/-- The number of a send path not in use; none while all 4,096 are (R491). -/
def Block.freePath (b : Block) : Option Nat :=
  (List.range 4096).find? (fun i => !b.dm.send.any (fun p => p.id == i))

/-- Is a Damask path to the node possible (R425, R498)? With all 4,096 send paths in use no further one opens, and the node
is one without a path for this class and source until a path closes: R491 and R492 state the number and not what a sender
does then (DESIGN CHOICE, assumption log 55). -/
def Block.hasPath (b : Block) (node cls src : Nat) : Bool :=
  b.on DM_CTRL.ENABLE && (b.nodeAddr node).isSome && ((b.pathOf node cls src).isSome || b.freePath.isSome)

/-- The sub-port a message leaves on (R496): the model holds no queue depths, so of the sub-ports in service the lowest
numbered, or the one the path number chooses while SPRAY is 0; a retransmission takes another where there is one. A
sub-port whose class PFC holds back has frames queued, so another is taken where there is one. 64: none is in service. -/
def Block.subPort (b : Block) (path cls : Nat) (avoid : Option Nat) : Nat :=
  let free := b.ports.up.filter (fun k => !b.classPaused cls k)
  let up := if b.on DM_CTRL.SPRAY && !free.isEmpty then free else b.ports.up
  let others := up.filter (fun k => some k != avoid)
  let up := if others.isEmpty then up else others
  if b.on DM_CTRL.SPRAY then up.headD 64 else up.getD (path % max 1 up.length) 64

/-- Is a message a memory message (R493)? WRITE, READ and ATOMIC. -/
def memType (t : Nat) : Bool := t == 0x10 || t == 0x11 || t == 0x13

/-- Update the Damask engine's own state. -/
def Block.onDm (b : Block) (f : Damask → Damask) : Block := { b with dm := f b.dm }

/-- Update one send path. -/
def Damask.onSend (d : Damask) (id : Nat) (f : SendPath → SendPath) : Damask :=
  { d with send := d.send.map (fun p => if p.id == id then f p else p) }

/-- The header of a packet (R488): six 32-bit words in network byte order. `len`: payload data bytes. -/
def Block.dmHeader (b : Block) (node path cls rel retx type seq ctx len off : Nat) : List Byte :=
  let off := if memType type then off else 0
  [2 ^ 28 + cls % 2 * 2 ^ 27 + rel % 4 * 2 ^ 25 + retx % 2 * 2 ^ 24 + type % 2 ^ 8 * 2 ^ 16 + node % 2 ^ 10,
   b.rd XL_NODE.SELF * 2 ^ 22 + path % 2 ^ 12 * 2 ^ 10, seq % 2 ^ 32, ctx % 2 ^ 12 * 2 ^ 20 + len % 2 ^ 14,
   off / 2 ^ 32 % 2 ^ 14, off % 2 ^ 32].flatMap (beBytes 4)

/-- Bytes of the payload words that carry a message's fields and not its data (R490): 64-bit words, word 0 of READ_RESP
padded to the 128-bit words that follow it (DEDUCED, assumption log 55). Group control messages carry words only (R523). -/
def argBytes (type : Nat) (args : List Nat) : Nat :=
  if type = 0x03 then 16 else if type = 0x11 then 8 else if type = 0x12 then 16 else if type = 0x13 then 24
  else if type = 0x14 then 8 else if type = 0x15 then 8 else if 0x30 ≤ type ∧ type < 0x40 then 8 * args.length else 0

/-- The UDP source port of a message (R496). -/
def dmPort (path seq : Nat) : Nat := 0xC000 + (path * 0x9E37 + seq) % 0x4000

/-- Put one message on the wire (R488), to the gateway of its sub-port (R478). A module-fatal stop sends nothing (R571). -/
def Block.dmWire (b : Block) (node path cls : Nat) (m : DmMsg) : Block :=
  let (ok, b) := (b.inc DM_MSG_CNT.TX).txFrame m.port
  if ok then b.emit
    (.damask node m.type
      (b.dmHeader node path cls m.rel (if m.sends > 1 then 1 else 0) m.type m.seq m.ctx (argBytes m.type m.args + m.data.length)
        m.off)
      ([path, m.seq, cls, m.rel, (if m.sends > 1 then 1 else 0), m.ctx, m.off, m.port, dmPort path m.seq, b.gateway m.port] ++ b.marks cls
        ++ m.args) m.data)
  else b

/-- Send what the window of a path allows (R495, R497). -/
def Block.dmPumpN : Nat → Block → Nat → Block
  | 0, b, _ => b
  | n + 1, b, id =>
    match b.dm.send.find? (fun p => p.id == id) with
    | none => b
    | some p =>
      match p.queue with
      | [] => b
      | m :: rest =>
        if p.unacked.length < min p.cwnd (b.rd DM_CTRL.WINDOW) ∧ !b.tick.fatal then
          let m := { m with seq := p.next, sends := 1, port := b.subPort p.id p.cls none }
          let p' := { p with next := (p.next + 1) % 2 ^ 32, unacked := p.unacked ++ [m], queue := rest }
          let b := b.onDm (fun d => d.onSend id (fun _ => p'))
          Block.dmPumpN n (b.dmWire p.node p.id p.cls m) id
        else b

/-- Send what the window of a path allows. -/
def Block.dmPump (b : Block) (id : Nat) : Block :=
  let n := (b.dm.send.find? (fun p => p.id == id)).elim 0 (fun p => p.queue.length)
  Block.dmPumpN n b id

/-- The REL a memory message carries (R501): 1 where its 128-byte line matches an unacknowledged memory message of the
path, or where the path's filter of 256 lines is full. -/
def relOf (p : SendPath) (rel type off : Nat) : Nat :=
  if !memType type then 0
  else
    let mine := (p.unacked ++ p.queue).filter (fun m => memType m.type)
    let lines := (mine.map (fun m => m.off / 128)).eraseDups
    if rel ≥ 1 then rel
    else if lines.length ≥ 256 ∨ lines.any (· == off / 128) then 1 else 0

/-- A message of the Damask engine's own that carries nothing (R490, R491). -/
def Block.ownMsg (b : Block) (type : Nat) : DmMsg :=
  { uid := b.dm.uid, seq := 0, type := type, rel := 0, ctx := 0xFFF, off := 0, args := [], data := [], src := 521, owner := none,
    record := none, sends := 0, port := 0, ent := none }

/-- Find the send path of (node, class, source mod 2^PPP_LOG2), opening one with OPEN at SEQ 0 (R491, R492); none while all
are in use. -/
def Block.dmPath (b : Block) (node cls src : Nat) : Option Nat × Block :=
  match b.pathOf node cls src with
  | some p => (some p.id, b)
  | none =>
    match b.freePath with
    | none => (none, b)
    | some id =>
      let p : SendPath := { id := id, node := node, cls := cls, key := b.pathKey src, next := 0, cwnd := 64, grown := 0,
                            halved := 64, unacked := [], queue := [b.ownMsg 0x01], acked := [], closing := false }
      let b := b.onDm (fun d => { d with send := d.send ++ [p], uid := d.uid + 1 })
      (some id, (b.inc DM_PATH_CNT.OPENED).dmPump id)

/-- Send a message to a node: its uid, which is the next one or that of the held access it carries out. Where no path is
possible it is not sent. -/
def Block.dmSend (b : Block) (node cls src type rel ctx off : Nat) (args : List Nat) (data : MBytes)
    (owner : Option Issuer) (record : Option Nat) (held : Option Nat := none) (ent : Option (Nat × Nat) := none) : Nat × Block :=
  match b.dmPath node cls src with
  | (none, b) => (b.dm.uid, b)
  | (some id, b) =>
    let uid := held.getD b.dm.uid
    let rel := (b.dm.send.find? (fun p => p.id == id)).elim rel (fun p => relOf p rel type off)
    let m : DmMsg := { uid := uid, seq := 0, type := type, rel := rel, ctx := ctx, off := off, args := args, data := data,
                       src := src, owner := owner, record := record, sends := 0, port := 0, ent := ent }
    let b := b.onDm (fun d => { d with uid := d.uid + 1 }.onSend id (fun p => { p with queue := p.queue ++ [m] }))
    (uid, b.dmPump id)

/-- The accesses of tiles that wait at held tiles (R62, R605). -/
def Block.heldAccs (b : Block) : List RelHold := b.heldQ.filterMap (fun x =>
  match x.2 with
  | .access h => some h
  | _ => none)

/-- Writes and atomics of a source that have not completed for release, under a context or under any: messages not
acknowledged and accesses held (R499, R502, R505). -/
def Block.openWrites (b : Block) (src : Nat) (ctx : Option Nat) : NSet :=
  (b.dm.send.flatMap (fun p => p.unacked ++ p.queue)).filterMap (fun m =>
    if (m.type == 0x10 || m.type == 0x13) && m.src == src && (ctx.isNone || ctx == some m.ctx) then some m.uid else none)
  ++ (b.dm.holds ++ b.heldAccs).filterMap (fun h =>
    if h.src == src && h.kind ≤ 2 && (ctx.isNone || ctx == some h.under) then some h.uid else none)

/-- Hold a write or atomic with global release at its source (R502). -/
def Block.holdAcc (b : Block) (h : RelHold) : Block :=
  b.onDm (fun d => { d with holds := d.holds ++ [{ h with uid := d.uid }], uid := d.uid + 1 })

/-- Hold an access to a tile whose requests are held (R62, R605). -/
def Block.holdHere (b : Block) (t : Nat) (h : RelHold) : Block :=
  (b.holdReq t (.access { h with uid := b.dm.uid })).onDm (fun d => { d with uid := d.uid + 1 })

/-- Accesses a source holds that touch a 128-byte line of the range of `n` bytes at a physical address: a later access of the
source to the line is performed after them (R501). -/
def Block.lineHeld (b : Block) (src pa n : Nat) : NSet :=
  (b.dm.holds.filter (fun h => h.src == src && h.kind != 3 && decide (h.pa / 128 ≤ (pa + n - 1) / 128)
    && decide (pa / 128 ≤ (h.pa + h.width - 1) / 128))).map (·.uid)

/-- Accesses a source holds for the node of a physical address: one with path release is performed after them (R500). -/
def Block.pathHeld (b : Block) (src pa : Nat) : NSet :=
  (b.dm.holds.filter (fun h => h.src == src && h.kind != 3 && h.pa / 2 ^ 46 == pa / 2 ^ 46)).map (·.uid)

/-- A tile's read that waits at its source behind a held write (R501), or at a held tile (R62): its value reaches the load. -/
def readHold (p src ctx under cls pa n : Nat) (waits : NSet) (ent : Option (Nat × Nat)) : RelHold :=
  { uid := 0, src := src, ctx := ctx, under := under, waits := waits, bad := false, pa := pa, kind := 4, width := n, data := [],
    cmpv := 0, cls := cls, owner := none, site := some p, ent := ent }

/-- What a write or atomic of `n` bytes waits for at its source (R500 to R502). -/
def Block.relWaits (b : Block) (src ctx rel pa n : Nat) : NSet :=
  if rel = 2 then b.openWrites src (some ctx) ++ b.lineHeld src pa n
  else if rel = 1 then b.pathHeld src pa
  else b.lineHeld src pa n

/-- A remote write (R423): false where the node has no path (R425). -/
def Block.dmWrite (b : Block) (node cls src rel ctx off : Nat) (data : MBytes) (owner : Option Issuer)
    (record : Option Nat) (ent : Option (Nat × Nat) := none) : Bool × Block :=
  if b.hasPath node cls src then
    let (_, b) := b.dmSend node cls src 0x10 rel ctx off [data.length] data owner record none ent
    (true, b)
  else (false, b.absentRec 2 ctx off 0)

/-- A READ or ATOMIC is out: its TAG and who waits for its answer (R490). -/
def Block.dmAsk (b : Block) (node cls src type rel ctx off len : Nat) (args : List Nat) (who : Waiter) (owner : Option Issuer)
    (record : Option Nat) (held : Option Nat) (ent : Option (Nat × Nat)) : Block :=
  let tag := b.dm.tag
  let b := b.onDm (fun d => { d with tag := (tag + 1) % 2 ^ 32 })
  let (uid, b) := b.dmSend node cls src type rel ctx off (tag :: args) [] owner record held ent
  b.onDm (fun d => { d with tags := d.tags ++ [⟨tag, uid, who, off, len, src, ctx, ent⟩] })

/-- A remote read: the data come with READ_RESP (R490). False where the node has no path. -/
def Block.dmRead (b : Block) (node cls src ctx off len : Nat) (who : Waiter) (ent : Option (Nat × Nat) := none) : Bool × Block :=
  if b.hasPath node cls src then (true, b.dmAsk node cls src 0x11 0 ctx off len [len] who none none none ent)
  else (false, b.absentRec 1 ctx off 0)

/-- A remote atomic: the old value comes with ATOMIC_RESP (R490). `op`: 0 fetch-and-add, 1 compare-and-swap. -/
def Block.dmAtomic (b : Block) (node cls src rel ctx off op wide operand comparand : Nat) (who : Waiter)
    (record : Option Nat) (ent : Option (Nat × Nat) := none) : Bool × Block :=
  if b.hasPath node cls src then
    (true, b.dmAsk node cls src 0x13 rel ctx off 8 [op, wide, operand, comparand] who none record none ent)
  else (false, b.absentRec 2 ctx off 0)

/-- An atomic performed at the memory that owns the address, as one indivisible access (R143): the old value, whether it
was poisoned (then memory is unchanged), and what the access met. Every copy of the line is invalid first (R386). -/
def Block.matomic (b : Block) (ctx a width op operand comparand : Nat) : Nat × Bool × WrRes × Block :=
  match b.place a with
  | .absent =>
    (0, false, .absent, b.absentRec 2 ctx a 0)
  | .lockWin _ _ => (0, false, .absent, b.absentRec 2 ctx a 0)
  | _ =>
    let (r, b) := b.mread ctx a width
    if r.tagFail then (0, false, .tag, b)
    else
      let b := if b.isMem a then b.recallInval (a / 128) none else b
      let old := leNat r.bytes
      if r.pois then (old, true, .ok, b)
      else
        let new := if op = 0 then some ((old + operand) % 2 ^ (8 * width))
          else if old = comparand % 2 ^ (8 * width) then some (operand % 2 ^ (8 * width)) else none
        match new with
        | none => (old, false, .ok, b)
        | some v =>
          let (w, b) := b.mwrite ctx a (plain (leBytes width v))
          (old, false, w, b)

end Sys2Proof.Machine
end

