-- ==== Sys2Proof/Machine/Xlate.lean ====
section
/-! DEFINITION. Machine/Xlate.lean: translation (R403 to R414, R424) and the accesses of tiles and of Bracken at virtual
addresses, local or remote (R423, R425). -/

namespace Sys2Proof.Machine
open Reg

/-- The causes of R431 the translation unit gives. -/
def cNoContext : Nat := 1
/-- A non-canonical address (R407). -/
def cNoncanonical : Nat := 2
/-- V = 0. -/
def cInvalid : Nat := 3
/-- A reserved form. -/
def cReserved : Nat := 4
/-- A leaf whose PPN is not aligned to its page. -/
def cMisaligned : Nat := 5
/-- R or W missing. -/
def cPermission : Nat := 6
/-- A = 0 in a leaf. -/
def cAccessed : Nat := 7
/-- D = 0 in a leaf reached by a write. -/
def cDirty : Nat := 8
/-- A poisoned page-table word. -/
def cPtePoison : Nat := 9
/-- A non-leaf entry that points outside the memory present on the module. -/
def cPteAddress : Nat := 10
/-- A remote target that is not allowed. -/
def cRemoteDenied : Nat := 11
/-- A window failure. -/
def cWindow : Nat := 12

/-- Is a 64-bit address canonical (R407)? -/
def canonical (va : Nat) : Bool := va / 2 ^ 47 % 2 ^ 17 == 0 || va / 2 ^ 47 % 2 ^ 17 == 2 ^ 17 - 1

/-- Sign-extend a 48-bit address to 64 bits. -/
def sext48 (va : Nat) : Nat := ofInt 64 (toInt 48 va)

/-- Node bits of a physical address. -/
def nodeOf (pa : Nat) : Nat := bits pa 46 10

/-- Local offset of a physical address. -/
def offOf (pa : Nat) : Nat := pa % 2 ^ 46

/-- The context table's entry of a context (R406), read when it is first needed and kept; a poisoned or absent read is
not kept. None: NO_CONTEXT. -/
def Block.ctxEntry (b : Block) (ctx : Nat) : Option CtxE × Block :=
  if !b.on XL_CTRL.ENABLE then (none, b) else
  match b.cctx.find? (fun e => e.ctx == ctx) with
  | some e => (if e.valid then some e else none, b)
  | none =>
    let (ws, bad, b) := b.tableWords (b.rd XL_CTXT.BASE * 2 ^ 16 + 16 * ctx) 2
    if bad then (none, b) else
    let w0 := ws.getD 0 0
    let root := bits w0 12 34 * 2 ^ 12
    let inHbm := match b.place root with
      | .hbm _ _ => true
      | _ => false
    let ok := bit w0 0 && bits w0 2 10 == 0 && bits w0 46 18 == 0 && ws.getD 1 0 == 0 && inHbm
    let e : CtxE := { ctx := ctx, valid := ok, remoteEn := bit w0 1, root := root }
    (if ok then some e else none, { b with cctx := b.cctx ++ [e] })

/-- What a walk finds: a cause (0 none), the leaf entry, and the non-leaf entries it passed. -/
structure WalkRes where
  cause : Nat
  leaf : Option TlbE
  path : List WalkE
  deriving DecidableEq, Repr

/-- Check a page-table entry at a level (R408, R409): a cause, or 0. -/
def pteCause (pte level : Nat) (write : Bool) : Nat :=
  let leaf := bit pte 1 || bit pte 3
  if !bit pte 0 then cInvalid
  else if bit pte 2 && !bit pte 1 then cReserved
  else if bits pte 54 10 ≠ 0 then cReserved
  else if leaf then
    if level = 3 then cReserved
    else if bits pte 10 44 % 2 ^ (9 * level) ≠ 0 then cMisaligned
    else if !bit pte 1 || (write && !bit pte 2) then cPermission
    else if !bit pte 6 then cAccessed
    else if write && !bit pte 7 then cDirty
    else 0
  else if level = 0 then cReserved else 0

/-- What one page-table entry gives: the end of the walk, or the next table. -/
inductive PteRes where
  | fail (cause : Nat)
  | leaf (e : TlbE)
  | table (off : Nat)
  deriving DecidableEq, Repr

/-- Read and judge one page-table entry (R407 to R409). Reads are made at the memory controllers under the system
context (R411). -/
def Block.pteRead (b : Block) (ctx va : Nat) (write : Bool) (table level : Nat) : PteRes × Block :=
  let (ws, bad, b) := b.tableWords (table + 8 * bits va (12 + 9 * level) 9) 1
  if bad then (.fail cPtePoison, b) else
  let pte := ws.getD 0 0
  let c := pteCause pte level write
  let ppn := bits pte 10 44
  if c ≠ 0 then (.fail c, b)
  else if bit pte 1 || bit pte 3 then
    (.leaf { ctx := ctx, vpn := bits va (12 + 9 * level) (36 - 9 * level), page := 12 + 9 * level, ppn := ppn, r := bit pte 1,
             w := bit pte 2, nc := bit pte 8, dirty := bit pte 7 }, b)
  else if nodeOf (ppn * 4096) ≠ b.rd XL_NODE.SELF || !b.isMem (offOf (ppn * 4096)) then (.fail cPteAddress, b)
  else (.table (offOf (ppn * 4096)), b)

/-- Walk the Sv48 tables from a table at a level down (R407). -/
def Block.walkFrom (ctx va : Nat) (write : Bool) : Nat → Block → Nat → List WalkE → WalkRes × Block
  | 0, b, table, path =>
    match b.pteRead ctx va write table 0 with
    | (.fail c, b) => (⟨c, none, []⟩, b)
    | (.leaf e, b) => (⟨0, some e, path⟩, b)
    | (.table _, b) => (⟨cReserved, none, []⟩, b)
  | l + 1, b, table, path =>
    match b.pteRead ctx va write table (l + 1) with
    | (.fail c, b) => (⟨c, none, []⟩, b)
    | (.leaf e, b) => (⟨0, some e, path⟩, b)
    | (.table t, b) =>
      Block.walkFrom ctx va write l b t (path ++ [⟨ctx, l, va / 2 ^ (12 + 9 * (l + 1)) % 2 ^ 36, t⟩])

/-- The deepest table the walk cache knows for an address: level and table; the root otherwise. -/
def Block.walkStart (b : Block) (e : CtxE) (va : Nat) : Nat × Nat :=
  let known := fun l => b.wcache.find? (fun w => w.ctx == e.ctx && w.level == l
    && w.prefix_ == va / 2 ^ (12 + 9 * (l + 1)) % 2 ^ 36)
  match known 0 with
  | some w => (0, w.table)
  | none => match known 1 with
    | some w => (1, w.table)
    | none => match known 2 with
      | some w => (2, w.table)
      | none => (3, e.root)

/-- A full walk for an access (R410: only success is kept). -/
def Block.walk (b : Block) (ctx va : Nat) (write : Bool) : WalkRes × Block :=
  let b := b.inc XL_WALK_CNT.WALKS
  match b.ctxEntry ctx with
  | (none, b) => (⟨cNoContext, none, []⟩, b)
  | (some e, b) =>
    let (lv, tab) := b.walkStart e va
    let (r, b) := Block.walkFrom ctx va write lv b tab []
    if r.leaf.isSome then
      let (wc, b) := Block.enterAll 1024 r.path b b.wcache
      (r, { b with wcache := wc })
    else (r, b)

/-- Does a held translation cover the address under the context? -/
def TlbE.hits (e : TlbE) (ctx va : Nat) : Bool :=
  e.ctx == ctx && e.vpn == bits va e.page (48 - e.page)

/-- The physical address a translation gives (R408). -/
def TlbE.pa (e : TlbE) (va : Nat) : Nat := (e.ppn * 4096 + va % 2 ^ e.page) % 2 ^ 56

/-- Permissions of a held translation for an access. -/
def TlbE.cause (e : TlbE) (write : Bool) : Nat :=
  if !e.r || (write && !e.w) then cPermission else if write && !e.dirty then cDirty else 0

/-- A translation's result: a cause (0 none), the physical address, NC, and the entry it used: virtual page and page size
(R416). -/
structure Xl where
  cause : Nat
  pa : Nat
  nc : Bool
  ent : Option (Nat × Nat)
  deriving DecidableEq, Repr

/-- A translation that fails with a cause. -/
def Xl.fail (cause : Nat) : Xl := ⟨cause, 0, false, none⟩

/-- Routing of a translated address (R424): a remote address needs REMOTE_EN. -/
def Block.route (b : Block) (ctx : Nat) (e : TlbE) (va : Nat) (write : Bool) : Xl × Block :=
  let c := e.cause write
  if c ≠ 0 then (Xl.fail c, b)
  else
    let x : Xl := ⟨0, e.pa va, e.nc, some (e.vpn, e.page)⟩
    if nodeOf x.pa = b.rd XL_NODE.SELF then (x, b)
    else
      match b.ctxEntry ctx with
      | (some c, b) => (if c.remoteEn then x else Xl.fail cRemoteDenied, b)
      | (none, b) => (Xl.fail cNoContext, b)

/-- Does an invalidation remove a translation (R415)? -/
def Inval.hits (i : Inval) (e : TlbE) : Bool :=
  i.scope == 0 || (e.ctx == i.ctx && (i.scope == 1 ||
    (e.vpn * 2 ^ e.page < i.va + i.pages * 4096 && i.va < (e.vpn + 1) * 2 ^ e.page)))

/-- Is an invalidation that matches the translation in progress, so that it may not be entered (R417, R435)? -/
def Block.invalidating (b : Block) (e : TlbE) : Bool := b.inval.any (fun i => i.hits e)

/-- May a TLB keep a leaf: no invalidation that matches it runs (R417, R435), and it is not a remote leaf that its context's
REMOTE_EN 0 denies, a translation that fails (R410, R424)? -/
def Block.keeps (b : Block) (e : TlbE) : Bool :=
  !b.invalidating e && (nodeOf (e.ppn * 4096) == b.rd XL_NODE.SELF || b.cctx.any (fun c => c.ctx == e.ctx && c.valid && c.remoteEn))

/-- The shared TLB, or a walk that fills it (R411, R414). -/
def Block.sharedXl (b : Block) (ctx va : Nat) (write : Bool) : WalkRes × Block :=
  match b.stlb.find? (fun e => e.hits ctx va) with
  | some e => (⟨0, some e, []⟩, b)
  | none =>
    let (r, b) := b.walk ctx va write
    match r.leaf with
    | some e =>
      if b.keeps e then
        let (l, b) := b.room 8192 b.stlb
        (r, { b with stlb := l ++ [e] })
      else (r, b)
    | none => (r, b)

/-- Record a failure of causes 1 to 12 (R431). -/
def Block.xlFail (b : Block) (cause ctx va : Nat) : Block :=
  (b.inc XL_FAULT_CNT.XLAT).report { cls := 2, cause := cause, level := 4, ctx := some ctx, addr := va }

/-- A failure found before any lookup: ENABLE 0, where every translation gives NO_CONTEXT (R433), or an address that is not
canonical (R407). -/
def Block.xlEarly (b : Block) (va : Nat) : Nat :=
  if !b.on XL_CTRL.ENABLE then cNoContext else if !canonical va then cNoncanonical else 0

/-- Route an address through a translation, with the record of a failure. -/
def Block.useLeaf (b : Block) (ctx : Nat) (e : TlbE) (va : Nat) (write : Bool) : Xl × Block :=
  let (x, b) := b.route ctx e va write
  if x.cause = 0 then (x, b) else (x, b.xlFail x.cause ctx va)

/-- Translate for Bracken, the ports and the Damask engine (R414). -/
def Block.xlate (b : Block) (ctx va : Nat) (write : Bool) : Xl × Block :=
  let c := b.xlEarly va
  if c ≠ 0 then (Xl.fail c, b.xlFail c ctx va)
  else
    let (r, b) := b.sharedXl ctx va write
    match r.leaf with
    | none => (Xl.fail r.cause, b.xlFail r.cause ctx va)
    | some e => b.useLeaf ctx e va write

/-- Enter a translation in a tile's TLB of 128 entries (R412). The replacement is pseudo-LRU over an order no rule states, so
the entry that leaves a full TLB is a free value (assumption log 35). -/
def Block.tlbEnter (b : Block) (p : Nat) (e : TlbE) : Block :=
  if !b.keeps e then b else
  let (l, b) := b.room 128 ((b.site p).tlb.filter (· != e))
  b.onSite p (fun s => { s with tlb := l ++ [e] })

/-- Translate for a tile under its step context (R404, R412, R413). -/
def Block.tileXl (b : Block) (p ctx va : Nat) (write : Bool) : Xl × Block :=
  let c := b.xlEarly va
  if c ≠ 0 then (Xl.fail c, b.xlFail c ctx va)
  else
    let b := b.inc TL_TLB_CNT.LOOKUPS 1 p
    match (b.site p).tlb.find? (fun e => e.hits ctx va) with
    | some e => (b.tlbEnter p e).useLeaf ctx e va write
    | none =>
      let b := b.inc TL_TLB_CNT.MISSES 1 p
      let b := if b.stlb.any (fun e => e.hits ctx va) then b.inc XL_WALK_CNT.STLB_HITS else b
      let (r, b) := b.sharedXl ctx va write
      match r.leaf with
      | none => (Xl.fail r.cause, b.xlFail r.cause ctx va)
      | some e => (b.tlbEnter p e).useLeaf ctx e va write

/-- The exception an access of a tile ends in (codes of R123): 0 none, 6 TRANSLATION, 7 CONTEXT_TAG, 8 POISON,
11 ABSENT_WRITE. `remote`: the data come later. `wait`: an engine's chunk waits for them. `ent`: the translation used. -/
structure VRes where
  exc : Nat
  va : Nat
  data : MBytes
  remote : Bool
  wait : Bool
  ent : Option (Nat × Nat)
  deriving DecidableEq, Repr

/-- A result without data. -/
def VRes.none (exc va : Nat) : VRes :=
  { exc := exc, va := va, data := [], remote := false, wait := false, ent := Option.none }

/-- Its bytes. -/
def VRes.bytes (r : VRes) : List Byte := r.data.bytes
/-- Is a byte of it poisoned? -/
def VRes.pois (r : VRes) : Bool := r.data.pois

/-- Pieces of a virtual range that fall into one 128-byte line each. -/
def vPieces (va n : Nat) : List (Nat × Nat) := linePieces va n

/-- The site of an engine's read. -/
def Waiter.engineOf : Waiter → Option Nat
  | .engine p _ => some p
  | _ => none

/-- Bytes that the waiting chunk of a site's DMA engine has read at a virtual address. -/
def Block.farGot (b : Block) (p va n : Nat) : Option MBytes :=
  ((b.site p).far.find? (fun x => x.1 == va && x.2.length == n)).map (·.2)

/-- Keep bytes for the chunk that reads them. -/
def Block.farPut (b : Block) (p va : Nat) (bs : MBytes) : Block := b.onSite p (fun s => { s with far := s.far ++ [(va, bs)] })

/-- A tile's read of one piece at a virtual address: at its region's cache or the holder, or from another node. For a load the
value of a remote read comes with its answer; an engine's chunk waits until every piece of it is there, also where the tile
that holds it is held (R62). -/
def Block.vreadPiece (b : Block) (p ctx cls l va n : Nat) (who : Waiter) : VRes × Block :=
  let eng := who.engineOf.isSome
  match if eng then b.farGot p va n else none with
  | some bs => ({ VRes.none 0 va with data := bs }, b)
  | none =>
    if eng && b.dm.tags.any (fun t => t.who == .engine p va) then ({ VRes.none 0 va with wait := true }, b)
    else
      let (x, b) := b.tileXl p ctx va false
      let waits := b.lineHeld l x.pa n
      if x.cause ≠ 0 then (VRes.none 6 va, b)
      else if !waits.isEmpty then
        if eng then ({ VRes.none 0 va with wait := true }, b)
        else ({ VRes.none 0 va with remote := true, ent := x.ent }, b.holdAcc (readHold p l ctx ctx cls x.pa n waits x.ent))
      else if nodeOf x.pa = b.rd XL_NODE.SELF then
        match b.heldTile (offOf x.pa) with
        | some t =>
          if eng then ({ VRes.none 0 va with wait := true }, b)
          else ({ VRes.none 0 va with remote := true, ent := x.ent }, b.holdHere t (readHold p l ctx ctx cls x.pa n [] x.ent))
        | none =>
          let (r, b) := b.tread (regionOfSite p) ctx (offOf x.pa) n x.nc
          if r.tagFail then (VRes.none 7 va, b)
          else ({ VRes.none 0 va with data := r.data, ent := x.ent }, if eng then b.farPut p va r.data else b)
      else
        let who := if eng then .engine p va else who
        let (ok, b) := b.dmRead (nodeOf x.pa) cls l ctx (offOf x.pa) n who x.ent
        if ok then ({ VRes.none 0 va with remote := true, wait := eng, ent := x.ent }, b)
        else ({ VRes.none 0 va with data := (leBytes n 0).map (fun x => (x, true)) }, b)

/-- A tile's read of a range at a virtual address. -/
def Block.vread (b : Block) (p ctx cls l va n : Nat) (who : Waiter) : VRes × Block :=
  (vPieces va n).foldl (fun (acc : VRes × Block) pc =>
    if acc.1.exc ≠ 0 then acc else
    let (r, b) := acc.2.vreadPiece p ctx cls l pc.1 pc.2 who
    ({ r with data := acc.1.data ++ r.data, remote := acc.1.remote || r.remote, wait := acc.1.wait || r.wait }, b))
    (VRes.none 0 va, b)

/-- The store of a tile at a local offset: performed now. -/
def Block.storeNow (b : Block) (p ctx a : Nat) (bs : MBytes) (nc : Bool) : Nat × Block :=
  match b.twrite (regionOfSite p) ctx a bs nc with
  | (.ok, b) => (0, b)
  | (.tag, b) => (7, b)
  | (.absent, b) => (11, b)

/-- A tile's write of one piece. `rel` is the release attribute (R135): a write with a release waits at its source for the
writes of R500 and R502. -/
def Block.vwritePiece (b : Block) (p ctx cls l va : Nat) (bs : MBytes) (rel : Nat) (owner : Option Issuer) : VRes × Block :=
  let (x, b) := b.tileXl p ctx va true
  let owner := owner.map (fun (o : Issuer) => { o with va := va % 2 ^ 48 })
  if x.cause ≠ 0 then (VRes.none 6 va, b)
  else
    let here := nodeOf x.pa == b.rd XL_NODE.SELF
    let waits := b.relWaits l ctx rel x.pa bs.length
    let h : RelHold :=
      { uid := 0, src := l, ctx := ctx, under := ctx, waits := waits, bad := false, pa := x.pa, kind := 0, width := bs.length, data := bs,
        cmpv := 0, cls := cls, owner := owner, site := none, ent := x.ent }
    if !waits.isEmpty then ({ VRes.none 0 va with remote := !here }, b.holdAcc h)
    else if here then
      match b.heldTile (offOf x.pa) with
      | some t => (VRes.none 0 va, b.holdHere t h)
      | none =>
      let (e, b) := b.storeNow p ctx (offOf x.pa) bs x.nc
      (VRes.none e va, b)
    else
      let (ok, b) := b.dmWrite (nodeOf x.pa) cls l rel ctx (offOf x.pa) bs owner none x.ent
      ({ VRes.none (if ok then 0 else 11) va with remote := true }, b)

/-- A tile's write of a range at a virtual address. -/
def Block.vwrite (b : Block) (p ctx cls l va : Nat) (bs : MBytes) (rel : Nat) (owner : Option Issuer) : VRes × Block :=
  (vPieces va bs.length).foldl (fun (acc : VRes × Block) pc =>
    if acc.1.exc ≠ 0 then acc else
    acc.2.vwritePiece p ctx cls l pc.1 ((bs.drop (pc.1 - va)).take pc.2) rel owner) (VRes.none 0 va, b)

/-- What Bracken's or a port's access at a virtual address meets: 0 good, 1 translation, 2 tag, 3 absent or poisoned,
4 no path, with the cause of R431 where one applies. -/
structure BRes where
  fail : Nat
  cause : Nat
  pa : Nat
  bytes : List Byte
  deriving DecidableEq, Repr

/-- A read by Bracken under a queue's context (R441): served by the owning memory. `far` is what another node's memory
returns, where the address is remote: the bytes and whether they are good. -/
def Block.bread (b : Block) (ctx va n : Nat) (far : Option (List Byte)) : BRes × Block :=
  let (x, b) := b.xlate ctx va false
  if x.cause ≠ 0 then (⟨1, x.cause, 0, []⟩, b)
  else if nodeOf x.pa = b.rd XL_NODE.SELF then
    let (r, b) := b.mread ctx (offOf x.pa) n
    if r.tagFail then (⟨2, 13, x.pa, []⟩, b)
    else if r.pois then (⟨3, 0, x.pa, r.bytes⟩, b) else (⟨0, 0, x.pa, r.bytes⟩, b)
  else
    let (ok, b) := b.dmRead (nodeOf x.pa) 0 512 ctx (offOf x.pa) n .bracken
    if !ok then (⟨4, 0, x.pa, []⟩, b)
    else match far with
      | some bs => (⟨0, 0, x.pa, bs⟩, b)
      | none => (⟨3, 0, x.pa, []⟩, b)

/-- A write by a source (512: Bracken) under a context. -/
def Block.bwrite (b : Block) (cls src ctx va : Nat) (bs : MBytes) (rel : Nat) (record : Option Nat) : BRes × Block :=
  let (x, b) := b.xlate ctx va true
  if x.cause ≠ 0 then (⟨1, x.cause, 0, []⟩, b)
  else if nodeOf x.pa = b.rd XL_NODE.SELF then
    match b.mwrite ctx (offOf x.pa) bs with
    | (.ok, b) => (⟨0, 0, x.pa, []⟩, b)
    | (.tag, b) => (⟨2, 13, x.pa, []⟩, b)
    | (.absent, b) => (⟨3, 0, x.pa, []⟩, b)
  else
    let (ok, b) := b.dmWrite (nodeOf x.pa) cls src rel ctx (offOf x.pa) bs none record
    (⟨if ok then 0 else 4, 0, x.pa, []⟩, b)

end Sys2Proof.Machine
end

