-- ==== Sys2Proof/Machine/BrackenOps.lean ====
section
/-! DEFINITION. Machine/BrackenOps.lean: the operations on commands in flight that the tick, the tiles and Bracken's own
commands share: completing a command once, capture, parking, planning a step again (R31, R436, R453, R463 to R470). -/

namespace Sys2Proof.Machine
open Reg

/-- Does Bracken's processor run (R628, R665)? ENABLE is 1, and no activation restarts it: the restart lasts until the new
firmware writes LC_FW_READY, or the old one is back (DESIGN CHOICE, assumption log 57). -/
def Block.bkRuns (b : Block) : Bool :=
  b.on BK_CTRL.ENABLE && !b.lc.acts.any (fun a => a.comp == 1 && a.begun.isSome)

/-- Completion statuses (R462). -/
def stOk : Nat := 0x00
/-- ABORTED. -/
def stAborted : Nat := 0x01
/-- FAULT. -/
def stFault : Nat := 0x02
/-- SHED. -/
def stShed : Nat := 0x03
/-- INVALID. -/
def stInvalid : Nat := 0x04
/-- WAIT_TIMEOUT. -/
def stWaitTimeout : Nat := 0x05

/-- Update Bracken's own state. -/
def Block.onBk (b : Block) (f : Bracken → Bracken) : Block := { b with bk := f b.bk }

/-- The command of a tag, while in flight. -/
def Block.cmd (b : Block) (tag : Nat) : Option Cmd := b.bk.cmds.find? (fun c => c.tag == tag)

/-- Update a command. -/
def Block.onCmd (b : Block) (tag : Nat) (f : Cmd → Cmd) : Block :=
  b.onBk (fun k => { k with cmds := k.cmds.map (fun c => if c.tag == tag then f c else c) })

/-- The queue of a number. -/
def Block.queue (b : Block) (q : Nat) : Option Queue := b.bk.queues.find? (fun x => x.q == q)

/-- Update a queue. -/
def Block.onQueue (b : Block) (q : Nat) (f : Queue → Queue) : Block :=
  b.onBk (fun k => { k with queues := k.queues.map (fun x => if x.q == q then f x else x) })

/-- Slot of a queue (R437). -/
def Queue.slot (q : Queue) : Nat := bits q.w0 0 5
/-- Ring size in entries. -/
def Queue.size (q : Queue) : Nat := 2 ^ (bits q.w0 8 4 + 6)
/-- LAT_TICKS (R41). -/
def Queue.lat (q : Queue) : Nat := bits q.w0 12 4 + 3
/-- Context of every access for the queue. -/
def Queue.ctx (q : Queue) : Nat := bits q.w0 16 12
/-- Control core that expands requests. -/
def Queue.hcore (q : Queue) : Nat := bits q.w0 28 3
/-- Completion route. -/
def Queue.route (q : Queue) : Bool := bit q.w0 31
/-- FAULT_RUN limit. -/
def Queue.parkFaults (q : Queue) : Nat := bits q.w0 32 8
/-- Wait timeout in ticks. -/
def Queue.waitTicks (q : Queue) : Nat := bits q.w0 40 8

/-- What Bracken captures of the failing step (R469). -/
structure Cap where
  cause : Nat
  ltile : Nat := 0x1FF
  site : Nat := 0
  exc : Nat := 0
  busy : Nat := 0
  pc : Nat := 0
  ctx : Nat := 0
  deriving DecidableEq, Repr

/-- BK_CAP0 bits [31:0], BK_CAP1 and BK_CAP2 for an event (R469, R566). -/
def capWords (c : Cmd) (status now : Nat) (k : Cap) : Nat × Nat × Nat :=
  (1 + c.queue % 1024 * 4 + status % 256 * 2 ^ 12 + k.cause % 16 * 2 ^ 20,
   c.index % 2 ^ 32 + k.ltile % 512 * 2 ^ 32 + k.site % 1024 * 2 ^ 41,
   k.exc % 256 + k.busy % 64 * 2 ^ 8 + k.pc % 2 ^ 13 * 2 ^ 14 + k.ctx % 4096 * 2 ^ 27 + now % 2 ^ 25 * 2 ^ 39)

/-- Capture the first command completed FAULT or ABORTED; a later one sets MORE (R469). The capture is snapshot source 6
(R649). -/
def Block.capture (b : Block) (c : Cmd) (status : Nat) (k : Cap) : Block :=
  if b.on BK_CAP0.VALID then b.wr BK_CAP0.MORE 1
  else
    Block.snapTrigger (b := (((((((((((((b.wr BK_CAP0.VALID 1).wr BK_CAP0.QUEUE c.queue).wr BK_CAP0.STATUS status).wr BK_CAP0.CAUSE k.cause).wr
      BK_CAP0.CMD_TAG c.tag).wr BK_CAP1.INDEX c.index).wr BK_CAP1.LTILE k.ltile).wr BK_CAP1.SITE k.site).wr
      BK_CAP2.EXC k.exc).wr BK_CAP2.ENG_BUSY k.busy).wr BK_CAP2.PC k.pc).wr BK_CAP2.CTX k.ctx).wr
      BK_CAP2.TICK_LO b.now)) 6 c.tag

/-- A record of class BRACKEN (R468). -/
def Block.bkRec (b : Block) (cause : Nat) (ctx : Option Nat) (tag : Nat) : Block :=
  b.report { cls := 14, cause := cause, level := 4, ctx := ctx, cmdTag := tag }

/-- The record of a command completed FAULT or ABORTED (R468): at tile level where a step failed (R568), with the values
the capture registers take for the event (R566). -/
def Block.capRec (b : Block) (c : Cmd) (status : Nat) (k : Cap) : Block :=
  let (a0, a1, a2) := capWords c status b.now k
  let none_ := k.ltile == 0x1FF
  b.report { cls := 14, cause := if status = stFault then 2 else 3, level := if none_ then 4 else 0, ctx := some c.qctx,
             unit := if none_ then 0 else k.ltile, site := k.site, cmdTag := c.tag, aux0 := a0, aux1 := a1, aux2 := a2 }

/-- Park a queue with a cause (R470). -/
def Block.park (b : Block) (q cause : Nat) : Block :=
  let b := b.onQueue q (fun x => { x with st := 5, cause := cause, rd := 0 })
  let b := b.onBk (fun k => { k with watches := k.watches.filter (fun w => w.queue != q) })
  let b := (b.wr BK_STATUS.WATCH_USED b.bk.watches.length).inc BK_ERR_CNT.PARKS
  b.bkRec 8 none 0

/-- FAULT_RUN of a queue after a command completes with a record of Bracken's (R470). -/
def Block.faultRun (b : Block) (q status : Nat) : Block :=
  match b.queue q with
  | none => b
  | some x =>
    if status = stFault ∨ status = stInvalid then
      let n := min (x.faultRun + 1) 255
      let b := b.onQueue q (fun x => { x with faultRun := n })
      if x.parkFaults ≠ 0 ∧ n ≥ x.parkFaults ∧ x.st ≠ 5 ∧ x.st ≠ 0 then b.park q 4 else b
    else b.onQueue q (fun x => { x with faultRun := 0 })

/-- Remove a command's unplanned rows and steps. -/
def Block.dropUnplanned (b : Block) (tag : Nat) : Block :=
  b.onBk (fun k => { k with segs := k.segs.filter (fun s => s.tag != tag), steps := k.steps.filter (fun s => s.tag != tag) })

/-- Steps of a command that are placed and have not ended. -/
def Block.placedOf (b : Block) (tag : Nat) : List Placed := b.bk.placed.filter (fun p => p.tags.any (· == tag))

/-- A command leaves flight once its record is issued and every step of it has ended, been aborted or removed (R436);
its handoff entry is then free (R450). -/
def Block.settle (b : Block) (tag : Nat) : Block :=
  match b.cmd tag with
  | none => b
  | some c =>
    if c.issued ∧ (b.placedOf tag).isEmpty ∧ !b.bk.segs.any (fun s => s.tag == tag) ∧ !b.bk.steps.any (fun s => s.tag == tag) then
      let b := b.onBk (fun k => { k with
        cmds := k.cmds.filter (fun c => c.tag != tag)
        unreleased := k.unreleased.filter (fun u => u.1 != tag) })
      b.wr BK_STATUS.CMDS b.bk.cmds.length
    else b

/-- A completion record of a command, formed now (R461, R505). -/
def Block.newRec (b : Block) (c : Cmd) (status w2 w3 : Nat) (src : Option Nat) (pois0 pois1 : Bool) : CRec :=
  { cmd := c, status := status, w2 := w2, w3 := w3, late := false, src := src, phase := 0, uid := b.dm.uid, bad := false,
    pois0 := pois0, pois1 := pois1 }

/-- Complete a command by Bracken, once (R465): its unplanned work goes, a record is formed and waits for its release
conditions, unless one has been issued. FAULT and ABORTED write a fault record and are captured (R468, R469). `seq` is
the related fault record's number where another block wrote one. -/
def Block.complete (b : Block) (tag status : Nat) (cap : Option Cap) (seq : Option Nat) : Block :=
  match b.cmd tag with
  | none => b
  | some c =>
    if c.done || c.issued then b.dropUnplanned tag
    else
      let b := b.dropUnplanned tag
      let own := b.nextSeq
      let b := match cap with
        | some k => (b.capture c status k).capRec c status k
        | none => b
      let w3 := match seq with
        | some n => n
        | none => if cap.isSome then own else 0
      let b := b.onCmd tag (fun c => { c with done := true, closed := true })
      b.onBk (fun k => { k with recs := k.recs ++ [b.newRec c status 0 w3 none false false] })

/-- A command with its work closed and all steps ended completes with OK, written by Bracken (R453). -/
def Block.tryOk (b : Block) (tag : Nat) : Block :=
  match b.cmd tag with
  | none => b
  | some c =>
    if c.closed ∧ !c.done ∧ !c.issued ∧ (b.placedOf tag).isEmpty ∧ !b.bk.segs.any (fun s => s.tag == tag)
        ∧ !b.bk.steps.any (fun s => s.tag == tag)
    then b.complete tag stOk none none else b

/-- The placed step at a place of a list. -/
def Block.placedAt (b : Block) (l tick index : Nat) : Option Placed :=
  b.bk.placed.find? (fun p => p.l == l && p.tick == tick && p.index == index)

/-- Forget a placed step. Its batch argument block is not reused before two ticks from now (R458). -/
def Block.unplace (b : Block) (l tick index : Nat) : Block :=
  match b.placedAt l tick index with
  | none => b
  | some p => b.onBk (fun k => { k with
      placed := k.placed.filter (fun p => !(p.l == l && p.tick == tick && p.index == index))
      blocks := if p.segs.isEmpty then k.blocks else SMap.set 0 k.blocks p.block (b.now + 2) })

/-- The first tick whose plan Bracken has not closed. -/
def Block.nextPlan (b : Block) : Nat := max (b.bk.closedTick + 1) (b.now + 1)

/-- Place a step again, from its start, in a later plan (R31, R39). A command's own step goes to its logical tile; the
segments of a batch return to the pool, or, with `pin`, stay one batch for that tile. -/
def Block.replan (b : Block) (p : Placed) (pin : Bool) : Block :=
  let b := b.unplace p.l p.tick p.index
  if p.segs.isEmpty then
    b.onBk (fun k => { k with steps := k.steps ++ (p.tags.map (fun t =>
      { tag := t, prog := p.prog, va := p.va, last := p.last, tile := some p.l : PStep })) })
  else
    let tie := if pin then some (p.l, p.tick, p.index) else none
    b.onBk (fun k => { k with segs := k.segs ++ p.segs.map (fun (s : Seg) => { s with pin := tie }) })

/-- A step is planned again if every deadline still permits, otherwise its commands complete ABORTED (R31, R39). -/
def Block.again (b : Block) (p : Placed) (cause : Nat) (pin : Bool) : Block :=
  let late := p.tags.filter (fun t => match b.cmd t with
    | some c => decide (c.deadline < b.nextPlan)
    | none => true)
  let keep := p.tags.filter (fun t => !late.any (· == t))
  let b := if keep.isEmpty then b.unplace p.l p.tick p.index
    else b.replan { p with tags := keep, segs := p.segs.filter (fun s => keep.any (· == s.tag)) } pin
  late.foldl (fun b t => (b.complete t stAborted (some { cause := cause, ltile := p.l, site := b.siteOf p.l }) none).settle t) b

/-- A step of a missing list (R31): the capture cause is PLAN_LATE. -/
def Block.missingStep (b : Block) (p : Placed) : Block := b.again p 2 false

/-- A step's end by abort or exception on Bracken's side: every command that owns it completes (R38, R124, R457). -/
def Block.stepFailed (b : Block) (l tick index status : Nat) (cap : Cap) (seq : Option Nat) : Block :=
  match b.placedAt l tick index with
  | none => b
  | some p =>
    let b := b.unplace l tick index
    p.tags.foldl (fun b t => (b.complete t status (some cap) seq).settle t) b

/-- A step ends by `stp.end`: its release report is owed (R505), and a command all of whose steps have ended completes. -/
def Block.stepEnded (b : Block) (l tick index : Nat) : Block :=
  match b.placedAt l tick index with
  | none => b
  | some p =>
    let b := b.unplace l tick index
    let b := b.onBk (fun k => { k with unreleased := k.unreleased ++ p.tags.map (fun t => (t, b.siteOf l)) })
    p.tags.foldl (fun b t => (b.tryOk t).settle t) b

end Sys2Proof.Machine
end

