-- ==== Sys2Proof/Machine/MaintOps.lean ====
section
/-! DEFINITION. Machine/MaintOps.lean: group control messages every block may send (R522, R523) and requests for
retirement (R61, R553, R558). -/

namespace Sys2Proof.Machine
open Reg

/-! ### Group control messages -/

/-- The words every group control payload begins with (R523). -/
def Block.grpHead (b : Block) : List Nat :=
  [b.now, b.rd GRP_ROLE.GROUP_ID % 2 ^ 16 + b.rd GRP_ROLE.TERM * 2 ^ 16 + b.rd XL_NODE.SELF * 2 ^ 32]

/-- Send a group control message (R522): the Damask engine's own source, latency class. Its words after the header
stand in `ws`; a node without a path gets nothing. -/
def Block.grpSend (b : Block) (node type : Nat) (ws : List Nat) : Block :=
  if b.on GRP_CTRL.ENABLE ∧ b.hasPath node 0 521 then
    (b.dmSend node 0 521 type 0 0xFFF 0 (b.grpHead ++ ws) [] none none).2
  else b

/-- The roles of GRP_ROLE.ROLE are 0 NONE, 1 WORKER, 2 DEPUTY, 3 MANAGER (R519). -/
def Block.isManager (b : Block) : Bool := b.on GRP_CTRL.ENABLE && b.rd GRP_ROLE.ROLE == 3

/-- MAINT_DONE with UNPLANNED for a retirement that hardware requested (R541, R558); the manager sends itself none. -/
def Block.maintUnplanned (b : Block) (l : Nat) : Block :=
  if b.isManager then b
  else b.grpSend (b.rd GRP_ROLE.MANAGER_NODE) 0x38 [1 + l % 4096 * 2 ^ 4 + 2 ^ 16]

/-! ### Retirement requests -/

/-- The lowest-numbered spare site of a region, if one is free (R58, R61). -/
def Block.freeSpare (b : Block) (r : Nat) : Option Nat :=
  [16, 17].find? (fun k => b.rd TL_SITE.STATE 0 (r * 18 + k) == 1)

/-- Submit a retirement request (R61): logical tile, SITE field, cause, tick (0 the next boundary). True: accepted. -/
def Block.retireReq (b : Block) (l site cause at_ : Nat) (hw : Bool) : Bool × Block :=
  let r := l / 16
  let pick := if site = 31 then b.freeSpare r
    else if (site = 16 ∨ site = 17) ∧ b.rd TL_SITE.STATE 0 (r * 18 + site) = 1 then some site else none
  let ok := !bit (b.rd TL_MAP_STATUS.PENDING) r && b.served l && (at_ == 0 || at_ ≥ b.now + 1)
    && (site == 31 || pick.isSome)
  if ok then
    let b := { b with retires := b.retires ++
      [({ region := r, l := l, newSite := pick, oldSite := b.siteOf l, cause := cause, at_ := at_, hardware := hw,
          copying := false : Retire })] }
    (true, b.wr TL_MAP_STATUS.PENDING (setBits (b.rd TL_MAP_STATUS.PENDING) r 1 1))
  else (false, b.wr TL_MAP_STATUS.CFG_ERR 1)

/-- A retirement hardware requests writes TL_RETIRE (R558): SITE 31, AT_TICK 0. A rejected request writes a record of
class RETIRE with cause 3. -/
def Block.hwRetire (b : Block) (l cause : Nat) : Block :=
  let b := (((b.wr TL_RETIRE.LTILE l).wr TL_RETIRE.SITE 31).wr TL_RETIRE.CAUSE cause).wr TL_RETIRE_AT.AT_TICK 0
  match b.retireReq l 31 cause 0 true with
  | (true, b) => b
  | (false, b) => b.report { cls := 12, cause := 3, level := 0, unit := l, site := b.siteOf l }

/-- After a count in TL_RPL of a site that serves a tile rises to `n` with the limit `limit` (R553): retirement at the next
boundary once the limit is reached. -/
def Block.limitRetire (b : Block) (p cause n limit : Nat) : Block :=
  if b.on FLT_CTRL.AUTO_RETIRE && b.siteOf (b.tileOf p) == p && decide (limit ≤ n) then b.hwRetire (b.tileOf p) cause else b

/-- TRANSIENTS of a site rises (R553), by an event whose retirement carries `cause`. -/
def Block.countTransient (b : Block) (p cause : Nat) : Block :=
  let b := b.inc TL_RPL.TRANSIENTS 1 p
  b.limitRetire p cause (b.rd TL_RPL.TRANSIENTS p) (b.rd FLT_RES_CTRL.TRANSIENT_LIMIT)

/-- CHECKER of a site rises (R553). -/
def Block.countChecker (b : Block) (p : Nat) : Block :=
  let b := b.inc TL_RPL.CHECKER 1 p
  b.limitRetire p 1 (b.rd TL_RPL.CHECKER p) (b.rd FLT_RES_CTRL.CHECKER_LIMIT)

end Sys2Proof.Machine
end

