-- ==== Sys2Proof/Machine/TileOps.lean ====
section
/-! DEFINITION. Machine/TileOps.lean: the operations every Novger instruction shares: semaphores (R102 to R107), tile
exceptions and context termination (R123 to R126, R559, R560), ending, aborting and starting steps (R30, R36 to R38, R86,
R87, R116), and fetching at the program counter (R91, R96, R122). -/

namespace Sys2Proof.Machine
open Reg

/-- Exception codes of R123. -/
def xIllegal : Nat := 0x01
/-- Fetch from an invalid or loading page. -/
def xImem : Nat := 0x02
/-- Branch target or fetch outside 0 to 8,191. -/
def xPcRange : Nat := 0x03
/-- Descriptor check failed. -/
def xDesc : Nat := 0x04
/-- Misaligned access. -/
def xAlign : Nat := 0x05
/-- No valid mapping. -/
def xTranslation : Nat := 0x06
/-- Context tag mismatch. -/
def xTag : Nat := 0x07
/-- A poisoned operand. -/
def xPoison : Nat := 0x08
/-- Semaphore fault. -/
def xSem : Nat := 0x09
/-- Version mismatch after retries. -/
def xTable : Nat := 0x0A
/-- A write that reached an absent address. -/
def xAbsentWrite : Nat := 0x0B

/-! ### Registers of a site -/

/-- Scalar register `n` of a site; s0 reads as 0 (R84). -/
def Site.s (x : Site) (n : Nat) : Nat := if n = 0 then 0 else x.sreg.get 64 n

/-- Write scalar register `n`; s0 ignores writes (R84). -/
def Site.setS (x : Site) (n v : Nat) : Site := if n = 0 then x else { x with sreg := x.sreg.set 64 n v }

/-- Descriptor register `n`. -/
def Site.d (x : Site) (n : Nat) : Nat := x.dreg.get 256 n

/-- Write descriptor register `n`. -/
def Site.setD (x : Site) (n v : Nat) : Site := { x with dreg := x.dreg.set 256 n v }

/-- Index of the word of row `r`, column `c` of tile register `t` (R88). -/
def tix (t r c : Nat) : Nat := t * 4096 + r * 64 + c

/-- A word of a tile register. -/
def Site.tw (x : Site) (t r c : Nat) : Nat := x.treg.get 32 (tix t r c)

/-- Write a word of a tile register with its poison mark (R88). -/
def Site.setTw (x : Site) (t r c v : Nat) (pois : Bool) : Site :=
  { x with treg := x.treg.set 32 (tix t r c) v
           tpois := if pois then NSet.add x.tpois (tix t r c) else NSet.del x.tpois (tix t r c) }

/-- The count of semaphore `s` of a site. -/
def Block.sem (b : Block) (p s : Nat) : Nat := b.rd TL_SEM.COUNT p s

/-- The class of a tile's Damask messages: latency for a hard-slot step, bulk for a soft one (R479). -/
def Block.clsOf (b : Block) (p : Nat) : Nat :=
  match (b.site p).run with
  | some r => if r.d.soft then 1 else 0
  | none => 0

/-- The running step as the issuer of an access by instruction `pc` of engine `eng` at address `va` (R124, R490). -/
def Block.ownerOf (b : Block) (p eng pc va : Nat) : Option Issuer :=
  (b.site p).run.map (fun r =>
    { site := p, tag := r.d.cmdTag, tick := r.tick, index := r.d.index, eng := eng, pc := pc, va := va % 2 ^ 48 })

/-- The step context of a site (R87). -/
def Block.ctxOf (b : Block) (p : Nat) : Nat := b.rd TL_STATUS.CTX p

/-- The program counter of a site. -/
def Block.pcOf (b : Block) (p : Nat) : Nat := b.rd TL_STATUS.PC p

/-! ### Replay outcomes -/

/-- An outcome of a residue mismatch (R551): 1 TRANSIENT, 2 CHECKER, 3 LASTING, 4 UNRESOLVED. One record of class
RESIDUE, the module's count and the site's, and the limits of R553. An UNRESOLVED outcome counts as transient (R546). -/
def Block.resOutcome (b : Block) (p outcome tag img : Nat) : Block :=
  let b := b.report { cls := 9, cause := outcome, level := 0, unit := b.tileOf p, site := p, cmdTag := tag,
                      ctx := some (b.ctxOf p), aux1 := img }
  if outcome = 1 then (b.inc FLT_RES_CNT.TRANSIENT).countTransient p 1
  else if outcome = 2 then (b.inc FLT_RES_CNT.CHECKER).countChecker p
  else if outcome = 3 then b.inc FLT_RES_CNT.LASTING
  else (b.inc FLT_RES_CNT.UNRESOLVED).countTransient p 1

/-- A replay that is cut short gives UNRESOLVED, unless its pass had been decided (R551, R578). -/
def Block.replayCut (b : Block) (p : Nat) : Block :=
  match (b.site p).replay with
  | none => b
  | some r =>
    let tag := (b.site p).run.elim 0 (fun x => x.d.cmdTag)
    let b := b.resOutcome p (if r.outcome = 0 then 4 else r.outcome) tag r.img
    (b.onSite p (fun s => { s with replay := none, stopped := false })).wr TL_RPL.STATE 0 p

/-! ### Ending a step -/

/-- A plane whose loads stop is invalid; a plane with no load in progress is unchanged (R38). -/
def Plane.stop (pl : Plane) : Plane :=
  if pl.loading > 0 then { pl with valid := false, loading := 0, overlap := false } else pl

/-- A multicast into a plane ends before its last row (R203): the plane ends invalid, whatever else loads it. `began`: rows
of it have arrived. -/
def Plane.lose (pl : Plane) (began : Bool) : Plane :=
  let n := pl.loading - began.toNat
  { pl with valid := false, loading := n, overlap := decide (n > 0) }

/-- Is a load into the shadow plane of a site in progress (R175, R203, R224): one that has begun, or a multicast whose rows
are on their way? -/
def Block.loadRuns (b : Block) (p : Nat) : Bool :=
  (b.site p).shadow.loading > 0 || b.mcasts.any (fun m => m.l == b.tileOf p && !m.cut)

/-- A step-start swap that waited takes place once no load is in progress (R224). -/
def Block.lateSwap (b : Block) (p : Nat) : Block :=
  if (b.site p).swapWait && !b.loadRuns p then
    b.onSite p (fun s => { s with swapWait := false, planeSel := 1 - s.planeSel })
  else b

/-- Completion records that a step of a site has handed over and that have not been issued never become the record
(R38, R465). -/
def Block.dropRecs (b : Block) (p : Nat) : Block :=
  b.onBk (fun k => { k with recs := k.recs.filter (fun r => !(r.src == some p && r.phase == 0)) })

/-- Does the step of a site wait for the answer? -/
def Waiter.isStep (w : Waiter) (p : Nat) : Bool :=
  match w with
  | .load q => q == p
  | .engine q _ => q == p
  | .wait q => q == p
  | _ => false

/-- What is left of a request that a held tile's router has accepted from a step of a site which stops (R38): a write and an
atomic are performed, an answer reaches nothing. -/
def HeldReq.orphan (q : HeldReq) (p : Nat) : Option HeldReq :=
  match q with
  | .access h => if h.site = some p then (if h.kind = 4 then none else some (.access { h with site := none })) else some q
  | _ => some q

/-- Answers on their way to a step of a site, and writes it holds back for a release, are discarded (R38). -/
def Block.dropRemote (b : Block) (p : Nat) : Block :=
  let b := b.onDm (fun d => { d with
    tags := d.tags.filter (fun t => !t.who.isStep p)
    holds := d.holds.filter (fun h => h.site != some p && (h.owner.map (·.site)) != some p) })
  { b with heldQ := b.heldQ.filterMap (fun x => (x.2.orphan p).map (fun q => (x.1, q))) }

/-- A multicast whose source stops before the mesh has accepted its last row leaves its receivers' planes invalid (R38,
R203); a swap that waited for it takes place. -/
def Block.dropMcasts (b : Block) (p : Nat) : Block :=
  let gone := fun (m : Mcast) => m.srcSite == p && (b.site p).flight.any (fun i => i.id == m.id)
  let mine := b.mcasts.filter gone
  ({ b with mcasts := b.mcasts.filter (fun m => !gone m) }).each mine (fun b m =>
    if m.cut then b
    else (b.onSite (b.siteOf m.l) (fun s => s.setShadow (s.shadow.lose (m.rows > 0)))).lateSwap (b.siteOf m.l))

/-- The loads of a site's planes stop (R38): rows of a multicast that has begun to arrive change nothing any more. -/
def Block.cutLoads (b : Block) (p : Nat) : Block :=
  { b with mcasts := b.mcasts.map (fun (m : Mcast) => if m.l == b.tileOf p && m.rows > 0 then { m with cut := true } else m) }

/-- How the step of a site that ends now would round: nearest-even, its seed, the exception its seed's read left, or,
where the seed has not come, a free value. -/
def Block.rndNow (b : Block) (p : Nat) : FrRnd × Block :=
  if (b.site p).run.elim true (·.rne) then (.ne, b)
  else match b.seedOf p with
    | .value v => (.seed v, b)
    | .failed x => (.bad x, b)
    | .waiting =>
      let (v, b) := b.draw 64
      (.seed v, b)

/-- Stop a step (R38, R124): nothing more issues, operations not started are discarded; Twill passes and Frond instructions
that have started run on and their results are discarded, and until they have ended they read t0–t7 as these stand; a shadow
load stops; semaphore counts are unchanged. -/
def Block.stopStep (b : Block) (p : Nat) : Block :=
  let b := (((b.dropRecs p).dropRemote p).dropMcasts p).cutLoads p
  let (rnd, b) := b.rndNow p
  let b := b.onSite p (fun s => { s with
    queue := [], flight := [], pend := none, wait := none, waitOld := [], pendReg := [], ending := false, swapWait := false,
    passes := s.passes.map (fun q => if q.dead then q else { q with dead := true, old := s.treg, rnd := rnd }),
    runs := (s.runs.filter (fun q => q.ins.eng == 4 && !q.dead)).map (fun q => { q with dead := true }), far := [],
    plane0 := s.plane0.stop, plane1 := s.plane1.stop, draining := true, stopped := false, mss := s.mss.stop })
  b.wr TL_STATUS.RUN 2 p

/-- The drain of a step has ended: t0–t7 are undefined to the next step (R38), and what the step left in the engines is gone. -/
def Block.drainOver (b : Block) (p : Nat) : Block :=
  let (sd, b) := b.freshSeed
  b.onSite p (fun s => { s with treg := Arr.undef sd, tpois := [], twritten := [], runs := [], far := [] })

/-- The running step of a site ends: what is left is the drain (R38). -/
def Block.dropRun (b : Block) (p : Nat) : Block := b.onSite p (fun s => { s with run := none, log := [], logAt := 0 })

/-- TL_EXC's value for an event (R128, R566). -/
def excWord (code eng pc ctx tick : Nat) : Nat :=
  code % 256 + eng % 8 * 2 ^ 8 + pc % 2 ^ 13 * 2 ^ 11 + ctx % 4096 * 2 ^ 24 + 2 ^ 36 + tick % 2 ^ 26 * 2 ^ 38

/-- Capture and count an exception of the step of context `ctx`, tick `tick` and CMD_TAG `tag` (R126) and write its fault
record (R124, R566). -/
def Block.captureAs (b : Block) (p code eng pc va : Nat) (fatal : Bool) (ctx tick tag : Nat) : Block :=
  let b := if b.on TL_EXC.VALID p then b.wr TL_EXC.MORE 1 p
    else ((((((b.wr TL_EXC.VALID 1 p).wr TL_EXC.CODE code p).wr TL_EXC.ENG eng p).wr TL_EXC.PC pc p).wr
      TL_EXC.CTX ctx p).wr TL_EXC.TICK_LO tick p).wr TL_EXC_ADDR.VA va p
  let b := b.inc TL_EXC_CNT.EXCEPTIONS 1 p
  let b := if code = xSem then b.inc TL_EXC_CNT.SEM_FAULTS 1 p else b
  b.report { cls := 1, cause := code, level := 0, severity := if fatal then 1 else 0, ctx := some ctx,
             unit := b.tileOf p, site := p, addr := va, cmdTag := tag,
             aux1 := excWord code eng pc ctx tick, aux2 := va % 2 ^ 48 }

/-- Capture and count an exception of the running step. -/
def Block.captureExc (b : Block) (p code eng pc va : Nat) (fatal : Bool) : Block :=
  b.captureAs p code eng pc va fatal (b.ctxOf p) ((b.site p).run.elim b.now (fun r => r.tick))
    ((b.site p).run.elim 0 (fun r => r.d.cmdTag))

/-- End the running step with FAULT (R124): its commands complete FAULT with the given record's number. The capture holds
the program counter as the step ends (R469). -/
def Block.failStep (b : Block) (p code seq : Nat) : Block :=
  match (b.site p).run with
  | none => b
  | some r =>
    let l := b.tileOf p
    let cap : Cap := { cause := 0, ltile := l, site := p, exc := code, busy := (b.site p).busy, pc := b.pcOf p, ctx := b.ctxOf p }
    let b := b.replayCut p
    let b := (b.stopStep p).dropRun p
    if r.d.pack then b else b.stepFailed l r.tick r.d.index stFault cap (some seq)

/-- Raise a fatal exception (R124): captured, recorded, the step ended and its command completed FAULT. -/
def Block.raise (b : Block) (p code eng pc va : Nat) : Block :=
  let seq := b.nextSeq
  (b.captureExc p code eng pc va true).failStep p code seq

/-- Raise an exception at the program counter (decode and the scalar unit, precise, R124). -/
def Block.raisePc (b : Block) (p code va : Nat) : Block := b.raise p code 0 (b.pcOf p) va

/-! ### Semaphores -/

/-- Raise SEM_FAULT on the tile that owns the semaphore (R104, R106, R126). -/
def Block.semFault (b : Block) (p s : Nat) (src : SemSrc) : Block :=
  let pc := src.pc.getD (b.pcOf p)
  let va := s % 32 + src.tile % 512 * 2 ^ 5 + src.kind % 4 * 2 ^ 14 + src.eng % 8 * 2 ^ 16
  let stop := b.on TL_CTRL.SEM_FAULT_STOP p
  let seq := b.nextSeq
  let b := b.captureExc p xSem 1 pc va stop
  if stop then b.failStep p xSem seq else b

/-- The amount a queued instruction waits for on semaphore `s`, if it waits on it (R103). -/
def EngIns.waitsOn (i : EngIns) (s : Nat) : Option Nat :=
  if i.granted then none
  else if i.op = .semWait then (if i.s.getD 0 0 = s then some (i.s.getD 1 0) else none)
  else if i.eng ≥ 2 ∧ i.t.we ∧ i.t.wsem.toNat = s then some 1 else none

/-- Grant the waits of the heads of engines 1 to 5 in order (R104): what is left, and the queue. -/
def grantAll (q : List EngIns) (s avail : Nat) : Nat × List EngIns :=
  [1, 2, 3, 4, 5].foldl (fun (acc : Nat × List EngIns) e =>
    match acc.2.find? (fun i => i.eng == e) with
    | none => acc
    | some h =>
      match h.waitsOn s with
      | none => acc
      | some n =>
        if acc.1 ≥ n then
          (acc.1 - n, acc.2.map (fun i => if i.id == h.id then { i with granted := true } else i))
        else acc) (avail, q)

/-- One semaphore update (R104): a set value, signals, grants, subtractions, saturation with SEM_FAULT. The signals are the
one that comes with this update and those that have arrived in its cycle before it. -/
def Block.semCycle (b : Block) (p s : Nat) (set : Option Nat) (sig sub : Nat) (src : SemSrc) : Block :=
  let now := (b.site p).semNow.filter (fun x => x.sem == s)
  let base := set.getD (b.sem p s)
  let (avail, q) := grantAll (b.site p).queue s (base + (now.map (·.amount)).sum + sig)
  let b := b.onSite p (fun x => { x with queue := q, semNow := x.semNow.filter (fun y => y.sem != s) })
  let above := avail > 255 + sub
  let under := avail < sub
  let n := if above then 255 else avail - sub
  let b := b.wr TL_SEM.COUNT n p s
  let last := if sig = 0 ∧ sub = 0 then (now.getLast?.map (·.src)).getD src else src
  if above ∨ under then b.semFault p s last else b

/-- A signal arrives in the same cycle as the next update of its semaphore, which counts it (R104). -/
def Block.semJoin (b : Block) (p s n : Nat) (src : SemSrc) : Block :=
  b.onSite p (fun x => { x with semNow := x.semNow ++ [⟨s, n, src⟩] })

/-- A signal: counted at once, or with the next update of the semaphore where that falls in the same cycle (`same`). -/
def Block.signal (b : Block) (p s n : Nat) (same : Bool) (src : SemSrc) : Block :=
  if same then b.semJoin p s n src else b.semCycle p s none n 0 src

/-- Signals from outside the tile's own instructions count towards X of a replay (R548). -/
def Block.noteOutside (b : Block) (p s n : Nat) : Block :=
  b.onSite p (fun x => { x with fromOut := SMap.set 0 x.fromOut s (SMap.get 0 x.fromOut s + n) })

/-! ### Context termination -/

/-- Is a context terminated (R560)? -/
def Block.isTerm (b : Block) (ctx : Nat) : Bool := NSet.mem b.terminated ctx

/-- All sites that run a step of a context. -/
def Block.sitesOf (b : Block) (ctx : Nat) : List Nat :=
  (b.sites.filter (fun s => match s.2.run with
    | some r => r.d.ctx == ctx && !r.d.pack
    | none => false)).map (·.1)

/-- Terminate a context (R559, R560): `eng` consumed poison at index `pc` of a step on site `p`, the one that runs or, while it
drains, the one that has ended (R125): its context, tick and CMD_TAG. The system context is never terminated: the POISON
then ends only the step. -/
def Block.terminateAs (b : Block) (p eng pc va ctx tick tag : Nat) : Block :=
  let seq := b.nextSeq
  let b := b.captureAs p xPoison eng pc va true ctx tick tag
  if ctx = 0xFFF then b.failStep p xPoison seq
  else
    let seq := b.nextSeq
    let b := b.report { cls := 13, cause := eng, level := 0, severity := 2, ctx := some ctx, unit := b.tileOf p,
                        site := p, addr := va, cmdTag := tag, aux0 := pc }
    let b := { b with terminated := NSet.add b.terminated ctx, termSeq := SMap.set 0 b.termSeq ctx seq }
    let b := b.wr FLT_STATUS.TERMINATED b.terminated.length
    let b := (b.sitesOf ctx).foldl (fun b q => b.failStep q xPoison seq) b
    -- Steps of the context that no plan holds, and their commands (R560, item 5).
    let cmds := b.bk.cmds.filter (fun c => c.qctx == ctx && !c.done &&
      (b.bk.segs.any (fun s => s.tag == c.tag) || b.bk.steps.any (fun s => s.tag == c.tag)))
    cmds.foldl (fun b c => (b.complete c.tag stFault (some { cause := 0, exc := xPoison, ctx := ctx }) (some seq)).settle c.tag) b

/-- Terminate the context of the running step of a site. -/
def Block.terminate (b : Block) (p eng pc va : Nat) : Block :=
  b.terminateAs p eng pc va (b.ctxOf p) ((b.site p).run.elim b.now (fun r => r.tick)) ((b.site p).run.elim 0 (fun r => r.d.cmdTag))

/-! ### Starting steps -/

/-- Load s1 to s5 from the step descriptor (R86). -/
def Site.loadArgs (x : Site) (r : StepRun) : Site :=
  ((((x.setS 1 r.d.argsVa).setS 2 r.d.rows).setS 3 r.tick).setS 4
    (r.d.cmdTag % 2 ^ 32 + r.d.slot % 32 * 2 ^ 32 + r.d.soft.toNat * 2 ^ 37 + r.d.index % 32 * 2 ^ 40)).setS 5 r.d.budget

/-- Start a step on a site (R86, R87, R116, R548): s1–s5, the step context, the swap, the program counter, and the copy
from which a replay restores. -/
def Block.beginStep (b : Block) (p : Nat) (r : StepRun) : Block :=
  let b := b.onSite p (fun s =>
    let wait := r.d.swap && b.loadRuns p
    let s := if r.d.swap && !wait then { s with planeSel := 1 - s.planeSel } else s
    let s := { s with swapWait := wait }
    let s := s.loadArgs r
    { s with run := some r, draining := false, ending := false, twritten := [], planeWr := [], log := [], logAt := 0, fromOut := [],
             noReplay := false, runs := [], far := [], passNo := 0, frondQ := 0, replay := none, stopped := false, pcOver := false, mss := { s.mss.stop with seq := 0 } })
  let b := b.onSite p (fun s => { s with start := some { sreg := s.sreg, dreg := s.dreg, sems := (List.range 32).map (b.sem p), planeSel := s.planeSel } })
  ((((((b.wr TL_STATUS.RUN 1 p).wr TL_STATUS.CTX r.d.ctx p).wr TL_STATUS.PC r.d.entry p).wr
    TL_STATUS.STEP_INDEX r.d.index p).wr TL_STEP.CYCLES 0 p).wr TL_RPL.LOG_USED 0 p).wr TL_RPL.STATE 0 p

/-- Does a step that has not started belong to a terminated context (R560, item 4)? -/
def Block.termTodo (b : Block) (r : StepRun) : Bool := b.isTerm r.d.ctx && !r.d.pack

/-- A step of a terminated context ends without having started (R560, item 4): FAULT, neither aborted nor overrun. -/
def Block.endTodo (b : Block) (p : Nat) (r : StepRun) : Block :=
  b.stepFailed (b.tileOf p) r.tick r.d.index stFault
    { cause := 0, ltile := b.tileOf p, site := p, exc := xPoison, pc := r.d.entry, ctx := r.d.ctx }
    (some (SMap.get 0 b.termSeq r.d.ctx))

/-- Start the first step left in a site's list; a step of a terminated context ends at its start with FAULT, without
issuing an instruction (R560). With none left the tile is idle until the next boundary (R30). -/
def Block.nextStepN : Nat → Block → Nat → Block
  | 0, b, p => (b.onSite p (fun s => { s with draining := false })).wr TL_STATUS.RUN 0 p
  | n + 1, b, p =>
    match (b.site p).todo with
    | [] => (b.onSite p (fun s => { s with draining := false })).wr TL_STATUS.RUN 0 p
    | r :: rest =>
      let b := b.onSite p (fun s => { s with todo := rest })
      if b.termTodo r then Block.nextStepN n (b.endTodo p r) p else b.beginStep p r

/-- Start the next step of a site's list. -/
def Block.nextStep (b : Block) (p : Nat) : Block := Block.nextStepN ((b.site p).todo.length) b p

/-- Abort the running step of a site at a boundary (R36, R38): drained, its commands complete ABORTED. -/
def Block.abortRun (b : Block) (p : Nat) : Block :=
  match (b.site p).run with
  | none => b
  | some r =>
    let l := b.tileOf p
    let cap : Cap := { cause := 1, ltile := l, site := p, busy := (b.site p).busy, pc := b.pcOf p, ctx := b.ctxOf p }
    let b := b.replayCut p
    let b := (b.stopStep p).dropRun p
    if r.d.pack then b else b.stepFailed l r.tick r.d.index stAborted cap none

/-! ### Fetch -/

/-- May the next instruction of logical tile `l` issue (R91, R94, R122)? The site, or nothing: no step runs, the sequencer
holds for a load or for `stp.end`, or the fetch itself raises PC_RANGE or IMEM_INVALID, or the word fetched has an
unassigned pair (ENG, OP) and raises ILLEGAL_INSTR, whatever the command. A fetch past index 8,191 records PC 8,191:
8,192 does not fit the field, and the spec gives no value for it (DESIGN CHOICE, assumption log 53). -/
def Block.fetch (b : Block) (l : Nat) : Option Nat × Block :=
  if !b.served l then (none, b) else
  let p := b.siteOf l
  let s := b.site p
  if b.rd TL_STATUS.RUN p ≠ 1 ∨ s.pend.isSome ∨ s.ending ∨ s.run.isNone ∨ s.stopped ∨ s.swapWait ∨ s.copying then (none, b)
  else if s.pcOver then (none, b.raisePc p xPcRange 0)
  else
    let page := b.pcOf p / 512
    if b.on TL_IMEM_PAGE.LOADING p page ∨ !b.on TL_IMEM_PAGE.VALID p page then (none, b.raisePc p xImem 0)
    else if !wordAssigned (SMap.get 0 s.imem (b.pcOf p)) then (none, b.raisePc p xIllegal 0)
    else (some p, b)

/-- Move to the next instruction (R96). -/
def Block.advance (b : Block) (p : Nat) : Block :=
  if b.pcOf p = 8191 then b.onSite p (fun s => { s with pcOver := true }) else b.wr TL_STATUS.PC (b.pcOf p + 1) p

/-- Does an engine have yet to write one of these scalar registers, so that the sequencer stalls (R92)? -/
def Block.stalled (b : Block) (p : Nat) (regs : List Nat) : Bool :=
  regs.any (fun r => NSet.mem (b.site p).pendReg r)

/-- Issue an instruction of the scalar unit: fetch, the illegal-instruction test, the stall test, the effect. An
instruction that stalls has no effect yet. `f` moves the program counter itself. -/
def Block.issue (b : Block) (l : Nat) (legal : Bool) (regs : List Nat) (f : Nat → Block → Block) : Block :=
  match b.fetch l with
  | (none, b) => b
  | (some p, b) =>
    if !legal then b.raisePc p xIllegal 0
    else if b.stalled p regs then b
    else f p b

/-- Write a scalar result and go on. -/
def Block.setSreg (b : Block) (p n v : Nat) : Block := (b.onSite p (fun s => s.setS n v)).advance p

end Sys2Proof.Machine
end

