-- ==== Sys2Proof/Machine/MapOps.lean ====
section
/-! DEFINITION. Machine/MapOps.lean: test pack signatures (R562 to R564) and the end of a step (R115, R116). -/

namespace Sys2Proof.Machine
open Reg

/-! ### Test packs -/

/-- The header of the fleet test pack (R562): words 0 to 6, and whether it may run. -/
def Block.packHead (b : Block) : List Nat × Bool :=
  let r := b.tableWords (b.rd FLT_TP_BASE.BASE * 2 ^ 6) 8
  (r.1, !r.2.1 && bit (r.1.getD 0 0) 32)

/-- Digest of words as R539 and R563 form it: over each word's low and high halves. -/
def digestWords (d : Nat) (ws : List Nat) : Nat :=
  ws.foldl (fun d w => mix (mix (d ^^^ (w % 2 ^ 64)) ^^^ (w / 2 ^ 64))) d

/-- The output words of a pack run, each checked as it is read (R380), and whether one of them is poisoned. Words past the
end of the local store wrap to its start: R562 bounds no output (DESIGN CHOICE, assumption log 53). -/
def Block.packWords (b : Block) (p out n : Nat) : (List Nat × Bool) × Block :=
  (List.range n).foldl (fun (acc : (List Nat × Bool) × Block) i =>
    let (w, b) := acc.2.lsRead p ((out + 16 * i) % 2 ^ 22)
    ((acc.1.1 ++ [w.data], acc.1.2 || w.isPoison), b)) (([], false), b)

/-- The signature of a pack run (R563) and whether an output word is poisoned. -/
def Block.packSig (b : Block) (p : Nat) (h : List Nat) : (Nat × Bool) × Block :=
  let id := h.getD 0 0 % 2 ^ 32
  let n := h.getD 5 0 % 2 ^ 32
  let ws := b.packWords p (bits (h.getD 4 0) 0 22) n
  ((digestWords (mix (id ^^^ (n * 2 ^ 32))) ws.1.1, ws.1.2), ws.2)

/-- After a pack step ends (R563, R564): the signature is compared with GOLDEN. -/
def Block.packEnd (b : Block) (p : Nat) : Block :=
  let h := b.packHead.1
  let sig := b.packSig p h
  let b := sig.2
  let ok := sig.1.1 == h.getD 6 0 && !sig.1.2
  let l := b.tileOf p
  let rerun := (b.site p).packRerun
  let b := (b.inc FLT_TP_CNT.RUNS).onSite p (fun s => { s with packLast := some b.now, packRerun := !ok && !rerun })
  let b := b.wr TL_RPL.STATE (if !ok && !rerun then 3 else 0) p
  let rec_ := fun (b : Block) c => b.report { cls := 11, cause := c, level := 0, unit := l, site := p }
  if ok then
    if rerun then (rec_ b 2).countTransient p 4 else b
  else
    let b := b.inc FLT_TP_CNT.MISMATCHES
    if rerun then (rec_ b 3).hwRetire l 4 else rec_ b 1

/-! ### The end of a step -/

/-- Has every operation of the step completed, returned or been accepted (R115)? -/
def Block.quiet (b : Block) (p : Nat) : Bool :=
  let s := b.site p
  s.queue.isEmpty && s.flight.isEmpty && s.pend.isNone && s.wait.isNone && s.waitOld.isEmpty
    && !s.passes.any (fun q => !q.dead) && s.mss.openParts == 0
    && !b.dm.holds.any (fun h => (h.owner.map (·.site)) == some p) && !b.dm.tags.any (fun t => t.who == .wait p)

/-- The outcome of a replay that ran to its end (R551), and the limits of R553. -/
def Block.replayEnd (b : Block) (p : Nat) : Block :=
  match (b.site p).replay with
  | none => b
  | some r =>
    let tag := (b.site p).run.elim 0 (fun x => x.d.cmdTag)
    let b := b.resOutcome p (if r.outcome = 0 then 4 else r.outcome) tag r.img
    (b.onSite p (fun s => { s with replay := none })).wr TL_RPL.STATE 0 p

/-- Retire `stp.end` if everything of the step is done (R115, R116): the step has ended and the next one starts. -/
def Block.tryEnd (b : Block) (p : Nat) : Block :=
  match (b.site p).run with
  | none => b
  | some r =>
    if (b.site p).ending ∧ b.quiet p ∧ !(b.site p).stopped then
      let b := b.inc TL_STEP.STEPS_ENDED 1 p
      let b := b.replayEnd p
      let b := if r.d.pack then b.packEnd p else b.stepEnded (b.tileOf p) r.tick r.d.index
      ((b.onSite p (fun s => { s with run := none, ending := false })).wr TL_RPL.LOG_USED 0 p).nextStep p
    else b

end Sys2Proof.Machine
end

