-- ==== Sys2Proof/Machine/Scalar.lean ====
section
/-! DEFINITION. Machine/Scalar.lean: the scalar unit (R136 to R153): arithmetic, loads, stores, atomics, branches,
descriptor moves, tick and step instructions. -/

namespace Sys2Proof.Machine
open Reg

/-! ### Arithmetic (R136 to R139) -/

/-- The operation FN selects (R137); arithmetic wraps modulo 2⁶⁴. -/
def scFn (fn : Nat) (a b : W64) : W64 :=
  let sh := b.toNat % 64
  if fn = 0 then a + b
  else if fn = 1 then a - b
  else if fn = 2 then a &&& b
  else if fn = 3 then a ||| b
  else if fn = 4 then a ^^^ b
  else if fn = 5 then a <<< sh
  else if fn = 6 then a >>> sh
  else if fn = 7 then a.sshiftRight sh
  else if fn = 8 then a * b
  else if fn = 9 then BitVec.ofNat 64 (a.toNat * b.toNat / 2 ^ 64)
  else if fn = 10 then (if a.toInt < b.toInt then 1 else 0)
  else if fn = 11 then (if a.toNat < b.toNat then 1 else 0)
  else if fn = 12 then (if a.toInt ≤ b.toInt then a else b)
  else if fn = 13 then (if a.toInt ≤ b.toInt then b else a)
  else if fn = 14 then (if a.toNat ≤ b.toNat then a else b)
  else (if a.toNat ≤ b.toNat then b else a)

/-- A scalar register as a 64-bit word. -/
def Block.sreg (b : Block) (p n : Nat) : W64 := BitVec.ofNat 64 ((b.site p).s n)

/-- SC_NOP (R136): no state changes but the program counter. -/
def Block.doScNop (b : Block) (l : LTile) (rest : BitVec 54) : Block :=
  b.issue l (rest == 0) [] (fun p b => b.advance p)

/-- SC_ARITH (R137, R138). -/
def Block.doScArith (b : Block) (l : LTile) (f : FmtR) : Block :=
  b.issue l (f.res == 0 && f.fn.toNat < 16) [f.sd.toNat, f.sa.toNat, f.sb.toNat] (fun p b =>
    b.setSreg p f.sd.toNat (scFn f.fn.toNat (b.sreg p f.sa.toNat) (b.sreg p f.sb.toNat)).toNat)

/-- SC_ARITH_IMM (R137, R138). -/
def Block.doScArithImm (b : Block) (l : LTile) (f : FmtI) : Block :=
  b.issue l (f.fn.toNat < 16) [f.sd.toNat, f.sa.toNat] (fun p b =>
    b.setSreg p f.sd.toNat (scFn f.fn.toNat (b.sreg p f.sa.toNat) (f.imm.signExtend 64)).toNat)

/-- SC_LI (R139). -/
def Block.doScLi (b : Block) (l : LTile) (f : FmtI) : Block :=
  b.issue l (f.fn == 0 && f.sa == 0) [f.sd.toNat] (fun p b =>
    b.setSreg p f.sd.toNat (f.imm.signExtend 64).toNat)

/-- SC_LIH (R139): bits [63:32] are set, bits [31:0] kept. -/
def Block.doScLih (b : Block) (l : LTile) (f : FmtI) : Block :=
  b.issue l (f.fn == 0 && f.sa == 0) [f.sd.toNat] (fun p b =>
    b.setSreg p f.sd.toNat (f.imm.toNat * 2 ^ 32 + (b.sreg p f.sd.toNat).toNat % 2 ^ 32))

/-! ### Loads and stores (R140 to R144, R148, R149) -/

/-- The effective address s[SA] + sext(IMM) (R141). -/
def Block.ea (b : Block) (p : Nat) (f : FmtI) : Nat :=
  (b.sreg p f.sa.toNat + f.imm.signExtend 64).toNat

/-- Read bytes of a site's own local store: neither translated nor tag-checked (R404). -/
def Block.lsBytes (b : Block) (p off n : Nat) : MBytes × Block :=
  (pieces off n).foldl (fun (acc : MBytes × Block) pc =>
    let (w, b) := acc.2.lsRead p (pc.1 / 16 * 16)
    (acc.1 ++ w.slice (pc.1 % 16) pc.2, b)) ([], b)

/-- Write bytes to a site's own local store. -/
def Block.lsStore (b : Block) (p off : Nat) (bs : MBytes) : Block :=
  (pieces off bs.length).foldl (fun b pc =>
    let part : MBytes := (bs.drop (pc.1 - off)).take pc.2
    b.lsWrite p pc.1 part.bytes part.pois) b

/-- Hold the sequencer for a value (R142). -/
def Block.hold (b : Block) (p : Nat) (x : PendLoad) : Block := b.onSite p (fun s => { s with pend := some x })

/-- The physical address of an offset of a tile's own local store (R78). -/
def Block.ownPa (b : Block) (l off : Nat) : Nat := b.rd XL_NODE.SELF * 2 ^ 46 + 0x0200_0000_0000 + l * 2 ^ 22 + off

/-- A load of `n` bytes into a scalar (`kind` 0) or descriptor (`kind` 1) register (R141, R148): ALIGN, TRANSLATION and
CONTEXT_TAG are raised at the instruction; the value returns later, and a poisoned word raises POISON then. -/
def Block.load (b : Block) (p : Nat) (l kind dst a n : Nat) (virt signed : Bool) : Block :=
  if a % n ≠ 0 then b.raisePc p xAlign (a % 2 ^ 48)
  else if virt then
    let (r, b) := b.vread p (b.ctxOf p) (b.clsOf p) l a n (.load p)
    if r.exc ≠ 0 then b.raisePc p r.exc (r.va % 2 ^ 48)
    else b.hold p { kind := kind, dst := dst, value := leNat r.bytes, poison := r.pois, exc := 0, va := a, signed := signed,
                    width := n, ready := !r.remote }
  else if a + n > 0x30_0000 then b.raisePc p xTranslation (a % 2 ^ 48)
  else
    let waits := b.lineHeld l (b.ownPa l a) n
    if waits.isEmpty then
      let (bs, b) := b.lsBytes p a n
      b.hold p { kind := kind, dst := dst, value := leNat bs.bytes, poison := bs.pois, exc := 0, va := a, signed := signed,
                 width := n, ready := true }
    else
      (b.holdAcc (readHold p l 0xFFF (b.ctxOf p) (b.clsOf p) (b.ownPa l a) n waits none)).hold p
        { kind := kind, dst := dst, value := 0, poison := false, exc := 0, va := a, signed := signed, width := n, ready := false }

/-- A store of bytes with a release attribute (R141): it waits at its source for the writes of R500 to R502. -/
def Block.store (b : Block) (p l a : Nat) (bs : MBytes) (virt : Bool) (rel : Nat) : Block :=
  if a % bs.length ≠ 0 then b.raisePc p xAlign (a % 2 ^ 48)
  else if virt then
    let (r, b) := b.vwrite p (b.ctxOf p) (b.clsOf p) l a bs rel (b.ownerOf p 0 (b.pcOf p) a)
    if r.exc ≠ 0 then b.raisePc p r.exc (r.va % 2 ^ 48) else b.advance p
  else if a + bs.length > 0x30_0000 then b.raisePc p xTranslation (a % 2 ^ 48)
  else
    let waits := b.relWaits l (b.ctxOf p) rel (b.ownPa l a) bs.length
    if waits.isEmpty then (b.lsStore p a bs).advance p
    else
      (b.holdAcc
         { uid := 0, src := l, ctx := 0xFFF, under := b.ctxOf p, waits := waits, bad := false,
           pa := b.ownPa l a, kind := 0, width := bs.length, data := bs,
           cmpv := 0, cls := b.clsOf p, owner := b.ownerOf p 0 (b.pcOf p) a, site := none }).advance p

/-- SC_LD (R140 to R142). -/
def Block.doScLd (b : Block) (l : LTile) (f : FmtI) : Block :=
  b.issue l (f.fn.toNat < 16) [f.sd.toNat, f.sa.toNat] (fun p b =>
    b.load p l 0 f.sd.toNat (b.ea p f) (2 ^ (f.fn.toNat % 4)) (bit f.fn.toNat 3) (bit f.fn.toNat 2))

/-- SC_ST (R140 to R142). -/
def Block.doScSt (b : Block) (l : LTile) (f : FmtI) : Block :=
  let rel := bits f.fn.toNat 4 2
  b.issue l (f.fn.toNat < 64 && !bit f.fn.toNat 2 && rel != 3) [f.sd.toNat, f.sa.toNat] (fun p b =>
    b.store p l (b.ea p f) (plain (leBytes (2 ^ (f.fn.toNat % 4)) (b.sreg p f.sd.toNat).toNat)) (bit f.fn.toNat 3) rel)

/-- DSC_LD (R148, R149). -/
def Block.doDscLd (b : Block) (l : LTile) (f : FmtI) : Block :=
  b.issue l (f.fn.toNat == 0 || f.fn.toNat == 8) [f.sa.toNat] (fun p b =>
    if f.sd.toNat ≥ 16 then b.raisePc p xIllegal 0
    else b.load p l 1 f.sd.toNat (b.ea p f) 32 (bit f.fn.toNat 3) false)

/-- DSC_ST (R148, R149). -/
def Block.doDscSt (b : Block) (l : LTile) (f : FmtI) : Block :=
  let rel := bits f.fn.toNat 4 2
  b.issue l (f.fn.toNat < 64 && bits f.fn.toNat 0 3 == 0 && rel != 3 && f.sd.toNat < 16) [f.sa.toNat] (fun p b =>
    b.store p l (b.ea p f) (plain (leBytes 32 ((b.site p).d f.sd.toNat))) (bit f.fn.toNat 3) rel)

/-- The value of a returned load: sign- or zero-extended (R141). -/
def PendLoad.result (x : PendLoad) : Nat :=
  if x.signed then ofInt 64 (toInt (8 * x.width) x.value) else x.value % 2 ^ (8 * x.width)

/-- The running step ran into the end of what a replay would repeat: a logged effect (R550). -/
def Block.logEffect (b : Block) (p kind : Nat) (vals : List Nat) : Block :=
  match (b.site p).replay with
  | some _ => b
  | none =>
    if (b.site p).log.length < 32 then
      let b := b.onSite p (fun s => { s with log := s.log ++ [⟨kind, vals⟩] })
      b.wr TL_RPL.LOG_USED (b.site p).log.length p
    else b.onSite p (fun s => { s with noReplay := true })

/-- During a replay, the k-th effect is matched with log entry k and is not performed again (R550). -/
def Block.replayed (b : Block) (p : Nat) : Option (Effect × Block) :=
  match (b.site p).replay with
  | none => none
  | some r =>
    if r.started then
      match (b.site p).log[(b.site p).logAt]? with
      | some e => some (e, b.onSite p (fun s => { s with logAt := s.logAt + 1 }))
      | none => none
    else none

/-- An atomic of a tile (R143, R144): `op` 0 `sc.aadd`, 1 `sc.cas`. The sequencer waits for the old value. -/
def Block.atomic (b : Block) (p l op : Nat) (f : FmtR) : Block :=
  let wide := f.fn.toNat % 2
  let n := 4 + 4 * wide
  let rel := bits f.fn.toNat 1 2
  let va := (b.sreg p f.sa.toNat).toNat
  let operand := (b.sreg p f.sb.toNat).toNat % 2 ^ (8 * n)
  let comp := (b.sreg p f.sd.toNat).toNat % 2 ^ (8 * n)
  let got := fun (b : Block) (v : Nat) (pois : Bool) (ready : Bool) =>
    b.hold p { kind := 2, dst := f.sd.toNat, value := v, poison := pois, exc := 0, va := va, signed := false, width := n, ready := ready }
  if va % n ≠ 0 then b.raisePc p xAlign (va % 2 ^ 48)
  else
    match b.replayed p with
    | some (e, b) => got b (e.vals.headD 0) false true
    | none =>
      let ctx := b.ctxOf p
      let (x, b) := b.tileXl p ctx va true
      if x.cause ≠ 0 then b.raisePc p xTranslation (va % 2 ^ 48)
      else
        let waits := b.relWaits l ctx rel x.pa n
        let h : RelHold :=
          { uid := 0, src := l, ctx := ctx, under := ctx, waits := waits, bad := false, pa := x.pa, kind := op + 1, width := n,
            data := plain (leBytes n operand), cmpv := comp, cls := b.clsOf p, owner := b.ownerOf p 0 (b.pcOf p) va, site := some p,
            ent := x.ent }
        if !waits.isEmpty then got (b.holdAcc h) 0 false false
        else if nodeOf x.pa = b.rd XL_NODE.SELF then
          match b.heldTile (offOf x.pa) with
          | some t => got (b.holdHere t h) 0 false false
          | none =>
          match b.matomic ctx (offOf x.pa) n op operand comp with
          | (old, pois, .ok, b) => got (b.logEffect p 0 [old]) old pois true
          | (_, _, .tag, b) => b.raisePc p xTag (va % 2 ^ 48)
          | (_, _, .absent, b) => b.raisePc p xAbsentWrite (va % 2 ^ 48)
        else
          let (ok, b) := b.dmAtomic (nodeOf x.pa) (b.clsOf p) l rel ctx (offOf x.pa) op wide operand comp
            (.load p) none x.ent
          if ok then got b 0 false false else b.raisePc p xAbsentWrite (va % 2 ^ 48)

/-- SC_AADD (R143). -/
def Block.doScAadd (b : Block) (l : LTile) (f : FmtR) : Block :=
  b.issue l (f.res == 0 && f.fn.toNat < 8 && bits f.fn.toNat 1 2 != 3) [f.sd.toNat, f.sa.toNat, f.sb.toNat]
    (fun p b => b.atomic p l 0 f)

/-- SC_CAS (R143). -/
def Block.doScCas (b : Block) (l : LTile) (f : FmtR) : Block :=
  b.issue l (f.res == 0 && f.fn.toNat < 8 && bits f.fn.toNat 1 2 != 3) [f.sd.toNat, f.sa.toNat, f.sb.toNat]
    (fun p b => b.atomic p l 1 f)

/-- SC_LD_RETURN (R142, R144, R149): the value returns and the sequencer resumes; a poisoned value raises POISON. -/
def Block.doScLdReturn (b : Block) (l : LTile) : Block :=
  let p := b.siteOf l
  match (b.site p).pend with
  | none => b
  | some x =>
    if !x.ready then b
    else
      let b := b.onSite p (fun s => { s with pend := none })
      if x.exc ≠ 0 then b.raisePc p x.exc (x.va % 2 ^ 48)
      else if x.poison then b.raisePc p xPoison (x.va % 2 ^ 48)
      else if x.kind = 1 then (b.onSite p (fun s => s.setD x.dst x.value)).advance p
      else b.setSreg p x.dst x.result

/-! ### Branches (R145 to R147) -/

/-- The condition of `sc.br` (R145). -/
def brTaken (cond : Nat) (a b : W64) : Bool :=
  if cond = 0 then a == b
  else if cond = 1 then a != b
  else if cond = 2 then decide (a.toInt < b.toInt)
  else if cond = 3 then decide (b.toInt ≤ a.toInt)
  else if cond = 4 then decide (a.toNat < b.toNat)
  else if cond = 5 then decide (b.toNat ≤ a.toNat)
  else true

/-- Go to an index, or raise PC_RANGE outside 0 to 8,191 (R96). -/
def Block.jump (b : Block) (p : Nat) (t : Int) : Block :=
  if 0 ≤ t ∧ t ≤ 8191 then b.wr TL_STATUS.PC t.toNat p else b.raisePc p xPcRange 0

/-- SC_BR (R145, R146). -/
def Block.doScBr (b : Block) (l : LTile) (f : FmtB) : Block :=
  b.issue l (f.res == 0 && f.cond.toNat < 7 && (f.cond.toNat != 6 || (f.sa == 0 && f.sb == 0))) [f.sa.toNat, f.sb.toNat]
    (fun p b =>
      if brTaken f.cond.toNat (b.sreg p f.sa.toNat) (b.sreg p f.sb.toNat)
      then b.jump p ((b.pcOf p : Int) + f.off.toInt) else b.advance p)

/-- SC_JAL (R147): the target is judged before the link register is written (the exception is precise, R124). -/
def Block.doScJal (b : Block) (l : LTile) (f : FmtI) : Block :=
  b.issue l (f.fn == 0 && f.sa == 0) [f.sd.toNat] (fun p b =>
    let t : Int := (b.pcOf p : Int) + f.imm.toInt
    if 0 ≤ t ∧ t ≤ 8191 then (b.onSite p (fun s => s.setS f.sd.toNat (b.pcOf p + 1))).jump p t else b.raisePc p xPcRange 0)

/-- SC_JR (R147): the old s[SA] is read before s[SD] is written. -/
def Block.doScJr (b : Block) (l : LTile) (f : FmtR) : Block :=
  b.issue l (f.res == 0 && f.fn == 0 && f.sb == 0) [f.sd.toNat, f.sa.toNat] (fun p b =>
    let t : Int := ((b.sreg p f.sa.toNat).toNat : Int)
    if t ≤ 8191 then (b.onSite p (fun s => s.setS f.sd.toNat (b.pcOf p + 1))).jump p t else b.raisePc p xPcRange 0)

/-! ### Descriptor moves (R150, R151) -/

/-- DSC_MV. -/
def Block.doDscMv (b : Block) (l : LTile) (f : FmtR) : Block :=
  b.issue l (f.res == 0 && f.fn == 0 && f.sb == 0 && f.sd.toNat < 16 && f.sa.toNat < 16) [] (fun p b =>
    (b.onSite p (fun s => s.setD f.sd.toNat (s.d f.sa.toNat))).advance p)

/-- DSC_PUT: one 64-bit quarter. -/
def Block.doDscPut (b : Block) (l : LTile) (f : FmtR) : Block :=
  b.issue l (f.res == 0 && f.fn.toNat < 4 && f.sb == 0 && f.sd.toNat < 16) [f.sa.toNat] (fun p b =>
    (b.onSite p (fun s => s.setD f.sd.toNat (setBits (s.d f.sd.toNat) (64 * f.fn.toNat) 64 (s.s f.sa.toNat)))).advance p)

/-- DSC_GET. -/
def Block.doDscGet (b : Block) (l : LTile) (f : FmtR) : Block :=
  b.issue l (f.res == 0 && f.fn.toNat < 4 && f.sb == 0 && f.sa.toNat < 16) [f.sd.toNat] (fun p b =>
    b.setSreg p f.sd.toNat (bits ((b.site p).d f.sa.toNat) (64 * f.fn.toNat) 64))

/-- DSC_ADV: BASE advances modulo 2⁴⁸. -/
def Block.doDscAdv (b : Block) (l : LTile) (f : FmtR) : Block :=
  b.issue l (f.res == 0 && f.fn == 0 && f.sb == 0 && f.sd.toNat < 16) [f.sa.toNat] (fun p b =>
    (b.onSite p (fun s => s.setD f.sd.toNat (setBits (s.d f.sd.toNat) 0 48 (bits (s.d f.sd.toNat) 0 48 + s.s f.sa.toNat)))).advance p)

/-! ### Tick and step (R117, R152, R153) -/

/-- The legality of an instruction of format R that uses SD only. -/
def onlySd (f : FmtR) : Bool := f.res == 0 && f.fn == 0 && f.sa == 0 && f.sb == 0

/-- TCK_CNT: the tick number of the running list; during a spilled step that of its own list (R117). -/
def Block.doTckCnt (b : Block) (l : LTile) (f : FmtR) : Block :=
  b.issue l (onlySd f) [f.sd.toNat] (fun p b => b.setSreg p f.sd.toNat ((b.site p).run.elim 0 (fun r => r.tick)))

/-- TCK_NS: `ns` is the time since the most recent boundary as the tile received it (R117). -/
def Block.doTckNs (b : Block) (l : LTile) (f : FmtR) (ns : W64) : Block :=
  b.issue l (onlySd f) [f.sd.toNat] (fun p b => b.setSreg p f.sd.toNat ns.toNat)

/-- STP_CYC: `cyc` is the number of tile cycles since the step started (R117); TL_STEP.CYCLES shows it, saturating. -/
def Block.doStpCyc (b : Block) (l : LTile) (f : FmtR) (cyc : W64) : Block :=
  b.issue l (onlySd f) [f.sd.toNat] (fun p b =>
    (b.wr TL_STEP.CYCLES (min cyc.toNat (2 ^ 32 - 1)) p).setSreg p f.sd.toNat cyc.toNat)

/-- STP_END (R115, R153): the sequencer dispatches nothing more; the step ends once everything it did is done. -/
def Block.doStpEnd (b : Block) (l : LTile) (rest : BitVec 54) : Block :=
  b.issue l (rest == 0) [] (fun p b => (b.onSite p (fun s => { s with ending := true })).tryEnd p)

end Sys2Proof.Machine
end

