-- ==== Sys2Proof/Machine/Num.lean ====
section
/-! DEFINITION. Machine/Num.lean: number formats, conversion and rounding (R235 to R261): exact values, the procedures of
R236 and R248, the stochastic generator, affine row codes, and the saturation counters (R263 to R265). -/

namespace Sys2Proof.Machine
open Reg

/-- An exact value: NaN, an infinity, or (−1)^neg × num / den with den > 0; zero keeps its sign. -/
inductive XR where
  | nan
  | inf (neg : Bool)
  | fin (neg : Bool) (num den : Nat)
  deriving DecidableEq, Repr

/-- bits(FMT) of R98. -/
def fmtBits (f : Nat) : Nat :=
  if f = 0 then 32 else if f = 1 then 16 else if f = 2 then 16 else if f = 3 then 8 else if f = 4 then 8
  else if f = 5 then 6 else if f = 6 then 6 else if f = 7 then 4 else if f = 8 then 8 else if f = 9 then 4 else 32

/-- Width of E (R235). -/
def fmtE (f : Nat) : Nat :=
  if f = 0 then 8 else if f = 1 then 8 else if f = 2 then 5 else if f = 3 then 4 else if f = 4 then 5
  else if f = 5 then 3 else if f = 6 then 2 else 2

/-- Width of M (R235). -/
def fmtM (f : Nat) : Nat :=
  if f = 0 then 23 else if f = 1 then 7 else if f = 2 then 10 else if f = 3 then 3 else if f = 4 then 2
  else if f = 5 then 2 else if f = 6 then 3 else 1

/-- Exponent bias (R235). -/
def fmtBias (f : Nat) : Nat :=
  if f = 0 then 127 else if f = 1 then 127 else if f = 2 then 15 else if f = 3 then 7 else if f = 4 then 15
  else if f = 5 then 3 else 1

/-- Formats with infinities: FP32, BF16, FP16, FP8-E5M2. -/
def fmtInf (f : Nat) : Bool := f == 0 || f == 1 || f == 2 || f == 4

/-- Is the format a float format? -/
def isFloat (f : Nat) : Bool := f < 8

/-- Is the format an integer format? -/
def isInt (f : Nat) : Bool := f == 8 || f == 9 || f == 10

/-- The canonical NaN of a format that has one (R239). -/
def fmtNan (f : Nat) : Option Nat :=
  if f = 0 then some 0x7FC00000 else if f = 1 then some 0x7FC0 else if f = 2 then some 0x7E00
  else if f = 3 then some 0x7F else if f = 4 then some 0x7E else none

/-- The code, without sign, of the largest finite value (R235). -/
def fmtMax (f : Nat) : Nat :=
  if fmtInf f then (2 ^ fmtE f - 1) * 2 ^ fmtM f - 1 else if f = 3 then 0x7E else 2 ^ (fmtE f + fmtM f) - 1

/-- A positive or negative power of two times a natural number, as an exact value. -/
def XR.scaled (neg : Bool) (m : Nat) (e : Int) : XR :=
  if 0 ≤ e then .fin neg (m * 2 ^ e.toNat) 1 else .fin neg m (2 ^ (-e).toNat)

/-- Decode a float code (R236). -/
def decodeF (f c : Nat) : XR :=
  let mw := fmtM f
  let ew := fmtE f
  let s := bit c (ew + mw)
  let e := bits c mw ew
  let m := bits c 0 mw
  if fmtInf f ∧ e = 2 ^ ew - 1 then (if m = 0 then .inf s else .nan)
  else if f = 3 ∧ e = 15 ∧ m = 7 then .nan
  else if e = 0 then XR.scaled s m (1 - (fmtBias f : Int) - mw)
  else XR.scaled s (2 ^ mw + m) ((e : Int) - fmtBias f - mw)

/-- The integer an integer code stands for (R237). -/
def decodeI (f c : Nat) (signed : Bool) : Int :=
  let w := fmtBits f
  if signed || f == 10 then toInt w c else ((c % 2 ^ w : Nat) : Int)

/-- An integer as an exact value. -/
def XR.ofInt (v : Int) : XR := .fin (decide (v < 0)) v.natAbs 1

/-- Decode an element of any format. -/
def decodeX (f c : Nat) (signed : Bool) : XR := if isFloat f then decodeF f c else .ofInt (decodeI f c signed)

/-- ⌊log₂(num / den)⌋ for num, den > 0. -/
def floorLog2 (num den : Nat) : Int :=
  let k : Int := (num.log2 : Int) - den.log2
  let ge := if 0 ≤ k then decide (den * 2 ^ k.toNat ≤ num) else decide (den ≤ num * 2 ^ (-k).toNat)
  if ge then k else k - 1

/-- A rounding mode: nearest-even, or stochastic with the generator value R. -/
inductive Rnd where
  | ne
  | st (r : Nat)
  deriving DecidableEq, Repr

/-- The multiple k of q = 2^t that rnd(y, q, RND) of R248 gives for y = num / den, and whether it was exact. -/
def rndK (num den : Nat) (t : Int) (r : Rnd) : Nat :=
  let n := if 0 ≤ t then num else num * 2 ^ (-t).toNat
  let d := if 0 ≤ t then den * 2 ^ t.toNat else den
  let k := n / d
  let f := n % d
  match r with
  | .ne => if 2 * f > d ∨ (2 * f = d ∧ k % 2 = 1) then k + 1 else k
  | .st v => if v < f * 2 ^ 24 / d then k + 1 else k

/-- Round an exact value to an integer under R248; for a negative value the magnitude's floor is taken below, so that
`rnd` rounds towards −∞ or up as R248 writes it. -/
def rndInt (neg : Bool) (num den : Nat) (r : Rnd) : Int :=
  if !neg then (rndK num den 0 r : Nat)
  else
    -- y = −num/den: k = floor(y), f = y − k.
    let k : Int := -(((num + den - 1) / den : Nat) : Int)
    let f := ((num + den - 1) / den) * den - num
    match r with
    | .ne => if 2 * f > den ∨ (2 * f = den ∧ k % 2 ≠ 0) then k + 1 else k
    | .st v => if v < f * 2 ^ 24 / den then k + 1 else k

/-- Events a conversion counts. -/
structure Ev where
  sat : Nat := 0
  infOv : Nat := 0
  nanLost : Nat := 0
  deriving DecidableEq, Repr

/-- Add events. -/
def Ev.add (a b : Ev) : Ev := ⟨a.sat + b.sat, a.infOv + b.infOv, a.nanLost + b.nanLost⟩

/-- hi(F) (R237). -/
def intHi (f : Nat) (signed : Bool) : Int := if signed || f == 10 then (2 ^ (fmtBits f - 1) : Nat) - 1 else (2 ^ fmtBits f : Nat) - 1
/-- lo(F). -/
def intLo (f : Nat) (signed : Bool) : Int := if signed || f == 10 then -((2 ^ (fmtBits f - 1) : Nat) : Int) else 0

/-- convert() of R248 into a float format: the code and the events. `inf1` is INF. -/
def convF (f : Nat) (x : XR) (r : Rnd) (inf1 : Bool) : Nat × Ev :=
  let sgn := fun (n : Bool) => if n then 2 ^ (fmtE f + fmtM f) else 0
  match x with
  | .nan => match fmtNan f with
    | some c => (c, {})
    | none => (0, { nanLost := 1 })
  | .inf n => if fmtInf f then (sgn n + (2 ^ fmtE f - 1) * 2 ^ fmtM f, {}) else (sgn n + fmtMax f, { sat := 1 })
  | .fin n num den =>
    if num = 0 then (sgn n, {})
    else
      let emin : Int := 1 - (fmtBias f : Int)
      let e := max (floorLog2 num den) emin
      let k := rndK num den (e - fmtM f) r
      -- The magnitude as a code with an unlimited exponent: k of 2^(m+1) is the smallest value of the next binade.
      let mag := if k < 2 ^ fmtM f then k
        else if k = 2 ^ (fmtM f + 1) then ((e + 1 + fmtBias f).toNat) * 2 ^ fmtM f
        else (e + fmtBias f).toNat * 2 ^ fmtM f + (k - 2 ^ fmtM f)
      if mag > fmtMax f then
        if f = 4 ∧ inf1 then (sgn n + (2 ^ fmtE f - 1) * 2 ^ fmtM f, { infOv := 1 })
        else (sgn n + fmtMax f, { sat := 1 })
      else (sgn n + mag, {})

/-- convert() of R248 into an integer format. -/
def convI (f : Nat) (signed : Bool) (x : XR) (r : Rnd) : Nat × Ev :=
  let put := fun (v : Int) => ofInt (fmtBits f) v
  match x with
  | .nan => (0, { nanLost := 1 })
  | .inf n => (put (if n then intLo f signed else intHi f signed), { sat := 1 })
  | .fin n num den =>
    let v := rndInt n num den r
    if v > intHi f signed then (put (intHi f signed), { sat := 1 })
    else if v < intLo f signed then (put (intLo f signed), { sat := 1 })
    else (put v, {})

/-- convert() of R248 into any format. -/
def convX (f : Nat) (signed : Bool) (x : XR) (r : Rnd) (inf1 : Bool) : Nat × Ev :=
  if isFloat f then convF f x r inf1 else convI f signed x r

/-- Does converting a value to a format draw a generator value? It does where the value is not a multiple of the
destination's step, so that rounding has a choice. -/
def needsDraw (f : Nat) (x : XR) : Bool :=
  match x with
  | .fin _ num den =>
    if num = 0 then false
    else if isFloat f then
      let t := max (floorLog2 num den) (1 - (fmtBias f : Int)) - fmtM f
      let n := if 0 ≤ t then num else num * 2 ^ (-t).toNat
      let d := if 0 ≤ t then den * 2 ^ t.toNat else den
      n % d != 0
    else num % den != 0
  | _ => false

/-! ### Exact arithmetic -/

/-- Negate. -/
def XR.neg : XR → XR
  | .nan => .nan
  | .inf n => .inf (!n)
  | .fin n a d => .fin (!n) a d

/-- Exact sum; a zero sum of opposite values is +0, of two negative zeros −0 (IEEE 754 nearest-even). -/
def XR.add : XR → XR → XR
  | .nan, _ => .nan
  | _, .nan => .nan
  | .inf a, .inf c => if a = c then .inf a else .nan
  | .inf a, _ => .inf a
  | _, .inf c => .inf c
  | .fin n a d, .fin m c e =>
    let x : Int := if n then -((a * e : Nat) : Int) else (a * e : Nat)
    let y : Int := if m then -((c * d : Nat) : Int) else (c * d : Nat)
    let s := x + y
    if s = 0 then .fin (n && m) 0 1 else .fin (decide (s < 0)) s.natAbs (d * e)

/-- Exact product; zero times an infinity is NaN. -/
def XR.mul : XR → XR → XR
  | .nan, _ => .nan
  | _, .nan => .nan
  | .inf a, .inf c => .inf (a != c)
  | .inf a, .fin m c _ => if c = 0 then .nan else .inf (a != m)
  | .fin n a _, .inf c => if a = 0 then .nan else .inf (n != c)
  | .fin n a d, .fin m c e => .fin (n != m) (a * c) (d * e)

/-- Exact quotient (IEEE 754 special cases). -/
def XR.div : XR → XR → XR
  | .nan, _ => .nan
  | _, .nan => .nan
  | .inf _, .inf _ => .nan
  | .inf a, .fin m _ _ => .inf (a != m)
  | .fin n _ _, .inf c => .fin (n != c) 0 1
  | .fin n a d, .fin m c e =>
    if c = 0 then (if a = 0 then .nan else .inf (n != m)) else .fin (n != m) (a * e) (d * c)

/-- Multiply by 2^e. -/
def XR.shift (e : Int) : XR → XR
  | .fin n a d => if 0 ≤ e then .fin n (a * 2 ^ e.toNat) d else .fin n a (d * 2 ^ (-e).toNat)
  | x => x

/-- a < b for finite and infinite values; false with a NaN. -/
def XR.lt : XR → XR → Bool
  | .nan, _ => false
  | _, .nan => false
  | .inf a, .inf c => a && !c
  | .inf a, _ => a
  | _, .inf c => !c
  | .fin n a d, .fin m c e =>
    let x : Int := if n then -((a * e : Nat) : Int) else (a * e : Nat)
    let y : Int := if m then -((c * d : Nat) : Int) else (c * d : Nat)
    decide (x < y)

/-- a = b as numbers; false with a NaN. -/
def XR.eq (a b : XR) : Bool := a != .nan && b != .nan && !a.lt b && !b.lt a

/-- An FP32 code of an exact value, nearest-even; beyond the range an infinity of its sign (R217, R243, R275). -/
def toF32 (x : XR) : Nat :=
  let (c, e) := convF 0 x .ne false
  if e.sat = 0 then c else if bit c 31 then 0xFF800000 else 0x7F800000

/-- FP32 sum, one rounding. -/
def f32Add (a b : Nat) : Nat := toF32 ((decodeF 0 a).add (decodeF 0 b))
/-- FP32 product, one rounding. -/
def f32Mul (a b : Nat) : Nat := toF32 ((decodeF 0 a).mul (decodeF 0 b))
/-- FP32 fused multiply-add, one rounding. -/
def f32Fma (a b c : Nat) : Nat := toF32 (((decodeF 0 a).mul (decodeF 0 b)).add (decodeF 0 c))

/-! ### Stochastic generator (R254, R255) -/

/-- draw() of R254: 24 bits. -/
def drawR (seed l tick index stream e : Nat) : Nat :=
  let h := mix (seed ^^^ tick)
  let h := mix (h ^^^ ((l * 2 ^ 16) ||| (index * 2 ^ 8) ||| stream))
  let h := mix (h ^^^ e)
  bits h 40 24

/-! ### Affine row codes (R259 to R261) -/

/-- decode_row() of R261: an FP32 code. -/
def decodeRow (c s o : Nat) : Nat :=
  let s := s % 2 ^ 16
  let o := o % 2 ^ 16
  match decodeF 1 s, decodeF 1 o with
  | .nan, _ => 0x7FC00000
  | _, .nan => 0x7FC00000
  | .fin _ 0 _, _ => o * 2 ^ 16
  | x, y => toF32 (y.add (x.mul (.fin false c 1)))

/-- BF16 nearest to a value rounded towards −∞ (`up` false) or +∞ (`up` true); beyond the largest finite value the rounding
away from zero gives the infinity of its sign. -/
def bf16Dir (up : Bool) (x : XR) : Nat :=
  match x with
  | .fin n num den =>
    if num = 0 then (if n then 0x8000 else 0)
    else
      let e := max (floorLog2 num den) (-126)
      let t := e - 7
      let a := if 0 ≤ t then num else num * 2 ^ (-t).toNat
      let d := if 0 ≤ t then den * 2 ^ t.toNat else den
      let k := if up != n then (a + d - 1) / d else a / d
      let (c, e) := convF 1 (XR.scaled n k t) .ne false
      if e.sat > 0 ∧ up ≠ n then (if n then 0xFF80 else 0x7F80) else c
  | .inf n => if n then 0xFF80 else 0x7F80
  | .nan => 0x7FC0

/-! ### Counters of a site (R263 to R265) -/

/-- The instruction whose saturations are counted: its source, its index, its step's context and the tick of its list. -/
structure SatAt where
  src : Nat
  pc : Nat
  ctx : Nat
  tick : Nat
  deriving DecidableEq, Repr

/-- Count saturations of a source and capture the first (R264, R265). -/
def Block.countSat (b : Block) (p : Nat) (x : SatAt) (n : Nat) : Block :=
  if n = 0 then b else
  let b := b.inc FR_SAT_CNT.SATURATIONS n p
  if b.on FR_SAT_FIRST.VALID p then b.wr FR_SAT_FIRST.MORE 1 p
  else
    let b := ((((b.wr FR_SAT_FIRST.VALID 1 p).wr FR_SAT_FIRST.SRC x.src p).wr FR_SAT_FIRST.PC x.pc p).wr
      FR_SAT_FIRST.CTX x.ctx p).wr FR_SAT_FIRST.TICK_LO x.tick p
    if n > 1 then b.wr FR_SAT_FIRST.MORE 1 p else b

/-- Count a conversion's events under a source (R264). -/
def Block.countEv (b : Block) (p : Nat) (x : SatAt) (e : Ev) : Block :=
  ((b.countSat p x e.sat).inc FR_SAT_CNT.INF_OVERFLOWS e.infOv p).inc FR_SAT_CNT.NAN_LOST e.nanLost p

end Sys2Proof.Machine
end

