-- ==== Sys2Proof/Machine/Approx.lean ====
section
/-! DEFINITION. Machine/Approx.lean: the transcendental operations of the Frond engine (R277, R278): special values
exactly as stated, and for every other input a value the spec does not give, free within the stated bound of the exact
result. The exact result is found by rational arithmetic to far less than a unit in the last place. -/

namespace Sys2Proof.Machine

/-- Sum of c(k) xᵏ for the terms of a list, first coefficient first (Horner's rule). -/
def poly (x : Rat) : List Rat → Rat
  | [] => 0
  | c :: r => c + x * poly x r

/-- k! -/
def fact : Nat → Nat
  | 0 => 1
  | n + 1 => (n + 1) * fact n

/-- Square a number n times. -/
def sqN : Nat → Rat → Rat
  | 0, x => x
  | n + 1, x => sqN n (x * x)

/-- eˣ for |x| ≤ 200: the series at x / 512, squared nine times. -/
def expQ (x : Rat) : Rat :=
  sqN 9 (poly (x / 512) ((List.range 30).map (fun k => 1 / ((fact k : Nat) : Rat))))

/-- artanh z for |z| ≤ 1/3. -/
def artanhQ (z : Rat) : Rat := z * poly (z * z) ((List.range 40).map (fun k => 1 / ((2 * k + 1 : Nat) : Rat)))

/-- ln 2. -/
def ln2Q : Rat := 2 * artanhQ (1 / 3)

/-- A power of two. -/
def pow2Q (e : Int) : Rat := if 0 ≤ e then ((2 ^ e.toNat : Nat) : Rat) else 1 / ((2 ^ (-e).toNat : Nat) : Rat)

/-- ⌊log₂ |y|⌋ for y ≠ 0. -/
def log2Q (y : Rat) : Int := floorLog2 y.num.natAbs y.den

/-- ln x for x > 0. -/
def logQ (x : Rat) : Rat :=
  let e := log2Q x
  let m := x * pow2Q (-e)
  2 * artanhQ ((m - 1) / (m + 1)) + (e : Rat) * ln2Q

/-- Cut to −200 … 200: beyond, the functions below have reached their limits. -/
def clampQ (x : Rat) : Rat := if x > 200 then 200 else if x < -200 then -200 else x

/-- tanh x. -/
def tanhQ (x : Rat) : Rat :=
  if x < 1 / 4096 ∧ -(1 / 4096) < x then x * poly (x * x) [1, -1 / 3, 2 / 15, -17 / 315, 62 / 2835]
  else
    let e := expQ (clampQ (2 * x))
    (e - 1) / (e + 1)

/-- 1 / (1 + e⁻ˣ). -/
def sigmoidQ (x : Rat) : Rat := 1 / (1 + expQ (clampQ (-x)))

/-- 1 / √(2π). -/
def invSqrt2Pi : Rat := 3989422804014326779399460599343818684758586311649346576659258296706579 / 10 ^ 70

/-- Φ(x) for |x| ≤ 16 by its series. -/
def phiQ (x : Rat) : Rat :=
  1 / 2 + invSqrt2Pi * x * poly (-(x * x) / 2) ((List.range 700).map (fun k => 1 / ((fact k * (2 * k + 1) : Nat) : Rat)))

/-- x Φ(x); beyond 16 in magnitude it is x or 0 to far less than the bound. -/
def geluQ (x : Rat) : Rat := if x > 16 then x else if x < -16 then 0 else x * phiQ x

/-- The rational value of an exact finite value. -/
def ratOf (neg : Bool) (n d : Nat) : Rat := if neg then -((n : Rat) / (d : Rat)) else (n : Rat) / (d : Rat)

/-- A rational as an exact value. -/
def xrOf (y : Rat) : XR := .fin (decide (y < 0)) y.num.natAbs y.den

/-- One unit in the last place of an exact result (R277). -/
def ulpQ (y : Rat) : Rat := if y = 0 then pow2Q (-149) else pow2Q (max (log2Q y) (-126) - 23)

/-- The value of a finite FP32 code. -/
def f32Q (c : Nat) : Option Rat :=
  match decodeF 0 c with
  | .fin n a d => some (ratOf n a d)
  | _ => none

/-- The part's value for operation `o` of input `a`, free within `tol` of the exact result y and between lo and hi; −0 lies
below a `lo` of +0. -/
def within (o a : Nat) (y tol lo hi : Rat) : Nat :=
  let v := Config.approx o [a] % 2 ^ 32
  match f32Q v with
  | some q => if y - tol ≤ q ∧ q ≤ y + tol ∧ lo ≤ q ∧ q ≤ hi ∧ !(lo = 0 ∧ v = 0x80000000) then v else toF32 (xrOf y)
  | none => toF32 (xrOf y)

/-- ⌊√n⌋ by `k` bits from the top. -/
def isqrtFrom (n : Nat) : Nat → Nat → Nat
  | 0, r => r
  | k + 1, r => if (r + 2 ^ k) * (r + 2 ^ k) ≤ n then isqrtFrom n k (r + 2 ^ k) else isqrtFrom n k r

/-- ⌊√n⌋. -/
def isqrt (n : Nat) : Nat := isqrtFrom n (n.log2 / 2 + 1) 0

/-- √(n/d) to 100 further bits, as a rational just below it. -/
def sqrtQ (x : Rat) : Rat :=
  let s := 400
  ((isqrt (x.num.natAbs * 4 ^ s / x.den) : Nat) : Rat) / ((2 ^ s : Nat) : Rat)

/-- √x correctly rounded: the scaled root is made odd where it is not exact, so that no tie arises (R278). -/
def sqrtF32 (n d : Nat) : Nat :=
  let s := 400
  let v := n * 4 ^ s
  let k := isqrt (v / d)
  let exact := k * k * d == v
  toF32 (.fin false (2 * k + (if exact then 0 else 1)) (2 ^ (s + 1)))

/-- A transcendental of R278 on an FP32 code. `recip` of a subnormal whose exact 1 / x rounds beyond the largest finite value
gives the infinity of its sign: R278 states no value for it (DESIGN CHOICE, assumption log 4). -/
def transc (o a : Nat) : Nat :=
  let nan := 0x7FC00000
  let inf := 0x7F800000
  let big := pow2Q 130
  match decodeF 0 a with
  | .nan => nan
  | .inf neg =>
    if o = 0x10 then (if neg then 0 else inf)
    else if o = 0x11 then (if neg then nan else inf)
    else if o = 0x12 then (if neg then 0x80000000 else 0)
    else if o = 0x13 then (if neg then nan else 0)
    else if o = 0x14 then (if neg then nan else inf)
    else if o = 0x15 then (if neg then 0 else 0x3F800000)
    else if o = 0x16 then (if neg then 0xBF800000 else 0x3F800000)
    else (if neg then 0x80000000 else inf)
  | .fin neg n d =>
    let x := ratOf neg n d
    if n = 0 then
      if o = 0x10 then 0x3F800000
      else if o = 0x11 then 0xFF800000
      else if o = 0x12 ∨ o = 0x13 then (if neg then 0xFF800000 else inf)
      else if o = 0x15 then 0x3F000000
      else a
    else if o = 0x10 then
      let y := expQ (clampQ x)
      if toF32 (xrOf y) = 0 ∨ y < pow2Q (-150) then 0
      else if y ≥ (2 - pow2Q (-24)) * pow2Q 127 then inf
      else within o a y (2 * ulpQ y) 0 big
    else if o = 0x11 then
      if neg then nan
      else if x = 1 then 0
      else
        let y := logQ x
        within o a y (2 * ulpQ y) (-big) big
    else if o = 0x12 then
      let y := 1 / x
      if toF32 (xrOf y) % 2 ^ 31 = inf then toF32 (xrOf y) else within o a y (ulpQ y) (-big) big
    else if o = 0x13 then
      if neg then nan
      else
        let y := 1 / sqrtQ x
        within o a y (ulpQ y) 0 big
    else if o = 0x14 then (if neg then nan else sqrtF32 n d)
    else if o = 0x15 then
      let y := sigmoidQ x
      within o a y (3 * ulpQ y) 0 1
    else if o = 0x16 then
      let y := tanhQ x
      within o a y (3 * ulpQ y) (-1) 1
    else
      let y := geluQ x
      let tol := if y ≥ pow2Q (-120) ∨ y ≤ -pow2Q (-120) then 4 * ulpQ y else pow2Q (-144)
      within o a y tol (-big) big

end Sys2Proof.Machine
end

