-- ==== Sys2Proof/Machine/Operands.lean ====
section
/-! DEFINITION. Machine/Operands.lean: tensor descriptors, their checks and the walk (R97 to R101), reads and writes of
runs of elements in local store, memory and tile registers, and which tile registers an engine instruction reads and
writes (R93). -/

namespace Sys2Proof.Machine
open Reg

/-! ### Descriptors (R97) -/

/-- BASE. -/
def dBase (d : Nat) : Nat := bits d 0 48
/-- FMT. -/
def dFmt (d : Nat) : Nat := bits d 48 4
/-- SIGNED. -/
def dSigned (d : Nat) : Bool := bit d 52
/-- SPACE. -/
def dSpace (d : Nat) : Nat := bits d 53 2
/-- NDIM. -/
def dNdim (d : Nat) : Nat := bits d 55 3
/-- MX. -/
def dMx (d : Nat) : Bool := bit d 58
/-- KIND. -/
def dKind (d : Nat) : Bool := bit d 59
/-- PAD. -/
def dPad (d : Nat) : Nat := bits d 60 3
/-- SIZEk as the field stands. -/
def dSize (d k : Nat) : Nat := bits d (64 + 16 * k) 16
/-- STRIDEk for k ≥ 1, signed. -/
def dStride (d k : Nat) : Int := toInt 24 (bits d (144 + 24 * (k - 1)) 24)
/-- Size of dimension k in the walk: 1 at or above NDIM. -/
def dDim (d k : Nat) : Nat := if k < dNdim d then dSize d k else 1
/-- bits(FMT). -/
def dBits (d : Nat) : Nat := fmtBits (dFmt d)
/-- Iterations of dimensions 1 to 4. -/
def dOuter (d : Nat) : Nat := dDim d 1 * dDim d 2 * dDim d 3 * dDim d 4
/-- The tile register a SPACE 2 descriptor names. -/
def dReg (d : Nat) : Nat := dBase d % 8
/-- A descriptor with another format read in place of its own, unsigned: for scale tensors (R101). -/
def dAsE8 (d : Nat) : Nat := setBits (setBits (setBits d 48 4 8) 52 1 0) 60 3 0

/-- The PAD value's code (R97). -/
def dPadCode (d : Nat) : Nat :=
  let f := dFmt d
  if dPad d = 0 then 0
  else if isFloat f then (if dPad d = 2 then fmtMax f else fmtMax f + 2 ^ (fmtE f + fmtM f))
  else ofInt (fmtBits f) (if dPad d = 2 then intHi f (dSigned d) else intLo f (dSigned d))

/-- Iteration `o` of dimensions 1 to 4 as an element offset (R99): dimension 1 runs fastest. -/
def dOff (d o : Nat) : Int :=
  let n1 := dDim d 1
  let n2 := dDim d 2
  let n3 := dDim d 3
  let at_ := fun k (i : Nat) => if k < dNdim d then dStride d k * (i : Int) else 0
  at_ 1 (o % n1) + at_ 2 (o / n1 % n2) + at_ 3 (o / (n1 * n2) % n3) + at_ 4 (o / (n1 * n2 * n3))

/-- Bit position of element (i0, o) from BASE (R99). -/
def dBit (d i0 o : Nat) : Int := ((i0 : Int) + dOff d o) * (dBits d : Nat)

/-- Lowest and highest element index the walk reaches. -/
def dSpan (d : Nat) : Int × Int :=
  [1, 2, 3, 4].foldl (fun (acc : Int × Int) k =>
    if k < dNdim d then
      let c := dStride d k * ((dSize d k : Nat) - 1 : Int)
      if c < 0 then (acc.1 + c, acc.2) else (acc.1, acc.2 + c)
    else acc) (0, (dDim d 0 : Int) - 1)

/-- Lowest and highest byte the walk reaches, for SPACE 0 and 1. -/
def dBytes (d : Nat) : Int × Int :=
  let w : Int := dBits d
  let (lo, hi) := dSpan d
  ((dBase d : Int) + lo * w / 8, (dBase d : Int) + (hi * w + w - 1) / 8)

/-- The checks of R100 but for KIND and MX. -/
def descPlain (d : Nat) : Bool :=
  let f := dFmt d
  let w := fmtBits f
  1 ≤ dNdim d && dNdim d ≤ 5 && f ≤ 10 && dSpace d != 3 && dPad d ≤ 2
  && (List.range (dNdim d)).all (fun k => dSize d k != 0)
  && (!dSigned d || f == 8 || f == 9)
  && [1, 2, 3, 4].all (fun k => !(k < dNdim d) || dStride d k * (w : Int) % 8 == 0)
  && (dSpace d == 2 || !(w == 16 || w == 32) || dBase d % (w / 8) == 0)
  && (dSpace d != 0 || (decide (0 ≤ (dBytes d).1) && decide ((dBytes d).2 < 0x30_0000)))
  && (dSpace d != 2 || (dNdim d ≤ 2 && dSize d 0 * w ≤ 2048 && dDim d 1 ≤ 64 && dBase d / 8 == 0))

/-- The conditions of R101 on dn (register number `n`) and d(n+1). -/
def descMx (n d dx : Nat) : Bool :=
  let nd := dNdim d
  3 ≤ dFmt d && dFmt d ≤ 8 && n ≤ 14 && dSpace d != 2
  && dNdim dx == nd && dSize dx 0 == (dSize d 0 + 31) / 32
  && [1, 2, 3, 4].all (fun k => !(k < nd) || dSize dx k == dSize d k)
  && !dMx dx && !dKind dx && dSpace dx == 0 && descPlain (dAsE8 dx)

/-- The checks of R100 and R101 for a descriptor that is no convolution window. -/
def descOk (n d dx : Nat) : Bool := descPlain d && !dKind d && (!dMx d || descMx n d dx)

/-! ### Runs of elements -/

/-- An element's code and its poison mark. -/
abbrev El := Nat × Bool

/-- Is a word of a tile register marked poisoned? -/
def Site.tpoisAt (x : Site) (t r c : Nat) : Bool := NSet.mem x.tpois (tix t r c)

/-- Elements of `w` bits at bit `i` on of a row of a tile register (R99). -/
def Site.rowGet (x : Site) (t r w n start : Nat) : List El :=
  (List.range n).map (fun k =>
    let cb := (start + k) * w
    let c := cb / 32
    let sh := cb % 32
    (bits (x.tw t r c + x.tw t r (c + 1) * 2 ^ 32) sh w,
     x.tpoisAt t r c || (sh + w > 32 && x.tpoisAt t r (c + 1))))

/-- Write elements into a row of a tile register. A word written whole takes the mark of what it receives; a part of
a word keeps the mark it has (R88). -/
def Site.rowPut (x : Site) (t r w start : Nat) (es : List El) : Site :=
  let lo := start * w
  let hi := lo + es.length * w
  let v := (es.zip (List.range es.length)).foldl (fun a e => a + (e.1.1 % 2 ^ w) * 2 ^ (w * e.2)) 0
  (List.range ((hi + 31) / 32 - lo / 32)).foldl (fun x j =>
    let c := lo / 32 + j
    let b0 := max lo (32 * c)
    let b1 := min hi (32 * c + 32)
    let mark := (es.zip (List.range es.length)).any (fun e => e.1.2 && lo + e.2 * w < b1 && b0 < lo + e.2 * w + w)
    let old := x.tw t r c
    let new := setBits old (b0 - 32 * c) (b1 - b0) (v / 2 ^ (b0 - lo))
    x.setTw t r c new (mark || (b1 - b0 < 32 && x.tpoisAt t r c))) x

/-- Split bytes into elements of `w` bits from bit `sh` on. -/
def bytesEls (ms : MBytes) (sh w n : Nat) : List El :=
  let v := leNat ms.bytes / 2 ^ sh
  (List.range n).map (fun k =>
    let a := sh + k * w
    (bits v (k * w) w, MBytes.pois ((ms.drop (a / 8)).take ((a + w - 1) / 8 - a / 8 + 1))))

/-- Lay elements over old bytes from bit `sh` on: the new bytes with their marks. -/
def elsBytes (old : List Byte) (sh w : Nat) (es : List El) : MBytes :=
  let nb := (sh + es.length * w + 7) / 8
  let body := (es.zip (List.range es.length)).foldl (fun a e => a + (e.1.1 % 2 ^ w) * 2 ^ (w * e.2)) 0
  let v := setBits (leNat old) sh (es.length * w) body
  (leBytes nb v).zip ((List.range nb).map (fun j =>
    (es.zip (List.range es.length)).any (fun e => e.1.2 && (sh + e.2 * w) / 8 ≤ j && j ≤ (sh + e.2 * w + w - 1) / 8)))

/-- Read `n` elements along dimension 0 from `i0` of iteration `o`, SPACE 0 or 2. -/
def Block.getRun (b : Block) (p d i0 n o : Nat) : List El × Block :=
  let w := dBits d
  if dSpace d = 2 then ((b.site p).rowGet (dReg d) o w n i0, b)
  else
    let a := (dBase d : Int) * 8 + dBit d i0 o
    let byte := (a / 8).toNat
    let sh := (a % 8).toNat
    let (ms, b) := b.lsBytes p byte ((sh + n * w + 7) / 8)
    (bytesEls ms sh w n, b)

/-- The local store offset and the bytes that elements of a SPACE 0 descriptor make, with what a byte shared with a
neighbour holds. -/
def Block.runBytes (b : Block) (p d i0 o : Nat) (es : List El) : Nat × MBytes × Block :=
  let w := dBits d
  let a := (dBase d : Int) * 8 + dBit d i0 o
  let byte := (a / 8).toNat
  let sh := (a % 8).toNat
  let nb := (sh + es.length * w + 7) / 8
  if sh = 0 ∧ es.length * w % 8 = 0 then (byte, elsBytes [] 0 w es, b)
  else
    let (old, b) := b.lsBytes p byte nb
    (byte, elsBytes old.bytes sh w es, b)

/-- Write elements along dimension 0 from `i0` of iteration `o`, SPACE 0 or 2. -/
def Block.putRun (b : Block) (p d i0 o : Nat) (es : List El) : Block :=
  if dSpace d = 2 then b.onSite p (fun s => s.rowPut (dReg d) o (dBits d) i0 es)
  else
    let (byte, ms, b) := b.runBytes p d i0 o es
    b.lsStore p byte ms

/-- A result of a transfer: the exception (0 none) and the address; `wait`: data are still on their way. -/
structure TRes where
  exc : Nat
  va : Nat
  wait : Bool
  deriving DecidableEq, Repr

/-- A transfer that went well. -/
def TRes.ok : TRes := ⟨0, 0, false⟩

/-- A transfer that waits for its data. -/
def TRes.later : TRes := ⟨0, 0, true⟩

/-- Virtual byte address of bit position `a` (R99): a 48-bit address, sign-extended from bit 47; outside the 48-bit space it
is not canonical, and its translation fails (R407). -/
def vByte (a : Int) : Nat := ofInt 64 (a / 8)

/-- BASE of a descriptor as a bit position: signed from bit 47 where it is a virtual address (R407). -/
def dBase8 (d : Nat) : Int := (if dSpace d = 1 then toInt 48 (dBase d) else (dBase d : Int)) * 8

/-- Does a held write of the tile cover some of its own local store's bytes, so that a later access waits (R501)? -/
def Block.ownHeld (b : Block) (p off n : Nat) : NSet := b.lineHeld (b.tileOf p) (b.ownPa (b.tileOf p) off) n

/-- Read a run of any SPACE (R99, R101). -/
def Block.fetchRun (b : Block) (p d i0 n o : Nat) : TRes × List El × Block :=
  let w := dBits d
  let a := dBase8 d + dBit d i0 o
  let sh := (a % 8).toNat
  let nb := (sh + n * w + 7) / 8
  if dSpace d = 1 then
    let (r, b) := b.vread p (b.ctxOf p) (b.clsOf p) (b.tileOf p) (vByte a) nb (.engine p 0)
    if r.exc ≠ 0 then (⟨r.exc, r.va % 2 ^ 48, false⟩, [], b)
    else if r.wait then (.later, [], b) else (.ok, bytesEls r.data sh w n, b)
  else if dSpace d = 0 ∧ !(b.ownHeld p (a / 8).toNat nb).isEmpty then (.later, [], b)
  else
    let (es, b) := b.getRun p d i0 n o
    (.ok, es, b)

/-- A write to the tile's own local store waits for what its release attribute names (R500 to R502). `codes`: whole words that
move unchanged (R161). -/
def Block.holdLocal (b : Block) (p pc off : Nat) (ms : MBytes) (waits : NSet) (codes : List Cw) : Block :=
  b.holdAcc
    { uid := 0, src := b.tileOf p, ctx := 0xFFF, under := b.ctxOf p, waits := waits, bad := false,
       pa := b.ownPa (b.tileOf p) off, kind := 0, width := ms.length,
       data := ms, cmpv := 0, cls := b.clsOf p, owner := b.ownerOf p 2 pc off, site := none, codes := codes }

/-- Write a run of any SPACE with a release attribute (R135, R500 to R502). -/
def Block.storeRun (b : Block) (p pc d i0 o : Nat) (es : List El) (rel : Nat) : TRes × Block :=
  if dSpace d = 1 then
    let w := dBits d
    let a := dBase8 d + dBit d i0 o
    let sh := (a % 8).toNat
    let nb := (sh + es.length * w + 7) / 8
    let whole := sh == 0 && es.length * w % 8 == 0
    let (r, b) : VRes × Block :=
      if whole then (VRes.none 0 0, b)
      else b.vread p (b.ctxOf p) (b.clsOf p) (b.tileOf p) (vByte a) nb (.engine p 0)
    if r.exc ≠ 0 then (⟨r.exc, r.va % 2 ^ 48, false⟩, b)
    else if r.wait then (.later, b)
    else
      let (r, b) := b.vwrite p (b.ctxOf p) (b.clsOf p) (b.tileOf p) (vByte a) (elsBytes r.data.bytes sh w es) rel (b.ownerOf p 2 pc 0)
      (⟨r.exc, r.va % 2 ^ 48, false⟩, b)
  else if dSpace d = 0 then
    let (byte, ms, b) := b.runBytes p d i0 o es
    let waits := b.relWaits (b.tileOf p) (b.ctxOf p) rel (b.ownPa (b.tileOf p) byte) ms.length
    (.ok, if waits.isEmpty then b.lsStore p byte ms else b.holdLocal p pc byte ms waits [])
  else (.ok, b.putRun p d i0 o es)

/-- Chunks of a walk with `width` elements each (R99): first index, count, iteration. -/
def dChunks (d width : Nat) : List (Nat × Nat × Nat) :=
  let n0 := dDim d 0
  (List.range (dOuter d)).flatMap (fun o =>
    (List.range ((n0 + width - 1) / width)).map (fun j => (j * width, min width (n0 - j * width), o)))

/-! ### Captured operands (R92, R101) -/

/-- Descriptor A as read at dispatch. -/
def EngIns.da (i : EngIns) : Nat := i.d.getD 0 0
/-- Descriptor B. -/
def EngIns.db (i : EngIns) : Nat := i.d.getD 1 0
/-- Descriptor C. -/
def EngIns.dc (i : EngIns) : Nat := i.d.getD 2 0
/-- The scale descriptors behind them, read as 8-bit codes. -/
def EngIns.dax (i : EngIns) : Nat := dAsE8 (i.dx.getD 0 0)
/-- Behind DB. -/
def EngIns.dbx (i : EngIns) : Nat := dAsE8 (i.dx.getD 1 0)
/-- Behind DC. -/
def EngIns.dcx (i : EngIns) : Nat := dAsE8 (i.dx.getD 2 0)

/-- Bits of MOD. -/
def EngIns.md (i : EngIns) (lo w : Nat) : Nat := bits i.t.md.toNat lo w

/-- OPC of a unary operation of R179. -/
def opcUnary (o : Nat) : Bool := o == 6 || o == 7 || o == 8 || (0x10 ≤ o && o ≤ 0x17)

/-- Is an OPC assigned in R179? -/
def opcKnown (o : Nat) : Bool := o ≤ 0x0E || (0x10 ≤ o && o ≤ 0x17)

/-- Tile registers an instruction reads through a descriptor. -/
def dRegs (d : Nat) : List Nat := if dSpace d = 2 then [dReg d] else []

/-- Tile registers an instruction reads (R93). -/
def EngIns.tReads (i : EngIns) : List Nat :=
  match i.op with
  | .dmaCp => dRegs i.da
  | .twlMm => dRegs i.da ++ (if i.md 0 1 = 1 then [i.t.tc.toNat] else [])
  | .twlLd => dRegs i.da
  | .twlLdm => dRegs i.da
  | .frdEw => dRegs i.da ++ (if opcUnary (i.md 0 6) then [] else dRegs i.db) ++ (if i.md 0 6 = 3 then dRegs i.dc else [])
  | .frdChn => dRegs i.da ++ dRegs i.db ++ dRegs i.dc
  | .frdCvt => dRegs i.da
  | .frdRed => [i.t.ta.toNat]
  | .frdTopk => [i.t.ta.toNat]
  | .frdPerm => [i.t.ta.toNat, i.t.tb.toNat]
  | .frdShf => [i.t.ta.toNat]
  | .frdPack => [i.t.ta.toNat]
  | .frdUnpk => [i.t.ta.toNat]
  | _ => []

/-- Tile registers an instruction writes (R93). -/
def EngIns.tWrites (i : EngIns) : List Nat :=
  match i.op with
  | .dmaCp => dRegs i.db
  | .dmaFill => dRegs i.da
  | .twlMm => [i.t.tc.toNat]
  | .frdEw => dRegs i.dc
  | .frdChn => dRegs i.dc
  | .frdCvt => dRegs i.dc ++ (if i.md 9 1 = 1 then dRegs i.db else [])
  | .frdRed => [i.t.tc.toNat]
  | .frdTopk => [i.t.tb.toNat, i.t.tc.toNat]
  | .frdPerm => [i.t.tc.toNat]
  | .frdShf => [i.t.tc.toNat]
  | .frdPack => [i.t.tc.toNat]
  | .frdUnpk => [i.t.tc.toNat]
  | .mssBag => dRegs i.db
  | .mssRaw => dRegs i.db
  | _ => []

/-- Do two lists share an element? -/
def meets (a b : List Nat) : Bool := a.any (fun x => b.any (· == x))

/-- Does dispatch of `i` stall on the scoreboard (R93)? -/
def Block.scoreStall (b : Block) (p : Nat) (i : EngIns) : Bool :=
  ((b.site p).queue ++ (b.site p).flight).any (fun j => j.eng != i.eng &&
    (meets i.tReads j.tWrites || meets i.tWrites j.tReads || meets i.tWrites j.tWrites))

/-- Local store byte range of a descriptor's walk, none for other spaces. -/
def lsRange (d : Nat) : List (Int × Int) :=
  if dSpace d = 0 then [((dBytes d).1, (dBytes d).2)] else []

/-- Ranges of an operand and of its scale tensor. -/
def lsRanges (d dx : Nat) : List (Int × Int) := lsRange d ++ (if dMx d then lsRange dx else [])

/-- Local store ranges a Frond instruction reads (R272). -/
def EngIns.lsReads (i : EngIns) : List (Int × Int) :=
  match i.op with
  | .frdEw => lsRanges i.da i.dax ++ (if opcUnary (i.md 0 6) then [] else lsRanges i.db i.dbx)
  | .frdChn => lsRanges i.da i.dax ++ lsRanges i.db i.dbx ++ [(((i.md 0 16 * 64 : Nat) : Int), ((i.md 0 16 * 64 + 127 : Nat) : Int))]
  | .frdCvt => lsRanges i.da i.dax
  | _ => []

/-- Local store ranges a Frond instruction writes (R272). -/
def EngIns.lsWrites (i : EngIns) : List (Int × Int) :=
  match i.op with
  | .frdEw => lsRanges i.dc i.dcx
  | .frdChn => lsRanges i.dc i.dcx
  | .frdCvt => lsRanges i.dc i.dcx ++ (if i.md 9 1 = 1 then lsRange i.db else [])
  | _ => []

/-- Do two sets of byte ranges share a byte? -/
def overlaps (a b : List (Int × Int)) : Bool :=
  a.any (fun x => b.any (fun y => decide (x.1 ≤ y.2) && decide (y.1 ≤ x.2)))

/-- Must `i` wait for the uncompleted instruction `j` of the same Frond engine (R272)? -/
def frondAfter (i j : EngIns) : Bool :=
  meets i.tReads j.tWrites || meets i.tWrites j.tReads || meets i.tWrites j.tWrites
  || overlaps i.lsReads j.lsWrites || overlaps i.lsWrites j.lsReads || overlaps i.lsWrites j.lsWrites

end Sys2Proof.Machine
end

