-- ==== Sys2Proof/Machine/Sync.lean ====
section
/-! DEFINITION. Machine/Sync.lean: the sync unit (R102 to R114, R154 to R158): semaphore instructions, signals from other
tiles and from registers, and memory-value waits. -/

namespace Sys2Proof.Machine
open Reg

/-- Take an instruction off its engine: it has completed. -/
def Block.retire (b : Block) (p id : Nat) : Block :=
  b.onSite p (fun s => { s with queue := s.queue.filter (fun i => i.id != id), flight := s.flight.filter (fun i => i.id != id) })

/-- An instruction of this tile as the source of a signal or subtraction (R126). -/
def Block.ownSrc (b : Block) (p : Nat) (i : EngIns) : SemSrc := ⟨b.tileOf p, 0, i.eng, some i.pc⟩

/-- A signal from outside the tile's own instructions is counted at the tile, `same`: with the next update of its semaphore
(R104); during a retirement copy or a reset it is held (R105, R62, R605). -/
def Block.arrive (b : Block) (s : Sig) (kind : Nat) (same : Bool) : Block :=
  if !b.served s.dst then b
  else if b.held s.dst then b.holdReq s.dst (.signal s kind)
  else
    let p := b.siteOf s.dst
    (b.noteOutside p s.sem s.amount).signal p s.sem s.amount same ⟨s.src, kind, 0, none⟩

/-- `sem.sig` (R105, R155): operands the target, the semaphore and the amount. -/
def Block.runSemSig (b : Block) (p : Nat) (i : EngIns) : Block :=
  let t := i.s.getD 0 0
  let sem := i.s.getD 1 0
  let n := i.s.getD 2 0
  let me := b.tileOf p
  if t ≥ 512 ∨ !b.served t then (b.retire p i.id).semFault p sem (b.ownSrc p i)
  else if t = me then (b.retire p i.id).semCycle p sem none n 0 (b.ownSrc p i)
  else
    match b.replayed p with
    | some (_, b) => b.retire p i.id
    | none =>
      let b := (b.retire p i.id).logEffect p 1 []
      { b with sigs := b.sigs ++ [⟨me, t, sem, n, b.ctxOf p⟩] }

/-- `sem.wait` completes once granted (R104). -/
def Block.runSemWait (b : Block) (p : Nat) (i : EngIns) : Block := b.retire p i.id

/-- `sem.sub` (R156). -/
def Block.runSemSub (b : Block) (p : Nat) (i : EngIns) : Block :=
  (b.retire p i.id).semCycle p (i.s.getD 0 0) none 0 (i.s.getD 1 0) (b.ownSrc p i)

/-- `sem.set` (R156). -/
def Block.runSemSet (b : Block) (p : Nat) (i : EngIns) : Block :=
  (b.retire p i.id).semCycle p (i.s.getD 0 0) (some (i.s.getD 1 0)) 0 0 (b.ownSrc p i)

/-- Signals that wait for the next update of a semaphore are counted (R104). -/
def Block.semFlush (b : Block) (p s : Nat) : Block :=
  if (b.site p).semNow.any (fun x => x.sem == s) then b.semCycle p s none 0 0 ⟨b.tileOf p, 0, 0, none⟩ else b

/-- `sem.rd` (R156). -/
def Block.runSemRd (b : Block) (p : Nat) (i : EngIns) : Block :=
  let b := b.semFlush p (i.s.getD 0 0)
  let v := b.sem p (i.s.getD 0 0)
  (b.retire p i.id).onSite p (fun s => { s.setS i.sd v with pendReg := NSet.del s.pendReg i.sd })

/-! ### Memory-value waits -/

/-- Does a value meet the condition (R110)? -/
def waitMet (cmp v thr mask : Nat) : Bool :=
  if cmp = 0 then decide (thr ≤ v)
  else if cmp = 1 then v == thr
  else if cmp = 2 then v != thr
  else (v &&& mask) == (thr &&& mask)

/-- Issue a read of the awaited value (R111): translation and permission are judged now. Behind a held write of the tile to its
line the read waits for its next poll (R501). -/
def Block.waitRead (b : Block) (p : Nat) : Block :=
  match (b.site p).wait with
  | none => b
  | some w =>
    let ctx := b.ctxOf p
    let (x, b) := b.tileXl p ctx w.va false
    let n := if w.wide then 8 else 4
    if x.cause ≠ 0 then b.raise p xTranslation 1 w.pc (w.va % 2 ^ 48)
    else if !(b.lineHeld (b.tileOf p) x.pa n).isEmpty then b
    else if nodeOf x.pa = b.rd XL_NODE.SELF then
      b.onSite p (fun s => { s with wait := some { w with
        reading := true, off := some (offOf x.pa), ent := x.ent, since := b.dm.uid } })
    else
      let tag := b.dm.tag
      let (ok, b) := b.dmRead (nodeOf x.pa) (b.clsOf p) (b.tileOf p) ctx (offOf x.pa) n (.wait p) x.ent
      if ok then b.onSite p (fun s => { s with wait := some { w with reading := true, off := none, tag := tag } })
      else b.raise p xPoison 1 w.pc (w.va % 2 ^ 48)

/-- The wait completes and SD receives a value (R111, R112). A read that is outstanding when the wait times out returns later
and has no effect; the step does not end before it has returned (R115). -/
def Block.waitDone (b : Block) (p v : Nat) : Block :=
  match (b.site p).wait with
  | none => b
  | some w =>
    let b := b.onSite p (fun s => { s.setS w.sd v with
      wait := none, pendReg := NSet.del s.pendReg w.sd, flight := s.flight.filter (fun i => i.op != .wtMem)
      waitOld := s.waitOld ++ (if w.reading then w.off.toList.map (fun a => (b.ctxOf p, a, if w.wide then 8 else 4)) else []) })
    b.tryEnd p

/-- A wait read returns (R111, R113). -/
def Block.waitGot (b : Block) (p v : Nat) (pois : Bool) : Block :=
  match (b.site p).wait with
  | none => b
  | some w =>
    if !w.reading then b
    else if pois then b.raise p xPoison 1 w.pc (w.va % 2 ^ 48)
    else
      let b := b.onSite p (fun s => { s with wait := some { w with reading := false, last := some v } })
      if waitMet w.cmp v w.thr w.mask then b.waitDone p v else b

/-- `wt.mem` starts (R109, R158). Operands: address, threshold, mask, comparison, width, timeout. -/
def Block.runWtMem (b : Block) (p : Nat) (i : EngIns) : Block :=
  let va := i.s.getD 0 0
  let wide := i.s.getD 4 0 == 1
  if va % (if wide then 8 else 4) ≠ 0 then b.raise p xAlign 1 i.pc (va % 2 ^ 48)
  else
    let m := if wide then 2 ^ 64 else 2 ^ 32
    let w : WaitRun := { va := va, cmp := i.s.getD 3 0, thr := i.s.getD 1 0 % m, mask := i.s.getD 2 0 % m, wide := wide,
                         sd := i.sd, timeout := i.s.getD 5 0, last := none, reading := false, pc := i.pc, off := none, tag := 0,
                         ent := none, since := 0 }
    (b.onSite p (fun s => { s with wait := some w })).waitRead p

/-- WAIT_READ_RETURN (R111 to R113): a read of this module's memory returns the value as its owner holds it; one whose wait
has timed out comes first and is discarded. A read of a tile whose requests are held returns after their delivery (R62). -/
def Block.doWaitReadReturn (b : Block) (l : LTile) : Block :=
  let p := b.siteOf l
  match (b.site p).waitOld with
  | (ctx, a, n) :: rest =>
    if b.heldAt a then b
    else ((b.mread ctx a n).2.onSite p (fun s => { s with waitOld := rest })).tryEnd p
  | [] =>
  match (b.site p).wait with
  | none => b
  | some w =>
    match w.off with
    | none => b
    | some a =>
      if !w.reading || b.heldAt a then b
      else
        let (r, b) := b.mread (b.ctxOf p) a (if w.wide then 8 else 4)
        if r.tagFail then b.raise p xTag 1 w.pc (w.va % 2 ^ 48)
        else b.waitGot p (leNat r.bytes) r.pois

/-- WAIT_POLL_TIMER (R111): one poll interval after an unmet read the next one is issued. A first read that stood behind a held
write (R501) is issued here too. -/
def Block.doWaitPollTimer (b : Block) (l : LTile) : Block :=
  let p := b.siteOf l
  match (b.site p).wait with
  | none => b
  | some w => if w.reading then b else b.waitRead p

/-- MEM_WAIT_TIMEOUT (R112): the wait completes with the last value read; before the first read has returned, and with
TIMEOUT 0, it cannot time out. -/
def Block.doMemWaitTimeout (b : Block) (l : LTile) : Block :=
  let p := b.siteOf l
  match (b.site p).wait with
  | none => b
  | some w =>
    match w.last with
    | some v => if w.timeout ≠ 0 then b.waitDone p v else b
    | none => b

/-- SIGNAL_ARRIVE (R75, R102, R104, R155): the oldest signal on its way from a tile to another arrives, where it is for the
semaphore named: two signals of one source to one destination arrive in the order sent. `same`: in the cycle of the
semaphore's next update (R104). -/
def Block.doSignalArrive (b : Block) (src dst : LTile) (sem : BitVec 5) (same : Bool) : Block :=
  match b.sigs.find? (fun s => s.src == src.val && s.dst == dst.val) with
  | none => b
  | some s => if s.sem = sem.toNat then { b with sigs := b.sigs.erase s }.arrive s 1 same else b

/-- TL_SEM_SIGNAL (R102, R108): a write of 1 to TL_SEM[s].SIGNAL; `same` as in SIGNAL_ARRIVE. For kind 2 the sending tile in
TL_EXC_ADDR is the owning tile, since the writer need be no tile (DESIGN CHOICE, assumption log 53). -/
def Block.doTlSemSignal (b : Block) (l : LTile) (sem : BitVec 5) (same : Bool) : Block :=
  b.arrive ⟨l, l, sem.toNat, 1, 0⟩ 2 same

end Sys2Proof.Machine
end

