-- ==== Sys2Proof/Machine/Dma.lean ====
section
/-! DEFINITION. Machine/Dma.lean: the DMA engine (R159 to R166): copies, fills and completion records. -/

namespace Sys2Proof.Machine
open Reg

/-- Mark an instruction in flight done: its last result has been written (R102). -/
def Block.markDone (b : Block) (p id : Nat) : Block :=
  b.onSite p (fun s => { s with flight := s.flight.map (fun i => if i.id == id then { i with done := true } else i) })

/-- The extra checks of `dma.cp` (R160). -/
def cpOk (i : EngIns) : Bool :=
  let a := i.da
  let d := i.db
  descPlain a && descPlain d && !dMx a && !dMx d && !dKind a && !dKind d
  && dFmt a == dFmt d && dSigned a == dSigned d && dNdim a == dNdim d
  && (List.range (dNdim a)).all (fun k => dSize a k == dSize d k)

/-- Elements of a chunk of 64 bytes (R161). -/
def dmaWidth (d : Nat) : Nat := 512 / dBits d

/-- Are source and destination chunk the same whole, aligned 128-bit words of the local store (R161)? -/
def wholeWords (a d i0 n o : Nat) : Bool :=
  let x := (dBase a : Int) * 8 + dBit a i0 o
  let y := (dBase d : Int) * 8 + dBit d i0 o
  dSpace a == 0 && dSpace d == 0 && decide (x % 128 = 0) && decide (y % 128 = 0) && n * dBits a % 128 == 0

/-- The stored words of a site's local store from an offset on, with their codes. -/
def Block.lsWords (b : Block) (p off n : Nat) : List Cw := (List.range n).map (fun k => b.mem.word (lsKey p (off + 16 * k) / 16))

/-- Store words with their codes in a site's local store. -/
def Block.lsPutWords (b : Block) (p off : Nat) : List Cw → Block
  | [] => b
  | w :: ws => Block.lsPutWords { b with mem := b.mem.setWord (lsKey p off / 16) w } p (off + 16) ws

/-- Move a chunk of whole words of the local store with their codes unchanged (R161): the chunk is read before it is written,
and with a release attribute the write waits for what that names (R500 to R502). -/
def Block.moveWords (b : Block) (p pc src dst n rel : Nat) : TRes × Block :=
  if !(b.ownHeld p src (16 * n)).isEmpty then (.later, b)
  else
    let ws := b.lsWords p src n
    let waits := b.relWaits (b.tileOf p) (b.ctxOf p) rel (b.ownPa (b.tileOf p) dst) (16 * n)
    (.ok, if waits.isEmpty then b.lsPutWords p dst ws
      else b.holdLocal p pc dst (ws.flatMap (fun w => w.slice 0 16)) waits ws)

/-- Copy one chunk (R161). -/
def Block.copyChunk (b : Block) (p pc a d rel i0 n o : Nat) : TRes × Block :=
  if wholeWords a d i0 n o then
    b.moveWords p pc (((dBase a : Int) * 8 + dBit a i0 o) / 8).toNat (((dBase d : Int) * 8 + dBit d i0 o) / 8).toNat
      (n * dBits a / 128) rel
  else
    let (r, es, b) := b.fetchRun p a i0 n o
    if r.exc ≠ 0 || r.wait then (r, b) else b.storeRun p pc d i0 o es rel

/-! ### Transfers, chunk by chunk -/

/-- The chunks of a transfer, in the walk order of its destination (R161). -/
def EngIns.dmaChunks (i : EngIns) : List (Nat × Nat × Nat) :=
  let d := if i.op = .dmaFill then i.da else i.db
  dChunks d (dmaWidth d)

/-- Perform one chunk of a transfer (R159, R161, R163). -/
def Block.dmaChunk (b : Block) (p : Nat) (i : EngIns) (c : Nat × Nat × Nat) : TRes × Block :=
  if i.op = .dmaFill then
    b.storeRun p i.pc i.da c.1 c.2.2 (List.replicate c.2.1 (dPadCode i.da, false)) (i.md 0 2)
  else b.copyChunk p i.pc i.da i.db (i.md 0 2) c.1 c.2.1 c.2.2

/-- Perform chunks until one raises an exception or waits for its data: how that went, and how many chunks are written. -/
def Block.dmaWalk (p : Nat) (i : EngIns) : List (Nat × Nat × Nat) → Block → Nat → TRes × Nat × Block
  | [], b, k => (.ok, k, b)
  | c :: cs, b, k =>
    let (r, b) := b.dmaChunk p i c
    if r.exc ≠ 0 || r.wait then (r, k, b)
    else Block.dmaWalk p i cs (b.onSite p (fun s => { s with far := [] })) (k + 1)

/-- An instruction that works chunk by chunk, at its start. -/
def Block.newRun (b : Block) (p : Nat) (i : EngIns) (total q : Nat) (rnd : FrRnd) : ChunkRun :=
  { ins := i, next := 0, total := total, q := q, rnd := rnd, chain := [], ones := [], codes := [], row := (0, 0),
    ctx := b.ctxOf p, tick := (b.site p).run.elim b.now (fun r => r.tick), index := (b.site p).run.elim 0 (fun r => r.d.index), tag := (b.site p).run.elim 0 (fun r => r.d.cmdTag), dead := false }

/-- Replace the state of a chunk-by-chunk instruction. -/
def Block.putChunks (b : Block) (p : Nat) (r : ChunkRun) : Block :=
  b.onSite p (fun s => { s with runs := s.runs.map (fun q => if q.ins.id == r.ins.id then r else q) })

/-- Its last chunk is written (R102). -/
def Block.lastChunk (b : Block) (p id : Nat) : Block :=
  (b.onSite p (fun s => { s with runs := s.runs.filter (fun q => q.ins.id != id) })).markDone p id

/-- Perform up to `n` chunks more of a transfer. -/
def Block.dmaWork (b : Block) (p : Nat) (r : ChunkRun) (n : Nat) : Block :=
  let (t, k, b) := Block.dmaWalk p r.ins ((r.ins.dmaChunks.drop r.next).take n) b r.next
  if t.exc ≠ 0 then b.raise p t.exc 2 r.ins.pc t.va
  else if k = r.total then b.lastChunk p r.ins.id
  else b.putChunks p { r with next := k }

/-- How many of its `n` chunks an instruction performs at its start: at least one, how many is a free value (assumption
log 52). -/
def Block.chunksNow (b : Block) (n : Nat) : Nat × Block :=
  if n ≤ 1 then (n, b) else
    let (v, b) := b.draw 32
    (1 + v % n, b)

/-- `dma.cp` and `dma.fill` start (R159 to R163): results are visible to later instructions of the engine (R91), so a transfer
writes no chunk before those started earlier have none left. -/
def Block.runDma (b : Block) (p : Nat) (i : EngIns) : Block :=
  let r := b.newRun p i i.dmaChunks.length 0 .ne
  let first := (b.site p).runs.all (fun q => q.ins.eng != 2)
  let b := b.onSite p (fun s => { s with runs := s.runs ++ [r] })
  if first then
    let (n, b) := b.chunksNow r.total
    b.dmaWork p r n
  else b

/-- `dma.cp` (R159 to R162). -/
def Block.runDmaCp (b : Block) (p : Nat) (i : EngIns) : Block := b.runDma p i

/-- `dma.fill` (R163). -/
def Block.runDmaFill (b : Block) (p : Nat) (i : EngIns) : Block := b.runDma p i

/-- The rest of a transfer (R102, R162), where no transfer started before it has chunks left. -/
def Block.dmaRest (b : Block) (p : Nat) (r : ChunkRun) : Block :=
  if (b.site p).runs.find? (fun q => q.ins.eng == 2) = some r then b.dmaWork p r r.total else b

/-- The descriptor of `dma.cmpl` (R164). -/
def cmplOk (i : EngIns) : Bool :=
  let d := i.da
  descOk i.t.da.toNat d (i.dx.getD 0 0) && dSpace d == 0 && dFmt d == 8 && dNdim d == 1 && dSize d 0 == 32 && dBase d % 32 == 0

/-- `dma.cmpl` (R164 to R166, R463): the record waits for its release conditions and is sent by COMPLETION_RECORD_WRITE.
A command that already has a record gets a duplicate-completion fault record instead. -/
def Block.runDmaCmpl (b : Block) (p : Nat) (i : EngIns) : Block :=
  match b.replayed p with
  | some (_, b) => b.markDone p i.id
  | none =>
    let b := b.logEffect p 2 []
    match (b.site p).run with
    | none => b.markDone p i.id
    | some r =>
      if r.d.pack then b.markDone p i.id else
      let tag := r.d.cmdTag
      let (ms, b) := b.lsBytes p (dBase i.da) 32
      let img := ms.bytes
      let pos : MBytes := ms.take 16
      let pos1 : MBytes := ms.drop 16
      match b.cmd tag with
      | none => (b.bkRec 5 (some (b.ctxOf p)) tag).markDone p i.id
      | some c =>
        if c.issued then (b.bkRec 5 (some c.qctx) tag).markDone p i.id
        else
          let rec_ := b.newRec c (leNat (img.take 1)) (leNat ((img.drop 16).take 8)) (leNat (img.drop 24)) (some p)
            pos.pois pos1.pois
          b.onBk (fun k => { k with recs := k.recs ++ [rec_] })

end Sys2Proof.Machine
end

