-- ==== Sys2Proof/Machine/Twill.lean ====
section
/-! DEFINITION. Machine/Twill.lean: the Twill array (R167 to R177, R204 to R234), the residue check and replay (R545 to
R553) and sampled re-execution (R554 to R558). -/

namespace Sys2Proof.Machine
open Reg

/-! ### Planes (R220 to R225) -/

/-- A load into a plane starts: it is invalid; a load already in progress overlaps (R169, R176). -/
def Plane.begin (pl : Plane) (multi : Bool) : Plane :=
  { pl with valid := false, overlap := pl.overlap || pl.loading > 0, loading := pl.loading + 1, multi := multi,
            replayBad := false }

/-- A load ends: the plane is valid unless loads overlapped (R169, R176). -/
def Plane.finish (pl : Plane) : Plane :=
  if pl.loading = 1 then { pl with loading := 0, valid := !pl.overlap, overlap := false }
  else { pl with loading := pl.loading - 1 }

/-- K maximum of a plane by its format (R168, R169). -/
def planeK (f : Nat) : Nat := if f = 9 ∨ f = 7 then 128 else 64

/-- What a load reads of its descriptor: weights, scales and whether a word of them is poisoned (R169, R223). -/
def Block.readPlane (b : Block) (p d dx : Nat) : Arr × Arr × Bool × Block :=
  let k := dDim d 0
  let n := dDim d 1
  let (w, bad, b) := (List.range n).foldl (fun (acc : Arr × Bool × Block) c =>
    let (es, b) := acc.2.2.getRun p d 0 k c
    ((es.zip (List.range k)).foldl (fun a e => a.set 32 (e.2 * 64 + c) e.1.1) acc.1, acc.2.1 || es.any (·.2), b))
    (Arr.zero, false, b)
  if dMx d then
    let nb := dDim dx 0
    let (sc, bad, b) := (List.range n).foldl (fun (acc : Arr × Bool × Block) c =>
      let (es, b) := acc.2.2.getRun p dx 0 nb c
      ((es.zip (List.range nb)).foldl (fun a e => a.set 8 (e.2 * 64 + c) e.1.1) acc.1, acc.2.1 || es.any (·.2), b))
      (Arr.zero, bad, b)
    (w, sc, bad, b)
  else (w, Arr.zero, bad, b)

/-- The descriptor checks of `twl.ld` and `twl.ldm` (R169). -/
def ldOk (i : EngIns) : Bool :=
  let d := i.da
  descOk i.t.da.toNat d (i.dx.getD 0 0) && dSpace d != 1 && dNdim d ≤ 2 && dFmt d != 10
  && dSize d 0 ≤ planeK (dFmt d) && dDim d 1 ≤ 64

/-- `twl.ld` starts (R169, R170). -/
def Block.runTwlLd (b : Block) (p : Nat) (i : EngIns) : Block :=
  let (w, sc, bad, b) := b.readPlane p i.da i.dax
  let sel := 1 - (b.site p).planeSel
  b.onSite p (fun s => { s.setShadow { s.shadow.begin false with
      w := w, scales := sc, pois := bad, fmt := dFmt i.da, signed := dSigned i.da, mx := dMx i.da } with
    planeWr := NSet.add s.planeWr sel })

/-- TWILL_LOAD_COMPLETE (R170, R176): the oldest `twl.ld` in flight ends. -/
def Block.doTwillLoadComplete (b : Block) (l : LTile) : Block :=
  let p := b.siteOf l
  match (b.site p).flight.find? (fun i => i.op == .twlLd && !i.done) with
  | none => b
  | some i =>
    ((b.markDone p i.id).onSite p (fun s => s.setShadow s.shadow.finish)).lateSwap p

/-- `twl.ldm` starts (R172): the rows leave for the quad positions of DEST. The instruction is done once the mesh has
accepted the last row. -/
def Block.runTwlLdm (b : Block) (p : Nat) (i : EngIns) : Block :=
  let (w, sc, bad, b) := b.readPlane p i.da i.dax
  let me := b.tileOf p
  let dest := (List.range 4).filter (fun k => bit (i.md 0 4) k && b.served (me / 4 * 4 + k))
  let b := { b with mcasts := b.mcasts ++ dest.map (fun k =>
    { id := i.id, srcSite := p, srcTile := me, l := me / 4 * 4 + k, pc := i.pc, rsem := i.md 4 5, rse := i.md 9 1 == 1,
      fmt := dFmt i.da, signed := dSigned i.da, mx := dMx i.da, pois := bad, w := w, scales := sc, rows := 0, cut := false : Mcast }) }
  (if dest.any (fun k => me / 4 * 4 + k == me) then
    b.onSite p (fun s => { s with planeWr := NSet.add s.planeWr (1 - s.planeSel) }) else b).markDone p i.id

/-- The last row of a multicast has arrived: the plane is valid unless loads overlapped (R172, R176), and RSEM is signalled
with it. The signal of another tile's `twl.ldm` counts as one of kind 1 (R126 names that kind for another tile's `sem.sig`
only; DESIGN CHOICE, assumption log 53). -/
def Block.mcastEnd (b : Block) (p : Nat) (m : Mcast) (same : Bool) : Block :=
  let b := b.onSite p (fun s => s.setShadow { s.shadow.finish with
    w := m.w, scales := m.scales, pois := m.pois, fmt := m.fmt, signed := m.signed, mx := m.mx })
  let ok := (b.site p).shadow.valid
  let b := b.lateSwap p
  if m.rse && ok then
    if m.srcTile = m.l then b.signal p m.rsem 1 same ⟨m.srcTile, 0, 3, some m.pc⟩
    else (b.noteOutside p m.rsem 1).signal p m.rsem 1 same ⟨m.srcTile, 1, 0, none⟩
  else b

/-- MULTICAST_ROW_ARRIVE (R172, R176, R64): a row of the oldest multicast from tile `src` to tile `l` arrives. With the last of
64 rows the plane becomes valid and RSEM is signalled, `same`: in the cycle of that semaphore's next update (R104); a plane
whose load was stopped or overlapped stays invalid. -/
def Block.doMulticastRowArrive (b : Block) (l src : LTile) (same : Bool) : Block :=
  match b.mcasts.find? (fun m => m.l == l.val && m.srcTile == src.val) with
  | none => b
  | some m =>
    if !b.served l || b.held l then b
    else
      let p := b.siteOf l
      let b := if m.rows = 0 then
          b.onSite p (fun s => s.setShadow { s.shadow.begin true with fmt := m.fmt, pois := m.pois }) else b
      let m' := { m with rows := m.rows + 1 }
      if m'.rows < 64 then { b with mcasts := b.mcasts.map (fun x => if x == m then m' else x) }
      else
        let b := { b with mcasts := b.mcasts.erase m }
        if m.cut then b else b.mcastEnd p m same

/-! ### Passes -/

/-- Operand class of plane format and activation format (R168): K maximum, row occupancy, integer. -/
def twClass (pf af : Nat) : Option (Nat × Nat × Bool) :=
  if (pf = 8 ∨ pf = 9) ∧ (af = 8 ∨ af = 9) then some (if pf = 9 ∧ af = 9 then 128 else 64, 1, true)
  else if 3 ≤ pf ∧ pf ≤ 7 ∧ 3 ≤ af ∧ af ≤ 7 then some (if pf = 7 ∧ af = 7 then 128 else 64, 1, false)
  else if (pf = 1 ∨ pf = 2) ∧ (af = 1 ∨ af = 2) then some (64, 2, false)
  else if pf = 0 ∧ af = 0 then some (64, 8, false)
  else none

/-- The checks of R228 and R229 on a convolution window. The class, and so its K maximum, is known only at the start (R168): C × T
is checked here against the activation format's own maximum, 128 for INT4 and FP4 (DESIGN CHOICE, assumption log 53), and
against the class's at the start. -/
def convOk (d : Nat) : Bool :=
  let f := dFmt d
  let w : Int := fmtBits f
  let c := dSize d 0
  let m := dSize d 1
  let t := dSize d 2
  let len := dSize d 3
  let pitch := dStride d 1
  let step := dStride d 2
  let dil := dStride d 3
  let o0 := dStride d 4
  f ≤ 10 && dSpace d == 0 && dNdim d == 3 && !dMx d && dPad d ≤ 2 && (!dSigned d || f == 8 || f == 9)
  && (!(w == 16 || w == 32) || dBase d % ((w / 8).toNat) == 0)
  && 1 ≤ c && c ≤ 128 && 1 ≤ m && m ≤ 64 && 1 ≤ t && t ≤ 128 && 1 ≤ len
  && decide (1 ≤ pitch) && decide (1 ≤ step) && decide (step ≤ 4096) && decide (1 ≤ dil) && decide (dil ≤ 4096)
  && decide (0 ≤ o0) && c * t ≤ planeK f && decide (pitch * w % 8 = 0)
  && decide ((dBase d : Int) + ((((len : Int) - 1) * pitch + (c - 1 : Int)) * w + w - 1) / 8 < 0x30_0000)

/-- The checks of `twl.mm` at dispatch (R100, R174, R219, R229). -/
def mmOk (i : EngIns) : Bool :=
  let d := i.da
  let int := dFmt d == 8 || dFmt d == 9
  (if dKind d then convOk d
   else descOk i.t.da.toNat d (i.dx.getD 0 0) && dSpace d != 1 && dNdim d ≤ 2 && dDim d 1 ≤ 64
     && !(dSpace d == 2 && dReg d == i.t.tc.toNat))
  && (if int then i.md 9 4 == 10 || i.md 9 4 == 8 || i.md 9 4 == 9 else i.md 3 6 == 0 && i.md 9 4 == 0)

/-- Rows of a pass. -/
def mmRows (d : Nat) : Nat := if dKind d then dSize d 1 else dDim d 1

/-- Reduction length of a pass. -/
def mmK (d : Nat) : Nat := if dKind d then dSize d 0 * dSize d 2 else dDim d 0

/-- Activation row `r` as the feeder reads it (R175, R229): a padded position reads PAD and is never poisoned. -/
def Block.actRow (b : Block) (p d r : Nat) : List El × Block :=
  if !dKind d then b.getRun p d 0 (dDim d 0) r
  else
    let c := dSize d 0
    let w := dBits d
    (List.range (dSize d 2)).foldl (fun (acc : List El × Block) (tap : Nat) =>
      let t : Int := (dStride d 4 + r) * dStride d 2 + (tap : Int) * dStride d 3 - (dSize d 4 : Int)
      if t < 0 ∨ (dSize d 3 : Int) ≤ t then (acc.1 ++ List.replicate c (dPadCode d, false), acc.2)
      else
        let a := (dBase d : Int) * 8 + t * dStride d 1 * (w : Int)
        let sh := (a % 8).toNat
        let (ms, b) := acc.2.lsBytes p (a / 8).toNat ((sh + c * w + 7) / 8)
        (acc.1 ++ bytesEls ms sh w c, b)) ([], b)

/-- Bit position of element `k` of activation row `r` (R99, R229). -/
def actBit (d r k : Nat) : Int :=
  (dBase d : Int) * 8 + (if dKind d then
    (((dStride d 4 + r) * dStride d 2 + ((k / dSize d 0 : Nat) : Int) * dStride d 3 - (dSize d 4 : Int)) * dStride d 1
      + ((k % dSize d 0 : Nat) : Int)) * (dBits d : Nat)
  else dBit d k r)

/-- The local store offset of the first poisoned element of some rows, 0 where none is or they stand in a tile register
(R128); `at_` gives an element's bit position. -/
def poisVa (space : Nat) (at_ : Nat → Nat → Int) (rows : List (List El)) : Nat :=
  if space ≠ 0 then 0 else
  match (rows.zip (List.range rows.length)).findSome? (fun r => (r.1.findIdx? (·.2)).map (fun k => at_ r.2 k / 8)) with
  | some a => a.toNat
  | none => 0

/-- Sums of a run of products in FP32, each addition rounded once (R216). `pair`: a cell of a 4-bit plane adds its two
products exactly before the addition. -/
def floatSum (pair : Bool) : Nat → List (XR × XR) → Nat
  | acc, [] => acc
  | acc, [(a, w)] => toF32 ((decodeF 0 acc).add (a.mul w))
  | acc, (a, w) :: (a2, w2) :: r =>
    if pair then floatSum pair (toF32 ((decodeF 0 acc).add ((a.mul w).add (a2.mul w2)))) r
    else floatSum pair (toF32 ((decodeF 0 (toF32 ((decodeF 0 acc).add (a.mul w)))).add (a2.mul w2))) r

/-- One block sum of R216 as a 32-bit word: activation codes and weight codes along the block. -/
def blockSum (int : Bool) (af : Nat) (asg : Bool) (pf : Nat) (psg : Bool) (aw : List (Nat × Nat)) : Nat :=
  if int then ofInt 32 (aw.foldl (fun s x => s + decodeI af x.1 asg * decodeI pf x.2 psg) 0)
  else floatSum (pf == 7) 0 (aw.map (fun x => (decodeF af x.1, decodeF pf x.2)))

/-- Words of TC poisoned before a pass adds to them: words an earlier pass still has to write are clean. -/
def Block.accPois (b : Block) (p tc m : Nat) : Bool :=
  let s := b.site p
  let fresh := (s.passes.filter (fun q => !q.dead && q.ins.t.tc.toNat == tc)).map (·.rows)
  (List.range m).any (fun r => !fresh.any (fun k => r < k) && (List.range 64).any (fun n => s.tpoisAt tc r n))

/-- The running step cannot be replayed any further: UNRESOLVED, and the step ends with FAULT as a fatal exception does
(R549). -/
def Block.replayFail (b : Block) (p : Nat) : Block :=
  let seq := b.nextSeq
  b.failStep p 0 seq

/-- A step of a replay reads registers it has not written: no replay of this step is possible (R549). -/
def Block.noteReads (b : Block) (p : Nat) (rs : List Nat) : Block :=
  if rs.all (fun r => NSet.mem (b.site p).twritten r) then b else b.onSite p (fun s => { s with noReplay := true })

/-- The step has written these tile registers. -/
def Block.noteWrites (b : Block) (p : Nat) (rs : List Nat) : Block :=
  b.onSite p (fun s => { s with twritten := rs.foldl NSet.add s.twritten })

/-- The first `n` elements along dimension 0 of each of `m` iterations. -/
def Block.getRuns (b : Block) (p d m n : Nat) : List El × Block :=
  (List.range m).foldl (fun (acc : List El × Block) k =>
    let (es, b) := acc.2.getRun p d 0 n k
    (acc.1 ++ es, b)) ([], b)

/-- The scale codes of the activations of a pass (R175). -/
def Block.mmScales (b : Block) (p : Nat) (i : EngIns) (m nb : Nat) : List El × Block :=
  if dMx i.da then b.getRuns p i.dax m nb else ([], b)

/-- The activations of a pass as read: its rows, and the scale codes of their blocks (R175, R229). -/
def Block.mmRead (b : Block) (p : Nat) (i : EngIns) (m nb : Nat) : List (List El) × List El × Block :=
  let rs := (List.range m).foldl (fun (acc : List (List El) × Block) k =>
    let (es, b) := acc.2.actRow p i.da k
    (acc.1 ++ [es], b)) ([], b)
  let es := rs.2.mmScales p i m nb
  (rs.1, es.1, es.2)

/-- The pass that a plane and the activations read make (R206, R216): its block sums and what its completion needs. The
residue check covers it if RES_EN is 1 at its start: R231 does not say when in a pass RES_EN counts (DESIGN CHOICE,
assumption log 53). -/
def Block.mmPass (b : Block) (p : Nat) (i : EngIns) (pl : Plane) (int : Bool) (nb : Nat) (rows : List (List El))
    (ea : List El) : PassRun :=
  let d := i.da
  let k := mmK d
  let per := if dMx d then 32 else k
  let sums := rows.flatMap (fun row => (List.range 64).flatMap (fun n => (List.range nb).map (fun bl =>
    blockSum int (dFmt d) (dSigned d) pl.fmt pl.signed
      ((List.range (min per (k - bl * per))).map (fun j =>
        ((row.getD (bl * per + j) (0, false)).1, pl.w.get 32 ((bl * per + j) * 64 + n)))))))
  { ins := i, no := (b.site p).passNo, rows := mmRows d, int := int, mx := dMx d, nb := nb, sums := sums, ea := ea.map (·.1),
    ew := (List.range nb).flatMap (fun bl => (List.range 64).map (fun n => pl.scales.get 8 (bl * 64 + n))),
    check := int && b.on TW_CTRL.RES_EN p, ctx := b.ctxOf p, tick := (b.site p).run.elim b.now (fun r => r.tick),
    tag := (b.site p).run.elim 0 (fun r => r.d.cmdTag), index := (b.site p).run.elim 0 (fun r => r.d.index),
    dead := false, old := Arr.zero, rnd := .ne }

/-- `twl.mm` starts (R175): the swap, the checks in the order written, the block sums. -/
def Block.runTwlMm (b : Block) (p : Nat) (i : EngIns) : Block :=
  let b := if i.md 1 1 = 1 then b.onSite p (fun s => { s with planeSel := 1 - s.planeSel }) else b
  let pl := (b.site p).active
  let d := i.da
  if (b.site p).replay.isSome && pl.replayBad then b.replayFail p
  else if pl.pois then b.terminate p 3 i.pc 0
  else if !pl.valid then b.raise p xPoison 3 i.pc 0
  else
    match twClass pl.fmt (dFmt d) with
    | none => b.raise p xDesc 3 i.pc 0
    | some (kmax, _, int) =>
      let k := mmK d
      let m := mmRows d
      if k > kmax || dMx d != pl.mx then b.raise p xDesc 3 i.pc 0
      else
        let nb := if dMx d then (k + 31) / 32 else 1
        let (rows, ea, b) := b.mmRead p i m nb
        if rows.any (fun r => r.any (·.2)) then b.terminate p 3 i.pc (poisVa (dSpace d) (actBit d) rows)
        else if ea.any (·.2) then
          b.terminate p 3 i.pc (poisVa 0 (fun _ k => (dBase i.dax : Int) * 8 + dBit i.dax (k % nb) (k / nb)) [ea])
        else if i.md 0 1 = 1 && b.accPois p i.t.tc.toNat m then b.terminate p 3 i.pc 0
        else
          let run := b.mmPass p i pl int nb rows ea
          let b := (b.noteReads p i.tReads).noteWrites p i.tWrites
          b.onSite p (fun s => { s with passes := s.passes ++ [run], passNo := s.passNo + 1 })

/-! ### The output stage (R216, R218) -/

/-- Saturate to INT32: the value, and whether it was clamped. -/
def sat32 (v : Int) : Int × Bool :=
  if v > 2 ^ 31 - 1 then (2 ^ 31 - 1, true) else if v < -(2 ^ 31) then (-(2 ^ 31), true) else (v, false)

/-- shift_ne of R216. -/
def shiftNe (s e : Int) : Int :=
  if 0 ≤ e then s * 2 ^ e.toNat else rndInt (decide (s < 0)) s.natAbs (2 ^ (-e).toNat) .ne

/-- One output value v of R216 before ACC: as an integer or an FP32 code, with the sat32 events and whether a NaN block
scale reached it. -/
def passValue (q : PassRun) (sums : List Nat) (r n : Nat) : Int × Nat × Nat × Bool :=
  (List.range q.nb).foldl (fun (acc : Int × Nat × Nat × Bool) bl =>
    let s := sums.getD ((r * 64 + n) * q.nb + bl) 0
    let xa := q.ea.getD (r * q.nb + bl) 0
    let xw := q.ew.getD (bl * 64 + n) 0
    let e : Int := if q.mx then (xa : Int) + xw - 254 else 0
    let nan := q.mx && (xa == 255 || xw == 255)
    if q.int then
      if nan then (acc.1, acc.2.1, acc.2.2.1, true)
      else
        let (v, c) := sat32 (acc.1 + shiftNe (toInt 32 s) e)
        (v, 0, acc.2.2.1 + c.toNat, acc.2.2.2)
    else
      let x := if nan then XR.nan else (decodeF 0 s).shift e
      (0, toF32 ((decodeF 0 acc.2.1).add x), 0, false)) (0, 0, 0, false)

/-- The digest of a pass (R551): mix() over the values v in row order, then column order. -/
def passDigest (q : PassRun) (sums : List Nat) : Nat :=
  (List.range q.rows).foldl (fun d r => (List.range 64).foldl (fun d n =>
    let v := passValue q sums r n
    mix (d ^^^ (if q.int then ofInt 32 v.1 else v.2.1))) d) 0

/-- The sums as the array produces them: a fault of the array flips bits (R231). -/
def upsetSums (q : PassRun) (us : List Upset) : List Nat :=
  us.foldl (fun s u =>
    if u.checker then s
    else
      let i := (u.row.toNat * 64 + u.col.toNat) * q.nb + u.block.toNat
      if u.block.toNat < q.nb then s.set i (s.getD i 0 ^^^ u.flips.toNat) else s) q.sums

/-- Sum over the columns modulo 127 of row `r`, block `bl` (R231). -/
def colSum (q : PassRun) (sums : List Nat) (r bl : Nat) : Int :=
  ((List.range 64).foldl (fun s n => s + toInt 32 (sums.getD ((r * 64 + n) * q.nb + bl) 0)) (0 : Int)) % 127

/-- The rows and blocks whose two residues differ (R231), in order. -/
def mismatches (q : PassRun) (sums : List Nat) (us : List Upset) : List (Nat × Nat) :=
  if !q.check then []
  else ((List.range q.rows).flatMap (fun r => (List.range q.nb).map (fun bl => (r, bl)))).filter (fun x =>
    let off := ((us.filter (fun u => u.checker && u.row.toNat == x.1 && u.block.toNat == x.2)).map (fun u => (u.flips.toNat : Int))).sum
    (colSum q q.sums x.1 x.2 + off) % 127 != colSum q sums x.1 x.2)

/-- How the step rounds: nearest-even, or stochastic with its seed (R218, R253). -/
def Block.stochastic (b : Block) (p rnd : Nat) : Bool := rnd == 0 && !(b.site p).run.elim true (·.rne)

/-- What an instruction of the running step rounds with that starts now, and whose seed has come if it needs one (R253, R256,
R257). -/
def Block.roundNow (b : Block) (p rnd : Nat) : FrRnd :=
  if !b.stochastic p rnd then .ne
  else match b.seedOf p with
    | .value v => .seed v
    | .failed x => .bad x
    | .waiting => .ne

/-- The words of a pass and its events: SRC 0, 1, 2 counts and NAN_LOST per word, in order (R218, R264). -/
structure PassOut where
  words : List (Nat × Nat × Nat)
  sats : List (Nat × Nat × Nat)
  nan : Nat
  deriving DecidableEq, Repr

/-- Form the words (R175, R218). `old` reads TC. -/
def passWords (q : PassRun) (sums : List Nat) (old : Nat → Nat → Nat) (rnd : Nat → Rnd) : PassOut :=
  let acc := q.ins.md 0 1 == 1
  let osh := q.ins.md 3 6
  let ofmt := q.ins.md 9 4
  let osgn := q.ins.md 13 1 == 1
  ((List.range q.rows).flatMap (fun r => (List.range 64).map (fun n => (r, n)))).foldl (fun (o : PassOut) x =>
    let v := passValue q sums x.1 x.2
    if q.int then
      let (a, c0) := if acc then sat32 (toInt 32 (old x.1 x.2) + v.1) else (v.1, false)
      let (code, ev) := convI ofmt osgn (.fin (decide (a < 0)) a.natAbs (2 ^ osh)) (rnd (q.no * 4096 + x.1 * 64 + x.2))
      let w := if ofmt = 10 ∨ osgn then ofInt 32 (toInt (fmtBits ofmt) code) else code
      { words := o.words ++ [(x.1, x.2, w)], sats := o.sats ++ [(c0.toNat, v.2.2.1, ev.sat)], nan := o.nan + v.2.2.2.toNat }
    else
      let w := if acc then f32Add (old x.1 x.2) v.2.1 else v.2.1
      { o with words := o.words ++ [(x.1, x.2, w)] }) { words := [], sats := [], nan := 0 }

/-- The saturations of a pass: how many, and the source of the first (R264, R265). The integer classes occupy the array one
cycle a row (R168), so word (r, n) comes in cycle r + n (R206), its ACC addition, its block combination and its narrowing
in that one cycle: no rule places them in the output stage's cycles (DESIGN CHOICE, assumption log 53). -/
def PassOut.first (o : PassOut) : Nat × Nat :=
  let at_ := (o.words.zip o.sats).flatMap (fun x =>
    let c := (x.1.1 + x.1.2.1) * 4
    (if x.2.1 > 0 then [c] else []) ++ (if x.2.2.1 > 0 then [c + 1] else []) ++ (if x.2.2.2 > 0 then [c + 2] else []))
  ((o.sats.map (fun x => x.1 + x.2.1 + x.2.2)).sum, (at_.min?.getD 0) % 4)

/-- Does any word of the pass need a generator value? -/
def passDraws (q : PassRun) (sums : List Nat) (old : Nat → Nat → Nat) : Bool :=
  q.int && (List.range q.rows).any (fun r => (List.range 64).any (fun n =>
    let v := (passValue q sums r n).1
    let a := if q.ins.md 0 1 = 1 then (sat32 (toInt 32 (old r n) + v)).1 else v
    a.natAbs % 2 ^ q.ins.md 3 6 != 0))

/-! ### Mismatches and replay -/

/-- TW_RES_STATUS as it stands for a mismatch (R233, R566). -/
def resImage (q : PassRun) (r bl : Nat) : Nat :=
  1 + q.no % 2 ^ 16 * 4 + r * 2 ^ 18 + bl * 2 ^ 24 + q.ctx * 2 ^ 26 + q.tick % 2 ^ 26 * 2 ^ 38

/-- Capture the first of a pass's mismatches and count the pass; the others set MORE (R232, R233). -/
def Block.captureRes (b : Block) (p : Nat) (q : PassRun) (r bl : Nat) (more : Bool) : Block :=
  let b := b.inc TW_RES_CNT.MISMATCHES 1 p
  if b.on TW_RES_STATUS.MISMATCH p then b.wr TW_RES_STATUS.MORE 1 p
  else
    let b := if more then b.wr TW_RES_STATUS.MORE 1 p else b
    (((((b.wr TW_RES_STATUS.MISMATCH 1 p).wr TW_RES_STATUS.PASS q.no p).wr TW_RES_STATUS.ROW r p).wr
    TW_RES_STATUS.BLOCK bl p).wr TW_RES_STATUS.CTX q.ctx p).wr TW_RES_STATUS.TICK_LO q.tick p

/-- A lasting fault (R551, R552): the record; then retirement, with the step and the rest of the list planned again or
aborted as steps of a missing list; or, with AUTO_RETIRE 0, the command completes FAULT and the site goes on. -/
def Block.lasting (b : Block) (p img : Nat) : Block :=
  match (b.site p).run with
  | none => b
  | some r =>
    let seq := b.nextSeq
    let b := b.resOutcome p 3 r.d.cmdTag img
    let b := (b.onSite p (fun s => { s with replay := none })).wr TL_RPL.STATE 0 p
    if b.on FLT_CTRL.AUTO_RETIRE then
      let l := b.tileOf p
      let steps := r :: (b.site p).todo
      let b := ((b.stopStep p).dropRun p).hwRetire l 1
      let b := b.onSite p (fun s => { s with todo := [], overAdd := steps.length })
      steps.foldl (fun b x => match b.placedAt l x.tick x.d.index with
        | some pl => b.missingStep pl
        | none => b) b
    else b.failStep p 0 seq

/-- What a mismatch, or a clean pass of a replay, leads to (R547, R551). A replay that a boundary has overtaken is already
UNRESOLVED. -/
def Block.judge (b : Block) (p : Nat) (q : PassRun) (sums : List Nat) (mm : Option (Nat × Nat)) : Block :=
  match mm, (b.site p).replay with
  | none, none => b
  | none, some r =>
    if r.started && r.outcome == 0 && r.pass == q.no then b.onSite p (fun s => { s with replay := some { r with outcome := 1 } }) else b
  | some (row, bl), none =>
    -- The original: the step stops and waits for its replay.
    let rp : Replay := { pass := q.no, digest := passDigest q sums, img := resImage q row bl, outcome := 0, started := false }
    (b.stopStep p).onSite p (fun s => { s with replay := some rp, stopped := true })
  | some (row, bl), some r =>
    if r.outcome = 4 then b
    else if r.started && r.pass == q.no && passDigest q sums == r.digest then
      b.onSite p (fun s => { s with replay := some { r with outcome := 2 } })
    else b.lasting p (resImage q row bl)

/-! ### Samples (R554, R555) -/

/-- Does the completed float pass send a sample? -/
def Block.sampled (b : Block) (p : Nat) (q : PassRun) : Option Nat :=
  let l := b.tileOf p
  let hit := mix (q.tick ^^^ (l * 2 ^ 32) ^^^ q.no) % 2 ^ b.rd FLT_SAMPLE.LOG2_RATE == 0
  if b.on FLT_SAMPLE.EN && !q.int && hit then (b.freeSpare (regionOfSite p)).map (fun k => regionOfSite p * 18 + k) else none

/-- What a pass rounds with where it needs a generator value: its step's seed, or what stood for it as its step ended (R256,
R264). -/
def Block.passRnd (b : Block) (p : Nat) (q : PassRun) : FrRnd := if q.dead then q.rnd else b.roundNow p (q.ins.md 2 1)

/-- The tile register words a pass adds to: those of the site, or of its ended step (R264). -/
def Block.passOld (b : Block) (p : Nat) (q : PassRun) (r n : Nat) : Nat :=
  if q.dead then q.old.get 32 (tix q.ins.t.tc.toNat r n) else (b.site p).tw q.ins.t.tc.toNat r n

/-- The events of a pass are counted (R231 to R233, R264): `sums` as the array gave them. -/
def Block.passCount (b : Block) (p : Nat) (q : PassRun) (out : PassOut) (mm : List (Nat × Nat)) : Block :=
  let f := out.first
  let b := b.countSat p ⟨f.2, q.ins.pc, q.ctx, q.tick⟩ f.1
  let b := b.inc FR_SAT_CNT.NAN_LOST out.nan p
  let b := if q.check then b.inc TW_RES_CNT.CHECKS 1 p else b
  match mm with
  | (r, bl) :: more => b.captureRes p q r bl (!more.isEmpty)
  | [] => b

/-- The words of a pass of an ended step go to the registers that the later passes of that step add to (R264). -/
def Site.deadWords (s : Site) (tc : Nat) (ws : List (Nat × Nat × Nat)) : Site :=
  { s with passes := s.passes.map (fun q =>
      if q.dead then { q with old := ws.foldl (fun a w => a.set 32 (tix tc w.1 w.2.1) w.2.2) q.old } else q) }

/-- A pass ends with the rounding given (R177, R216, R218, R547, R551, R554). The results of a pass whose step has ended are
discarded, its events count, and a mismatch of it starts no replay (R264, R547). -/
def Block.passEnd (b : Block) (p l : Nat) (q : PassRun) (rest : List PassRun) (us : List Upset) (rnd : Nat → Rnd) : Block :=
  let sums := upsetSums q us
  let tc := q.ins.t.tc.toNat
  let out := passWords q sums (b.passOld p q) rnd
  let mm := mismatches q sums us
  let b := (b.onSite p (fun s => { s with passes := rest })).passCount p q out mm
  if q.dead then
    let b := b.onSite p (fun s => s.deadWords tc out.words)
    match mm with
    | (r, bl) :: _ => b.resOutcome p 4 q.tag (resImage q r bl)
    | [] => b
  else
    let b := b.onSite p (fun s => out.words.foldl (fun s w => s.setTw tc w.1 w.2.1 w.2.2 false) s)
    let b := (b.markDone p q.ins.id).judge p q sums mm.head?
    match b.sampled p q with
    | some sp => { b with samples := b.samples ++
        [{ spare := sp, site := p, l := l, tick := q.tick, pass := q.no, ctx := q.ctx, cmdTag := q.tag, due := none : Sample }] }
    | none => b

/-- The step's first rounding that needs a draw has raised the exception of its failed seed (R257): later ones of the step raise
nothing. -/
def FrRnd.spent (r : FrRnd) : FrRnd :=
  match r with
  | .bad _ => .bad 0
  | _ => r

/-- Every operation of an ended step of a site finds its failed seed reported. -/
def Block.seedSpent (b : Block) (p : Nat) : Block :=
  b.onSite p (fun s => { s with
    passes := s.passes.map (fun q => if q.dead then { q with rnd := q.rnd.spent } else q)
    runs := s.runs.map (fun q => if q.dead then { q with rnd := q.rnd.spent } else q) })

/-- A rounding needs a draw and the step's seed has failed with exception `x` (R257): raised, or, where the step has ended,
recorded (R125). -/
def Block.seedFail (b : Block) (p x eng pc : Nat) (dead : Bool) (ctx tick tag : Nat) : Block :=
  if x = 0 then b
  else (if dead then b.captureAs p x eng pc 0 true ctx tick tag else b.raise p x eng pc 0).seedSpent p

/-- TWILL_PASS_COMPLETE (R177, R206, R216, R218, R231, R232, R547, R551, R554): the oldest pass in the array writes its
words and its residue check is decided. `us` are the faults of the array and its checker in this pass. A pass that needs
its step's seed waits for it (R256); a failed seed raises the exception of R257, which a step that has ended only records
(R125). -/
def Block.doTwillPassComplete (b : Block) (l : LTile) (us : List Upset) : Block :=
  let p := b.siteOf l
  match (b.site p).passes with
  | [] => b
  | q :: rest =>
    if !passDraws q (upsetSums q us) (b.passOld p q) then b.passEnd p l q rest us (fun _ => .ne)
    else if !q.dead && b.stochastic p (q.ins.md 2 1) && b.seedOf p == .waiting then b
    else
      match b.passRnd p q with
      | .ne => b.passEnd p l q rest us (fun _ => .ne)
      | .seed v => b.passEnd p l q rest us (fun e => .st (drawR v (b.tileOf p) q.tick q.index 0 e))
      | .bad x => (b.onSite p (fun s => { s with passes := rest })).seedFail p x 3 q.ins.pc q.dead q.ctx q.tick q.tag

/-- REPLAY_START (R548, R549): the step starts again at ENTRY with its start state restored; where no replay is
possible the outcome is UNRESOLVED and the step ends with FAULT. -/
def Block.doReplayStart (b : Block) (l : LTile) : Block :=
  let p := b.siteOf l
  let s := b.site p
  match s.run, s.replay, s.start with
  | some r, some rp, some c =>
    if !s.stopped || rp.started then b
    else if s.noReplay then b.replayFail p
    else
      let b := b.onSite p (fun s =>
        let s := { s with sreg := c.sreg, dreg := c.dreg, planeSel := c.planeSel, stopped := false, draining := false,
                          replay := some { rp with started := true }, passNo := 0, frondQ := 0, logAt := 0, twritten := [],
                          pcOver := false, runs := [], far := [],
                          plane0 := if NSet.mem s.planeWr 0 then { s.plane0 with replayBad := true } else s.plane0,
                          plane1 := if NSet.mem s.planeWr 1 then { s.plane1 with replayBad := true } else s.plane1 }
        s.loadArgs r)
      let b := (List.range 32).foldl (fun b k =>
        b.wr TL_SEM.COUNT (min 255 (c.sems.getD k 0 + SMap.get 0 s.fromOut k)) p k) b
      ((b.wr TL_STATUS.RUN 1 p).wr TL_STATUS.PC r.d.entry p).wr TL_RPL.STATE 1 p
  | _, _, _ => b

/-- SAMPLE_SEND_TIMEOUT (R555): the oldest sample of a site that has not left the port is dropped. -/
def Block.doSampleSendTimeout (b : Block) (p : SiteIx) : Block :=
  match b.samples.find? (fun s => s.site == p.val) with
  | none => b
  | some s => { b with samples := b.samples.erase s }.inc FLT_SAMPLE_CNT.SKIPPED

/-- A record of class SAMPLE (R556). It names the site that contains the fault (R566, R568): the spare for outcome SPARE, else
the original. -/
def Block.sampleRec (b : Block) (s : Sample) (cause : Nat) : Block :=
  b.report { cls := 10, cause := cause, level := 0, ctx := some s.ctx, unit := s.l,
             site := if cause = 3 then s.spare else s.site, cmdTag := s.cmdTag }

/-- SAMPLE_RESULT (R556, R557) for the oldest sample of a site. First the spare's results: `twoEqual` they agree, `same`
they equal the original, `pois` operands or results arrived poisoned. Results that agree and differ from the original
leave a referee run pending; the next result of that sample is the referee's: some true it equals the spare's, some false
it does not, none that it has not run, which decides once REFEREE_TICKS have passed. A site that has been retired meanwhile
is retired no second time. -/
def Block.doSampleResult (b : Block) (p : SiteIx) (twoEqual same pois : Bool) (referee : Option Bool) : Block :=
  match b.samples.find? (fun s => s.site == p.val) with
  | none => b
  | some s =>
    let b := { b with samples := b.samples.erase s }
    if pois || b.rd TL_SITE.STATE 0 s.spare ≠ 1 then b.inc FLT_SAMPLE_CNT.SKIPPED
    else
      match s.due with
      | some due =>
        let b := b.whenB (b.rd TL_RPL.STATE p == 2) (fun b => b.wr TL_RPL.STATE 0 p)
        match referee with
        | some true => (b.sampleRec s 1).countTransient s.site 2
        | some false => (b.sampleRec s 2).whenB (b.siteOf s.l == s.site) (fun b => b.hwRetire s.l 2)
        | none =>
          if due < b.now then (b.sampleRec s 4).countTransient s.site 2
          else { b with samples := s :: b.samples }
      | none =>
        let b := b.inc FLT_SAMPLE_CNT.SAMPLED
        if twoEqual && same then b
        else
          let b := b.inc FLT_SAMPLE_CNT.MISMATCHES
          if !twoEqual then
            (((b.wr TL_SITE.STATE 2 0 s.spare).wr TL_SITE.CAUSE 2 0 s.spare).inc FLT_SAMPLE_CNT.SPARE_FAULTS).sampleRec s 3
          else
            let s' := { s with due := some (b.now + b.rd FLT_SAMPLE.REFEREE_TICKS) }
            ({ b with samples := s' :: b.samples }).whenB (b.rd TL_RPL.STATE p == 0) (fun b => b.wr TL_RPL.STATE 2 p)

end Sys2Proof.Machine
end

