-- ==== Sys2Proof/Machine/Frond.lean ====
section
/-! DEFINITION. Machine/Frond.lean: the Frond engine (R178 to R197, R267 to R291): element-wise operations, chains,
conversion and quantisation, and the operations on tile registers. -/

namespace Sys2Proof.Machine
open Reg

/-! ### Operations on 32-bit words (R275, R276) -/

/-- min or max of FP32 codes: NaN if either is NaN, −0 below +0. -/
def f32MinMax (mx : Bool) (a c : Nat) : Nat :=
  let x := decodeF 0 a
  let y := decodeF 0 c
  if x == .nan || y == .nan then 0x7FC00000
  else
    let less := if x.lt y then true else if y.lt x then false else bit a 31
    if less != mx then a else c

/-- An operation of R179 in the FP32 domain on FP32 codes. -/
def opF (o a c e : Nat) : Nat :=
  let x := decodeF 0 a
  if o = 0 then f32Add a c
  else if o = 1 then toF32 (x.add (decodeF 0 c).neg)
  else if o = 2 then f32Mul a c
  else if o = 3 then f32Fma a c e
  else if o = 4 then f32MinMax false a c
  else if o = 5 then f32MinMax true a c
  else if o = 6 then (if x == .nan then 0x7FC00000 else a % 2 ^ 31)
  else if o = 7 then (if x == .nan then 0x7FC00000 else a ^^^ 0x80000000)
  else if o = 8 then (if x == .nan then 0x7FC00000 else if (XR.fin false 0 1).lt x then a else 0)
  else if o = 9 then (if (decodeF 0 c).lt x then 0x3F800000 else 0)
  else transc o a

/-- An operation of R179 in the INT32 domain: the word and whether it saturated. -/
def opI (o a c e : Nat) : Nat × Bool :=
  let x := toInt 32 a
  let y := toInt 32 c
  let put := fun (v : Int) => let r := sat32 v; (ofInt 32 r.1, r.2)
  if o = 0 then put (x + y)
  else if o = 1 then put (x - y)
  else if o = 2 then put (x * y)
  else if o = 3 then put (x * y + toInt 32 e)
  else if o = 4 then put (min x y)
  else if o = 5 then put (max x y)
  else if o = 6 then put x.natAbs
  else if o = 7 then put (-x)
  else if o = 8 then put (max x 0)
  else if o = 9 then put (if y < x then 1 else 0)
  else if o = 0x0A then put (x * 2 ^ (c % 32))
  else if o = 0x0B then put (x / 2 ^ (c % 32))
  else if o = 0x0C then ((a % 2 ^ 32) &&& (c % 2 ^ 32), false)
  else if o = 0x0D then ((a % 2 ^ 32) ||| (c % 2 ^ 32), false)
  else ((a % 2 ^ 32) ^^^ (c % 2 ^ 32), false)

/-- An operation in a domain (`int`): the word and the saturations. -/
def opW (int : Bool) (o a c e : Nat) : Nat × Nat :=
  if int then let r := opI o a c e; (r.1, r.2.toNat) else (opF o a c e, 0)

/-- Cost of a chunk (R179). -/
def opCost (o : Nat) : Nat := if o < 0x10 then 1 else if o = 0x17 then 6 else 4

/-! ### Operands -/

/-- Is an operand an integer operand (R180)? An MX operand is read as FP32 (R243). -/
def dIsInt (d : Nat) : Bool := isInt (dFmt d) && !dMx d

/-- The exact value of an element, its block scale code `sc` included where the descriptor carries MX (R243, R246). -/
def elValue (d code sc : Nat) : XR :=
  if dMx d then
    if sc = 255 then .nan
    else
      let x := if dFmt d = 8 then (XR.ofInt (toInt 8 code)).shift (-6) else decodeF (dFmt d) code
      decodeF 0 (toF32 (x.shift ((sc : Int) - 127)))
  else decodeX (dFmt d) code (dSigned d)

/-- The 32-bit word of an element in a domain (R180). -/
def elWord (int : Bool) (d code sc : Nat) : Nat :=
  if int then ofInt 32 (decodeI (dFmt d) code (dSigned d)) else toF32 (elValue d code sc)

/-- Does an input fit DC's iteration space (R181)? -/
def shapeOk (d dc : Nat) : Bool :=
  dNdim d == dNdim dc && (dSize d 0 == 1 || dSize d 0 == dSize dc 0)
  && [1, 2, 3, 4].all (fun k => !(k < dNdim dc) || dSize d k == dSize dc k)

/-- A Frond operand: R100, R101, and no virtual address (R178). -/
def frOk (n d dx : Nat) : Bool := descOk n d dx && dSpace d != 1

/-- Elements of a chunk of an input with their block scale codes. -/
def Block.readChunk (b : Block) (p d dx i0 n o : Nat) : List (El × Nat) × Block :=
  let (es, b) := b.getRun p d i0 n o
  let (sc, b) : List El × Block := if dMx d then b.getRun p dx (i0 / 32) ((i0 + n + 31) / 32 - i0 / 32) o else ([], b)
  ((List.range n).map (fun k =>
    let e := es.getD k (0, false)
    let s := sc.getD ((i0 + k) / 32 - i0 / 32) (0, false)
    ((e.1, e.2 || s.2), s.1)), b)

/-- A chunk of input number `src` of an instruction: one with SIZE0 = 1 is read once for each pass over dimension 0, and its
element serves every lane (R181, R270). -/
def Block.chunkIn (b : Block) (p : Nat) (r : ChunkRun) (src d dx i0 n o : Nat) : List (El × Nat) × ChunkRun × Block :=
  if dSize d 0 = 1 then
    if i0 = 0 then
      let (es, b) := b.readChunk p d dx 0 1 o
      let e := es.headD ((0, false), 0)
      (List.replicate n e, { r with ones := r.ones.filter (fun x => x.1 != src) ++ [(src, e.1, e.2)] }, b)
    else (List.replicate n (((r.ones.find? (fun x => x.1 == src)).map (fun x => (x.2.1, x.2.2))).getD ((0, false), 0)), r, b)
  else
    let (es, b) := b.readChunk p d dx i0 n o
    (es, r, b)

/-- Byte offset of the first poisoned element of a chunk, for the fault record (R560). -/
def poisAddr (d i0 o : Nat) (es : List (El × Nat)) : Nat :=
  if dSpace d = 0 then
    match (es.zip (List.range es.length)).find? (fun x => x.1.1.2) with
    | some x => (((dBase d : Int) * 8 + dBit d (if dSize d 0 = 1 then 0 else i0 + x.2) o) / 8).toNat / 16 * 16
    | none => 0
  else 0

/-! ### Counters (R271, R290) -/

/-- Local store bytes of a run: first and length. -/
def runSpan (d i0 n o : Nat) : List (Nat × Nat) :=
  if dSpace d ≠ 0 then []
  else
    let a := (dBase d : Int) * 8 + dBit d i0 o
    let sh := (a % 8).toNat
    [((a / 8).toNat, (sh + n * dBits d + 7) / 8)]

/-- Bank cycles a chunk needs: for each bank, the 64-byte units of its operands that lie in it (R89, R271). -/
def bankCycles (spans : List (Nat × Nat)) : Nat :=
  let parts := spans.flatMap (fun s => (List.range ((s.1 + s.2 + 127) / 128 - s.1 / 128)).map (fun j =>
    let g := s.1 / 128 + j
    (g % 24, (min (s.1 + s.2) (128 * g + 128) - max s.1 (128 * g) + 63) / 64)))
  (List.range 24).foldl (fun m k => max m ((parts.filter (fun x => x.1 == k)).map (·.2)).sum) 0

/-- Local store bytes that a chunk of an operand and of its scale tensor takes (R271): an input with SIZE0 = 1 only where it
is read. -/
def chunkSpan (d dx i0 n o : Nat) (input : Bool) : List (Nat × Nat) :=
  if input && dSize d 0 == 1 then
    if i0 = 0 then runSpan d 0 1 o ++ (if dMx d then runSpan dx 0 1 o else []) else []
  else runSpan d i0 n o ++ (if dMx d then runSpan dx (i0 / 32) ((i0 + n + 31) / 32 - i0 / 32) o else [])

/-- Does an engine of higher rank than the Frond engine work at the tile (R89)? -/
def Site.ranked (s : Site) : Bool := s.flight.any (fun i => i.eng == 2 || i.eng == 3 || i.eng == 5) || !s.passes.isEmpty

/-- Count a chunk (R271, R290). The cycles it loses to engines of higher rank, where one works, are a free value: the model has
no cycles (assumption log 50). -/
def Block.countChunk (b : Block) (p cost : Nat) (spans : List (Nat × Nat)) : Block :=
  let (lost, b) := if (b.site p).ranked && !spans.isEmpty then b.draw 16 else (0, b)
  (b.inc FR_CHUNK_CNT.CHUNKS 1 p).inc FR_CHUNK_CNT.BANK_STALLS (bankCycles spans + lost - cost) p

/-! ### Conversion to DC (R245, R248, R255) -/

/-- The state of an element-wise instruction between chunks: the exception it met (0 none), whether it came from the
seed, and the address. -/
structure FrRes where
  exc : Nat
  seed : Bool
  va : Nat
  deriving DecidableEq, Repr

/-- Position of an element in DC's iteration space (R255). -/
def wPos (dc i0 o : Nat) : Nat := i0 + dDim dc 0 * o

/-- The generator value for an element of a Frond instruction (R255). -/
def Block.frDraw (b : Block) (p : Nat) (r : ChunkRun) (w : Nat) : Rnd :=
  match r.rnd with
  | .seed v => .st (drawR v (b.tileOf p) r.tick r.index 1 ((r.q * 2 ^ 32 + w % 2 ^ 32) % 2 ^ 64))
  | _ => .ne

/-- Scale code X of a block that `frd.cvt` and the other element-wise instructions write (R245). -/
def mxScale (f : Nat) (xs : List XR) : Nat :=
  if xs.any (fun x => match x with
    | .fin _ _ _ => false
    | _ => true) then 255
  else
    let amax := xs.foldl (fun (m : XR) x => match x with
      | .fin _ n d => if m.lt (.fin false n d) then .fin false n d else m
      | _ => m) (.fin false 0 1)
    match amax with
    | .fin _ n d =>
      if n = 0 then 0
      else
        -- ceil(log2(amax / qmax))
        let (qn, qd) : Nat × Nat := if f = 8 then (127, 64) else
          match decodeF f (fmtMax f) with
          | .fin _ a c => (a, c)
          | _ => (1, 1)
        let num := n * qd
        let den := d * qn
        let e := floorLog2 num den
        let up := if 0 ≤ e then num != den * 2 ^ e.toNat else num * 2 ^ (-e).toNat != den
        (max 0 (min 254 (e + (if up then 1 else 0) + 127))).toNat
    | _ => 255

/-- The value an MX element is converted from: v × 2^(127 − X), in units of the code for INT8 (R243, R245). -/
def mxElem (f sc : Nat) (x : XR) : XR := if f = 8 then (x.shift (127 - (sc : Int))).shift 6 else x.shift (127 - (sc : Int))

/-- Write a run of a Frond instruction's results: those of a step that has ended are discarded (R38). -/
def Block.frPut (b : Block) (r : ChunkRun) (p d i0 o : Nat) (es : List El) : Block :=
  if r.dead then b else b.putRun p d i0 o es

/-- Write a chunk of exact results to DC with conversion, block scales and counters (R245, R248, R264). A seed that
failed ends the instruction at the first element that needs a draw, before anything of the chunk. The saturations of the
conversion count before those of the next chunk's arithmetic; no rule times them (DESIGN CHOICE, assumption log 53). -/
def Block.writeChunk (b : Block) (p : Nat) (r : ChunkRun) (inf1 : Bool) (i0 o : Nat) (xs : List XR) : FrRes × Block :=
  let i := r.ins
  let dc := i.dc
  let f := dFmt dc
  let n := xs.length
  let mx := dMx dc
  let nb := if mx then (n + 31) / 32 else 0
  let sc := (List.range nb).map (fun j => mxScale f ((xs.drop (32 * j)).take 32))
  let vals := (xs.zip (List.range n)).map (fun x => if mx then mxElem f (sc.getD (x.2 / 32) 0) x.1 else x.1)
  let none_ := fun k => mx && sc.getD (k / 32) 0 == 255
  let wants := (vals.zip (List.range n)).any (fun x => !none_ x.2 && needsDraw f x.1)
  match r.rnd, wants with
  | .bad x, true => (⟨x, true, 0⟩, b)
  | _, _ =>
    let out := (vals.zip (List.range n)).map (fun x =>
      if none_ x.2 then (0, ({} : Ev))
      else convX f (dSigned dc || mx) x.1 (b.frDraw p r (wPos dc (i0 + x.2) o)) inf1)
    let ev := out.foldl (fun (e : Ev) x => e.add x.2) {}
    let ev := ev.add { nanLost := (sc.filter (· == 255)).length }
    let b := b.countEv p ⟨4, i.pc, r.ctx, r.tick⟩ ev
    let b := b.frPut r p dc i0 o (out.map (fun x => (x.1, false)))
    let b := if mx then b.frPut r p i.dcx (i0 / 32) o (sc.map (fun s => (s, false))) else b
    (⟨0, false, 0⟩, b)

/-- The exception a Frond instruction met. Poison on data terminates the context, a seed's exception ends only the step (R257,
R559); while its step drains, the exception is recorded (R125). -/
def Block.frFail (b : Block) (p : Nat) (r : ChunkRun) (x : FrRes) : Block :=
  if x.seed then b.seedFail p x.exc 4 r.ins.pc r.dead r.ctx r.tick r.tag
  else if x.exc = xPoison then b.terminateAs p 4 r.ins.pc x.va r.ctx r.tick r.tag
  else b.raise p x.exc 4 r.ins.pc x.va

/-- The step has started one more Frond instruction: its number q (R255). -/
def Block.frStart (b : Block) (p : Nat) (i : EngIns) : Nat × Block :=
  let q := (b.site p).frondQ
  let b := b.onSite p (fun s => { s with frondQ := s.frondQ + 1 })
  (q, (b.noteReads p i.tReads).noteWrites p i.tWrites)

/-- First poisoned input of a chunk: its address. -/
def firstPois (i0 o : Nat) (ins : List (Nat × List (El × Nat))) : Option Nat :=
  (ins.find? (fun x => x.2.any (fun e => e.1.2))).map (fun x => poisAddr x.1 i0 o x.2)

/-! ### `frd.ew` (R179 to R182) -/

/-- Inputs of `frd.ew`: source number (0 A, 1 B, 2 C), register number, descriptor, scale descriptor. -/
def ewIns (i : EngIns) : List (Nat × Nat × Nat × Nat) :=
  let opc := i.md 0 6
  [(0, i.t.da.toNat, i.da, i.dax)] ++ (if opcUnary opc then [] else [(1, i.t.db.toNat, i.db, i.dbx)])
    ++ (if opc = 3 then [(2, i.t.dc.toNat, i.dc, i.dcx)] else [])

/-- The checks of `frd.ew` at dispatch. -/
def ewOk (i : EngIns) : Bool :=
  let ins := ewIns i
  frOk i.t.dc.toNat i.dc i.dcx && ins.all (fun x => frOk x.2.1 x.2.2.1 x.2.2.2 && shapeOk x.2.2.1 i.dc)
  && (!(0x0A ≤ i.md 0 6 && i.md 0 6 ≤ 0x0E) || ins.all (fun x => dIsInt x.2.2.1))

/-! ### `frd.chn` (R183, R279 to R283) -/

/-- One operation of a chain record (R280). -/
structure ChnOp where
  opc : Nat
  s1 : Nat
  s2 : Nat
  s3 : Nat
  save : Nat
  imm : Nat
  deriving DecidableEq, Repr

/-- Split an operation word. -/
def chnOp (w : Nat) : ChnOp := ⟨bits w 0 6, bits w 6 3, bits w 9 3, bits w 12 3, bits w 15 2, bits w 32 32⟩

/-- Sources an operation uses. -/
def ChnOp.srcs (x : ChnOp) : List Nat :=
  if opcUnary x.opc then [x.s1] else if x.opc = 3 then [x.s1, x.s2, x.s3] else [x.s1, x.s2]

/-- Is an operation word well-formed (R281, R282)? `j` its number, `saved` what earlier operations have saved. -/
def chnOpOk (w j : Nat) (int : Bool) (saved : List Nat) : Bool :=
  let x := chnOp w
  opcKnown x.opc && bits w 17 15 == 0 && x.save != 3
  && (!opcUnary x.opc || x.s2 == 0) && (x.opc == 3 || x.s3 == 0)
  && (if int then x.opc < 0x10 else !(0x0A ≤ x.opc && x.opc ≤ 0x0E))
  && x.srcs.all (fun s => s != 7 && !(s == 3 && j == 0) && !(s == 4 && !saved.any (· == 1)) && !(s == 5 && !saved.any (· == 2)))

/-- The operations of a record of sixteen words, or nothing where R282 refuses it. -/
def chnParse (ws : List Nat) : Option (Bool × Nat × List ChnOp) :=
  let h := ws.getD 0 0
  let n := bits h 0 4
  let int := bit h 4
  let good := 1 ≤ n && n ≤ 8 && h / 2 ^ 6 == 0 && ws.getD 1 0 == 0
    && (List.range 16).all (fun k => !(k ≥ 2 + n) || ws.getD k 0 == 0)
  let (ok, _, ops) := (List.range n).foldl (fun (acc : Bool × List Nat × List ChnOp) j =>
    let w := ws.getD (2 + j) 0
    let x := chnOp w
    (acc.1 && chnOpOk w j int acc.2.1, acc.2.1 ++ [x.save], acc.2.2 ++ [x])) (good, [], [])
  if ok then some (int, bits h 5 1, ops) else none

/-- Evaluate a chain on one element (R283): the word and the saturations. `env` gives A, B and C. -/
def chnEval (int : Bool) (env : Nat → Nat) : List ChnOp → Nat → Nat → Nat → Nat → Nat × Nat
  | [], p, _, _, sat => (p, sat)
  | x :: r, p, x0, x1, sat =>
    let src := fun s => if s = 3 then p else if s = 4 then x0 else if s = 5 then x1 else if s = 6 then x.imm else env s
    let y := opW int x.opc (src x.s1) (src x.s2) (src x.s3)
    chnEval int env r y.1 (if x.save = 1 then y.1 else x0) (if x.save = 2 then y.1 else x1) (sat + y.2)

/-- `frd.chn` at dispatch: DC, whose use no record decides. -/
def chnOk (i : EngIns) : Bool := frOk i.t.dc.toNat i.dc i.dcx

/-- Inputs of `frd.chn` with its record: the sources some operation names (R282). -/
def chnIns (i : EngIns) (ops : List ChnOp) : List (Nat × Nat × Nat × Nat) :=
  let named := ops.flatMap ChnOp.srcs
  [(0, i.t.da.toNat, i.da, i.dax), (1, i.t.db.toNat, i.db, i.dbx), (2, i.t.dc.toNat, i.dc, i.dcx)].filter
    (fun x => named.any (· == x.1))

/-- Does a record fit its instruction (R282): a descriptor field that no operation names is 0, the named ones pass the
checks. -/
def chnFits (i : EngIns) (int : Bool) (ops : List ChnOp) : Bool :=
  let named := ops.flatMap ChnOp.srcs
  (i.t.da == 0 || named.any (· == 0)) && (i.t.db == 0 || named.any (· == 1))
  && (chnIns i ops).all (fun x => frOk x.2.1 x.2.2.1 x.2.2.2 && shapeOk x.2.2.1 i.dc && (!int || dIsInt x.2.2.1))

/-! ### `frd.cvt` (R185, R186, R259, R260) -/

/-- SHIFT of `frd.cvt`, signed. -/
def cvtShift (i : EngIns) : Int := toInt 7 (i.md 1 7)

/-- The checks of `frd.cvt` at dispatch (R186, R259). -/
def cvtOk (i : EngIns) : Bool :=
  let a := i.da
  let c := i.dc
  let d := i.db
  frOk i.t.da.toNat a i.dax && frOk i.t.dc.toNat c i.dcx && shapeOk a c
  && (i.md 8 1 == 0 || dFmt c == 4)
  && (i.md 9 1 == 0 || ((dFmt c == 8 || dFmt c == 9) && !dSigned c && !dMx c && frOk i.t.db.toNat d i.dbx && dFmt d == 1
      && dNdim d == dNdim a && dSize d 0 == 2 && [1, 2, 3, 4].all (fun k => !(k < dNdim a) || dSize d k == dSize a k)))

/-- Order on exact values with −0 below +0 (R259, R275). -/
def XR.lt0 (a c : XR) : Bool :=
  if a.lt c then true else if c.lt a then false
  else match a, c with
    | .fin n 0 _, .fin m 0 _ => n && !m
    | _, _ => false

/-- Is an exact value a NaN or an infinity? -/
def XR.wild : XR → Bool
  | .fin _ _ _ => false
  | _ => true

/-- Scale and offset of an affine row (R259, R260), whether it is a NaN row, and whether it has zero range. -/
def affRow (xs : List XR) (qmax : Nat) : Nat × Nat × Bool × Bool :=
  match xs with
  | [] => (0, 0, false, true)
  | x0 :: _ =>
    if xs.any XR.wild then (0x7FC0, 0x7FC0, true, true)
    else
      let lo := xs.foldl (fun m x => if x.lt0 m then x else m) x0
      let hi := xs.foldl (fun m x => if m.lt0 x then x else m) x0
      if lo.lt (decodeF 1 0xFF7F) then (0x7FC0, 0x7FC0, true, true)
      else
        let o := bf16Dir false lo
        if hi.eq lo then (0, o, false, true)
        else (bf16Dir true ((hi.add (decodeF 1 o).neg).div (.fin false qmax 1)), o, false, false)

/-- The exact quotient (v − o) / s of R259. -/
def affQuot (s o : Nat) (x : XR) : XR := (x.add (decodeF 1 o).neg).div (decodeF 1 s)

/-- An affine row is read and judged (R259): every element before anything of the row is written. -/
def Block.cvtRow (b : Block) (p : Nat) (r : ChunkRun) (o : Nat) : FrRes × ChunkRun × Block :=
  let i := r.ins
  let n := dDim i.dc 0
  let one := dSize i.da 0 == 1
  let (es, b) := b.readChunk p i.da i.dax 0 (if one then 1 else n) o
  if es.any (fun e => e.1.2) then (⟨xPoison, false, poisAddr i.da 0 o es⟩, r, b)
  else
    let es := if one then List.replicate n (es.headD ((0, false), 0)) else es
    let xs := es.map (fun e => (elValue i.da e.1.1 e.2).shift (cvtShift i))
    let f := dFmt i.dc
    let (s, off, nan, flat) := affRow xs (if f = 8 then 255 else 15)
    let quot := if flat then [] else xs.map (affQuot s off)
    match r.rnd, quot.any (fun x => needsDraw 8 x) with
    | .bad x, true => (⟨x, true, 0⟩, r, b)
    | _, _ =>
      let codes := if flat then List.replicate n 0
        else (quot.zip (List.range n)).map (fun x => (convI f false x.1 (b.frDraw p r (wPos i.dc x.2 o))).1)
      (⟨0, false, 0⟩, { r with codes := codes, row := (s, off) }, if nan then b.inc FR_SAT_CNT.NAN_LOST 1 p else b)

/-- A chunk of affine quantisation (R259): the row is judged with its first chunk, and its scale and offset go out with its
last. -/
def Block.affChunk (b : Block) (p : Nat) (r : ChunkRun) (c : Nat × Nat × Nat) : FrRes × ChunkRun × Block :=
  let (i0, n, o) := c
  let i := r.ins
  let (x, r, b) := if i0 = 0 then b.cvtRow p r o else (⟨0, false, 0⟩, r, b)
  if x.exc ≠ 0 then (x, r, b)
  else
    let last := decide (dDim i.dc 0 ≤ i0 + n)
    let b := b.countChunk p 3 (chunkSpan i.da i.dax i0 n o true ++ chunkSpan i.dc i.dcx i0 n o false
      ++ (if last then runSpan i.db 0 2 o else []))
    let b := b.frPut r p i.dc i0 o (((r.codes.drop i0).take n).map (fun c => (c, false)))
    (x, r, if last then b.frPut r p i.db 0 o [(r.row.1, false), (r.row.2, false)] else b)

/-! ### Element-wise instructions, chunk by chunk (R269 to R273) -/

/-- What an element-wise instruction does with an element: its inputs, its domain, its cost per chunk, whether FP8-E5M2
overflows to infinity. -/
structure FrOp where
  ins : List (Nat × Nat × Nat × Nat)
  int : Bool
  cost : Nat
  inf1 : Bool
  deriving DecidableEq, Repr

/-- That of an instruction; `chain` are the words of a chain record. -/
def EngIns.frOp (i : EngIns) (chain : List Nat) : FrOp :=
  let opc := i.md 0 6
  if i.op = .frdEw then ⟨ewIns i, (ewIns i).all (fun x => dIsInt x.2.2.1) && opc < 0x10, opCost opc, false⟩
  else if i.op = .frdChn then
    match chnParse chain with
    | some (int, _, ops) => ⟨chnIns i ops, int, ops.foldl (fun m x => max m (opCost x.opc)) 1, false⟩
    | none => ⟨[], false, 1, false⟩
  else ⟨[(0, i.t.da.toNat, i.da, i.dax)], false, 1, i.md 8 1 == 1⟩

/-- The exact result of an element and its INT32 saturations; `env` gives the descriptor, code and scale code of a source. -/
def EngIns.frVal (i : EngIns) (chain : List Nat) (int : Bool) (env : Nat → Option (Nat × Nat × Nat)) : XR × Nat :=
  let word := fun s => (env s).elim 0 (fun x => elWord int x.1 x.2.1 x.2.2)
  let put := fun (w : Nat × Nat) => (if int then XR.ofInt (toInt 32 w.1) else decodeF 0 w.1, w.2)
  if i.op = .frdEw then put (opW int (i.md 0 6) (word 0) (word 1) (word 2))
  else if i.op = .frdChn then
    match chnParse chain with
    | some (_, _, ops) => put (chnEval int word ops 0 0 0 0)
    | none => (.nan, 0)
  else ((env 0).elim .nan (fun x => (elValue x.1 x.2.1 x.2.2).shift (cvtShift i)), 0)

/-- A chunk of an element-wise instruction: every input is read, then the results are written (R181, R270). Where DC overlaps an
input in another way than R273 allows, an element reads what stands there when its chunk is read: the old word within its
chunk, the new one of earlier chunks (R273 allows either; DESIGN CHOICE, assumption log 53). -/
def Block.elChunk (b : Block) (p : Nat) (r : ChunkRun) (c : Nat × Nat × Nat) : FrRes × ChunkRun × Block :=
  let (i0, n, o) := c
  let i := r.ins
  let op := i.frOp r.chain
  let (vs, r, b) := op.ins.foldl (fun (acc : List (Nat × Nat × List (El × Nat)) × ChunkRun × Block) x =>
    let (es, r, b) := acc.2.2.chunkIn p acc.2.1 x.1 x.2.2.1 x.2.2.2 i0 n o
    (acc.1 ++ [(x.1, x.2.2.1, es)], r, b)) ([], r, b)
  match firstPois i0 o (vs.map (fun x => (x.2.1, x.2.2))) with
  | some a => (⟨xPoison, false, a⟩, r, b)
  | none =>
    let res := (List.range n).map (fun k => i.frVal r.chain op.int (fun s => (vs.find? (fun x => x.1 == s)).map (fun x =>
      let e := x.2.2.getD k ((0, false), 0)
      (x.2.1, e.1.1, e.2))))
    let b := b.countSat p ⟨3, i.pc, r.ctx, r.tick⟩ (res.map (·.2)).sum
    let b := b.countChunk p op.cost (op.ins.flatMap (fun x => chunkSpan x.2.2.1 x.2.2.2 i0 n o true)
      ++ chunkSpan i.dc i.dcx i0 n o false)
    let (x, b) := b.writeChunk p r op.inf1 i0 o (res.map (·.1))
    (x, r, b)

/-- A chunk of a Frond instruction. -/
def Block.frChunk (b : Block) (p : Nat) (r : ChunkRun) (c : Nat × Nat × Nat) : FrRes × ChunkRun × Block :=
  if r.ins.op = .frdCvt ∧ r.ins.md 9 1 = 1 then b.affChunk p r c else b.elChunk p r c

/-- Walk chunks (R269) until an exception. -/
def Block.frWalk (p : Nat) : List (Nat × Nat × Nat) → ChunkRun → Block → FrRes × ChunkRun × Block
  | [], r, b => (⟨0, false, 0⟩, r, b)
  | c :: cs, r, b =>
    let (x, r, b) := b.frChunk p r c
    if x.exc ≠ 0 then (x, r, b) else Block.frWalk p cs { r with next := r.next + 1 } b

/-- Perform up to `n` chunks more of a Frond instruction (R269, R291). -/
def Block.frWork (b : Block) (p : Nat) (r : ChunkRun) (n : Nat) : Block :=
  let (x, r, b) := Block.frWalk p (((dChunks r.ins.dc 64).drop r.next).take n) r b
  if x.exc ≠ 0 then (b.lastChunk p r.ins.id).frFail p r x
  else if r.next = r.total then b.lastChunk p r.ins.id
  else b.putChunks p r

/-- An element-wise instruction starts. -/
def Block.frGo (b : Block) (p : Nat) (i : EngIns) (rnd : Nat) (chain : List Nat) : Block :=
  let (q, b) := b.frStart p i
  let r := { b.newRun p i (dChunks i.dc 64).length q (b.roundNow p rnd) with chain := chain }
  let (n, b) := (b.onSite p (fun s => { s with runs := s.runs ++ [r] })).chunksNow r.total
  b.frWork p r n

/-- The rest of the Frond instruction that works: of the running step, or of one that has ended. -/
def Block.frRest (b : Block) (p : Nat) (dead : Bool) : Block :=
  match (b.site p).runs.find? (fun r => r.ins.eng == 4 && r.dead == dead) with
  | some r => b.frWork p r r.total
  | none => b

/-- `frd.ew` (R179 to R182). -/
def Block.runFrdEw (b : Block) (p : Nat) (i : EngIns) : Block := b.frGo p i (i.md 6 1) []

/-- `frd.chn`: the record is read and judged when the instruction starts (R282). -/
def Block.runFrdChn (b : Block) (p : Nat) (i : EngIns) : Block :=
  let off := i.md 0 16 * 64
  let fail := fun (b : Block) x va => (b.frStart p i).2.raise p x 4 i.pc va
  if off + 128 > 0x30_0000 then fail b xDesc 0
  else
    let (ms, b) := b.lsBytes p off 128
    if ms.pois then fail b xPoison off
    else
      let ws := (List.range 16).map (fun k => leNat ((ms.bytes.drop (8 * k)).take 8))
      match chnParse ws with
      | none => fail b xDesc 0
      | some (int, rnd, ops) => if chnFits i int ops then b.frGo p i rnd ws else fail b xDesc 0

/-- `frd.cvt` (R185, R186). -/
def Block.runFrdCvt (b : Block) (p : Nat) (i : EngIns) : Block := b.frGo p i (i.md 0 1) []

/-! ### Tile register operations (R187 to R197, R284 to R288) -/

/-- Position k of line `j`: along the feature axis (AXIS 0) or the batch axis. -/
def linePos (axis j k : Nat) : Nat × Nat := if axis = 0 then (j, k) else (k, j)

/-- Write words of a tile register. -/
def Block.putCells (b : Block) (p t : Nat) (ws : List ((Nat × Nat) × Nat × Bool)) : Block :=
  b.onSite p (fun s => ws.foldl (fun s w => s.setTw t w.1.1 w.1.2 w.2.1 w.2.2) s)

/-- Finish an operation on tile registers: poison on data terminates the context (R178, R559). -/
def Block.regOp (b : Block) (p : Nat) (i : EngIns) (pois : Bool) (ws : List (Nat × List ((Nat × Nat) × Nat × Bool))) : Block :=
  let (_, b) := b.frStart p i
  if pois then b.terminate p 4 i.pc 0
  else (ws.foldl (fun b w => b.putCells p w.1 w.2) b).markDone p i.id

/-- One level of the tree of R284. -/
def treeLevel : List (Option Nat) → List (Option Nat)
  | [] => []
  | [x] => [x]
  | a :: c :: r =>
    (match a, c with
     | some x, some y => some (f32Add x y)
     | some x, none => some x
     | none, y => y) :: treeLevel r

/-- FP32 sum in the fixed tree of R284: six levels over 64 positions. -/
def treeSum (ws : List Nat) : Nat :=
  let v := (List.range 64).map (fun k => ws[k]?)
  let r := (List.range 6).foldl (fun v _ => treeLevel v) v
  toF32 (decodeF 0 ((r.headD none).getD 0))

/-- A reduction (R284, R285): the word and the saturations. -/
def redLine (op : Nat) (int : Bool) (ws : List Nat) : Nat × Nat :=
  if int then
    let v := ws.map (toInt 32)
    if op = 0 then let r := sat32 v.sum; (ofInt 32 r.1, r.2.toNat)
    else (ofInt 32 (v.foldl (fun m x => if op = 1 then max m x else min m x) (v.headD 0)), 0)
  else if op = 0 then (treeSum ws, 0)
  else (ws.foldl (fun m x => f32MinMax (op == 1) m x) (toF32 (decodeF 0 (ws.headD 0))), 0)

/-- N of a MOD field: 0 means 64. -/
def nOf (v : Nat) : Nat := if v = 0 then 64 else v

/-- `frd.red` (R187, R284 to R286). -/
def Block.runFrdRed (b : Block) (p : Nat) (i : EngIns) : Block :=
  let s := b.site p
  let ta := i.t.ta.toNat
  let axis := i.md 2 1
  let n := nOf (i.md 4 7)
  let lines := (List.range 64).map (fun j => (List.range n).map (fun k =>
    let c := linePos axis j k
    (s.tw ta c.1 c.2, s.tpoisAt ta c.1 c.2)))
  let res := lines.map (fun ln => redLine (i.md 0 2) (i.md 3 1 == 1) (ln.map (·.1)))
  let bad := lines.any (fun ln => ln.any (·.2))
  let b := b.countSat p ⟨3, i.pc, b.ctxOf p, (b.site p).run.elim b.now (fun r => r.tick)⟩ (if bad then 0 else (res.map (·.2)).sum)
  b.regOp p i bad [(i.t.tc.toNat, (res.zip (List.range 64)).map (fun x => (linePos axis x.2 0, x.1.1, false)))]

/-- Does score `a` at position x precede score `c` at position y (R287)? -/
def topBefore (smallest : Bool) (a c : Nat × Nat) : Bool :=
  let x := decodeF 0 a.1
  let y := decodeF 0 c.1
  if x == .nan then (y == .nan && a.2 < c.2)
  else if y == .nan then true
  else if x.eq y then a.2 < c.2
  else if smallest then x.lt y else y.lt x

/-- Insert into a list ordered by R287. -/
def topInsert (smallest : Bool) (a : Nat × Nat) : List (Nat × Nat) → List (Nat × Nat)
  | [] => [a]
  | c :: r => if topBefore smallest a c then a :: c :: r else c :: topInsert smallest a r

/-- `frd.topk` (R189, R190, R287, R288). -/
def Block.runFrdTopk (b : Block) (p : Nat) (i : EngIns) : Block :=
  let s := b.site p
  let ta := i.t.ta.toNat
  let axis := i.md 7 1
  let small := i.md 8 1 == 1
  let k := i.md 0 7
  let n := nOf (i.md 9 7)
  let cells := fun j => (List.range n).map (fun x => linePos axis j x)
  let bad := (List.range 64).any (fun j => (cells j).any (fun c => s.tpoisAt ta c.1 c.2))
  let outs := (List.range 64).flatMap (fun j =>
    let sorted := ((cells j).zip (List.range n)).foldl (fun acc x => topInsert small (s.tw ta x.1.1 x.1.2, x.2) acc) []
    (List.range k).map (fun m => match sorted[m]? with
      | some (v, x) => (linePos axis j m, (if decodeF 0 v == XR.nan then 0x7FC00000 else v), x)
      | none => (linePos axis j m, (if small then 0x7F800000 else 0xFF800000), 0xFFFFFFFF)))
  b.regOp p i bad [(i.t.tc.toNat, outs.map (fun x => (x.1, x.2.1, false))), (i.t.tb.toNat, outs.map (fun x => (x.1, x.2.2, false)))]

/-- All 4,096 positions of a tile register. -/
def allCells : List (Nat × Nat) := (List.range 64).flatMap (fun r => (List.range 64).map (fun c => (r, c)))

/-- `frd.perm` (R192). -/
def Block.runFrdPerm (b : Block) (p : Nat) (i : EngIns) : Block :=
  let s := b.site p
  let ta := i.t.ta.toNat
  let tb := i.t.tb.toNat
  let src := fun (c : Nat × Nat) =>
    let x := s.tw tb c.1 c.2
    if bit x 31 then none else some (if i.md 0 1 = 0 then (c.1, x % 64) else (x % 64, c.2))
  let bad := allCells.any (fun c => s.tpoisAt tb c.1 c.2 || (match src c with
    | some a => s.tpoisAt ta a.1 a.2
    | none => false))
  b.regOp p i bad [(i.t.tc.toNat, allCells.map (fun c => (c, (match src c with
    | some a => s.tw ta a.1 a.2
    | none => 0), false)))]

/-- Source position of `frd.shf` patterns 0 to 4 (R194). -/
def shfSrc (pat amt k : Nat) : Nat :=
  if pat = 0 then (k + 64 - amt) % 64
  else if pat = 1 then 63 - k
  else if pat = 2 then (if k % 2 = 0 then k / 2 else 32 + k / 2)
  else if pat = 3 then (if k < 32 then 2 * k else 2 * (k - 32) + 1)
  else amt

/-- `frd.shf` (R194). -/
def Block.runFrdShf (b : Block) (p : Nat) (i : EngIns) : Block :=
  let s := b.site p
  let ta := i.t.ta.toNat
  let pat := i.md 0 3
  let src := fun (c : Nat × Nat) =>
    if pat = 5 then (c.2, c.1)
    else if i.md 9 1 = 0 then (c.1, shfSrc pat (i.md 3 6) c.2)
    else (shfSrc pat (i.md 3 6) c.1, c.2)
  let bad := allCells.any (fun c => let a := src c; s.tpoisAt ta a.1 a.2)
  b.regOp p i bad [(i.t.tc.toNat, allCells.map (fun c => let a := src c; (c, s.tw ta a.1 a.2, false)))]

/-- `frd.pack` (R196, R197). -/
def Block.runFrdPack (b : Block) (p : Nat) (i : EngIns) : Block :=
  let s := b.site p
  let ta := i.t.ta.toNat
  let w := fmtBits (i.md 0 4)
  let per := 32 / w
  b.regOp p i false [(i.t.tc.toNat, allCells.map (fun c =>
    if c.2 < 64 / per then
      let cols := (List.range per).map (fun k => c.2 * per + k)
      (c, (cols.map (fun k => (s.tw ta c.1 k % 2 ^ w) * 2 ^ (w * (k % per)))).sum, cols.any (fun k => s.tpoisAt ta c.1 k))
    else (c, 0, false)))]

/-- `frd.unpk` (R196, R197). -/
def Block.runFrdUnpk (b : Block) (p : Nat) (i : EngIns) : Block :=
  let s := b.site p
  let ta := i.t.ta.toNat
  let f := i.md 0 4
  let w := fmtBits f
  let per := 32 / w
  let sign := i.md 4 1 == 1 && (f == 8 || f == 9)
  b.regOp p i false [(i.t.tc.toNat, allCells.map (fun c =>
    let e := bits (s.tw ta c.1 (c.2 / per)) (w * (c.2 % per)) w
    (c, (if sign then ofInt 32 (toInt w e) else e), s.tpoisAt ta c.1 (c.2 / per))))]

end Sys2Proof.Machine
end

