-- ==== Sys2Proof/Machine/Moss.lean ====
section
/-! DEFINITION. Machine/Moss.lean: the Moss issue units and engines (R198 to R202, R292 to R334): the table directory,
bags and parts, pooling, returns; row records and live tables (R335 to R363): the reader rule, updates and the merge. -/

namespace Sys2Proof.Machine
open Reg

/-! ### The table directory (R297, R347) -/

/-- VALID of a directory entry. -/
def eValid (e : List Nat) : Bool := bit (e.getD 0 0) 0
/-- CLASS: 0 replicated, 1 sharded, 2 pool. -/
def eClass (e : List Nat) : Nat := bits (e.getD 0 0) 1 2
/-- CODE: 4-bit row codes. -/
def eCode (e : List Nat) : Bool := bit (e.getD 0 0) 3
/-- RCLK. -/
def eRclk (e : List Nat) : Bool := bit (e.getD 0 0) 4
/-- DIM. -/
def eDim (e : List Nat) : Nat := bits (e.getD 0 0) 8 8
/-- STRIDE. -/
def eStride (e : List Nat) : Nat := bits (e.getD 0 0) 16 4
/-- HOME_STACK, the engine of a sharded table. -/
def eHome (e : List Nat) : Nat := bits (e.getD 0 0) 20 4
/-- STACK_MASK. -/
def eMask (e : List Nat) : Nat := bits (e.getD 0 0) 24 12
/-- ROWS. -/
def eRows (e : List Nat) : Nat := bits (e.getD 1 0) 0 40
/-- BROWS. -/
def eBrows (e : List Nat) : Nat := bits (e.getD 3 0) 0 32
/-- UPD_EN. -/
def eUpd (e : List Nat) : Bool := bit (e.getD 7 0) 48
/-- UPD_SCALE as an FP32 code. -/
def eScale (e : List Nat) : Nat := bits (e.getD 7 0) 32 16 * 2 ^ 16
/-- Does a tick use the next version (R348)? -/
def eNextAt (e : List Nat) (tick : Nat) : Bool := e.getD 6 0 != 0 && decide (e.getD 6 0 ≤ tick)
/-- BASE or NEXT_BASE for a tick (R348). -/
def eBase (e : List Nat) (tick : Nat) : Nat := if eNextAt e tick then bits (e.getD 5 0) 0 46 else bits (e.getD 2 0) 0 46
/-- TVER or NEXT_TVER for a tick (R348). -/
def eTver (e : List Nat) (tick : Nat) : Nat := if eNextAt e tick then bits (e.getD 7 0) 16 16 else bits (e.getD 7 0) 0 16

/-- Is a directory entry valid (R297, R298, R302, R338, R347)? `gib` is MS_REPL.MAX_GIB. -/
def entOk (gib : Nat) (e : List Nat) : Bool :=
  let n := eStride e
  let c := eClass e
  let need := (eDim e * (if eCode e then 4 else 8) + 7) / 8
  let baseOk := fun a => a % (32 * n) == 0 && (if c == 2 then 2 ^ 40 ≤ a && a < 2 ^ 41 else a < 2 ^ 36)
  eValid e && c != 3 && (n == 1 || n == 2 || n == 4 || n == 8) && 1 ≤ eDim e && eDim e ≤ 128 && 1 ≤ eRows e
  && (!eRclk e || c == 0) && (!eUpd e || c == 1)
  && (c != 0 || (eMask e != 0 && eRows e * 32 * n ≤ gib * 2 ^ 30))
  && (c == 0 || (eRows e + 4095) / 4096 ≤ eBrows e) && (c != 1 || eHome e ≤ 11)
  && baseOk (bits (e.getD 2 0) 0 46) && baseOk (bits (e.getD 5 0) 0 46)
  && need ≤ (if n == 1 then 10 else 15 * n - 4)

/-- Validity under this module's limit. -/
def Block.entGood (b : Block) (e : List Nat) : Bool := entOk (b.rd MS_REPL.MAX_GIB) e

/-- Read a directory entry (R297): its words, and whether the read was good. -/
def Block.dirRead (b : Block) (table : Nat) : List Nat × Bool × Block :=
  let (ws, bad, b) := b.tableWords (b.rd MS_TDIR.BASE * 2 ^ 12 + 64 * table) 8
  (ws, !bad, b)

/-! ### Row records (R335 to R342) -/

/-- The trailer of sector `k` (R335). -/
def trailer (r : List Byte) (k : Nat) : Nat := leNat ((r.drop (32 * k + 30)).take 2)

/-- The reader rule (R341): the active slot, none where the rule fails. -/
def readerRule (n : Nat) (r : List Byte) : Option Nat :=
  let sel := bits (trailer r 0) 12 1
  if n ≤ 1 then some sel
  else
    let h := n / 2
    let v := bits (trailer r (sel * h)) 0 12
    if (List.range h).all (fun k => bits (trailer r (sel * h + k)) 0 12 == v) then some sel else none

/-- The payload of slot `s` (R336). -/
def slotBytes (n s : Nat) (r : List Byte) : List Byte :=
  if n ≤ 1 then (r.drop (14 * s)).take 14
  else (List.range (n / 2)).flatMap (fun k => (r.drop (32 * (s * (n / 2) + k))).take 30)

/-- The value of a slot payload (R337): DIM FP32 codes. -/
def slotVals (code4 : Bool) (dim : Nat) (pl : List Byte) : List Nat :=
  let s := leNat (pl.take 2)
  let o := leNat ((pl.drop 2).take 2)
  (List.range dim).map (fun i =>
    let c := if code4 then bits ((pl.getD (4 + i / 2) 0).toNat) (4 * (i % 2)) 4 else (pl.getD (4 + i) 0).toNat
    decodeRow c s o)

/-- What a read of a record finds (R342): 0 passed, 1 poisoned, 2 the rule failed, 3 tag mismatch; and its bytes. -/
structure RecRead where
  find : Nat
  bytes : List Byte
  deriving DecidableEq, Repr

/-- Judge the bytes of a record as read. -/
def recJudge (n : Nat) (r : RdRes) : RecRead :=
  if r.tagFail then ⟨3, []⟩ else if r.pois then ⟨1, r.bytes⟩
  else match readerRule n r.bytes with
    | some _ => ⟨0, r.bytes⟩
    | none => ⟨2, r.bytes⟩

/-- The decoded row of a record that passed. -/
def recVals (e : List Nat) (r : List Byte) : List Nat :=
  slotVals (eCode e) (eDim e) (slotBytes (eStride e) ((readerRule (eStride e) r).getD 0) r)

/-- One read of a record by engine `m` with its counters (R293, R332). `again`: a re-read. -/
def Block.engRead (b : Block) (m ctx a n : Nat) (again : Bool) : RecRead × Block :=
  let b := (b.inc MS_ROW_CNT.ROWS 1 m).inc MS_SECT_CNT.SECTORS n m
  let b := if again then b.inc MS_UPD_ERR.REREADS 1 m else b
  let b := if b.isMem a then b.inc MS_SQ.SERVED n m ((b.locOf a).2.1 / 2 % 16) else b
  let (r, b) := b.mread ctx a (32 * n)
  (recJudge n r, b)

/-- Read until a read passes, at most `k` times (R342), by `f` of the re-read flag. -/
def readTries (f : Block → Bool → RecRead × Block) : Nat → Block → Bool → RecRead × Block
  | 0, b, again => f b again
  | k + 1, b, again =>
    match f b again with
    | (r, b) => if r.find = 1 ∨ r.find = 2 then readTries f k b true else (r, b)

/-- Address of a row's record (R299, R301): `stack` for a replicated table. -/
def Block.recAddr (b : Block) (e : List Nat) (tick stack row : Nat) : Nat :=
  let sz := 32 * eStride e
  let slot := b.rd MS_BSLOT.SLOT 0 (row % 4096) * eBrows e + row / 4096
  match eClass e with
  | 0 => stack * 2 ^ 36 + eBase e tick + row * sz
  | 1 => eHome e * 2 ^ 36 + eBase e tick + slot * sz
  | _ => eBase e tick + slot * sz

/-- The stack a tile's bags on a replicated table go to (R299). -/
def stackFor (l mask : Nat) : Nat :=
  let set := (List.range 12).filter (fun k => bit mask k)
  set.getD (l / 4 % max 1 set.length) 0

/-! ### Pooling arithmetic (R309, R310, R312) -/

/-- Is an FP32 code an infinity? -/
def f32Inf (v : Nat) : Bool := v % 2 ^ 31 == 0x7F800000
/-- Is it finite? -/
def f32Fin (v : Nat) : Bool := bits v 23 8 != 255
/-- Is it a NaN? -/
def f32Nan (v : Nat) : Bool := v % 2 ^ 31 > 0x7F800000

/-- One element's step of pool_part: the accumulator, the row's value, the weight's FP32 code. -/
def poolOp (mode a v w : Nat) : Nat :=
  if mode = 3 then f32MinMax true a v else if mode = 2 then f32Fma w v a else f32Add a v

/-- pool_part of R309 for one element over rows in entry order, and whether a sum became infinite from finite inputs. -/
def poolElem (mode : Nat) (vs : List (Nat × Nat)) : Nat × Bool :=
  vs.foldl (fun (acc : Nat × Bool) x =>
    let y := poolOp mode acc.1 x.1 (x.2 * 2 ^ 16)
    (y, acc.2 || (f32Inf y && f32Fin acc.1 && f32Fin x.1 && (mode != 2 || f32Fin (x.2 * 2 ^ 16))))) (if mode = 3 then 0xFF800000 else 0, false)

/-- pool_part of R309 over rows with their weights. -/
def poolPart (mode dim : Nat) (rows : List (List Nat × Nat)) : List Nat × Bool :=
  let r := (List.range dim).map (fun j => poolElem mode (rows.map (fun x => (x.1.getD j 0, x.2))))
  (r.map (·.1), r.any (·.2))

/-- Insert in that order. -/
def insNode (q : MssPart) : List MssPart → List MssPart
  | [] => [q]
  | x :: xs => if q.node ≤ x.node then q :: x :: xs else x :: insNode q xs

/-- Parts in ascending order of owner node (R310). -/
def byNode : List MssPart → List MssPart
  | [] => []
  | q :: r => insNode q (byNode r)

/-- The parts of a bag that were served (R310). -/
def servedParts (ps : List MssPart) : List MssPart := (byNode ps).filter (fun q => q.st == some 0 || q.st == some 1)

/-- FP32 codes of a vector's bytes. -/
def vecCodes (m : MBytes) (dim : Nat) : List Nat :=
  (List.range dim).map (fun j => leNat ((m.bytes.drop (4 * j)).take 4))

/-- combine of R310: the vector of a bag. -/
def combine (ps : List MssPart) (mode dim : Nat) : List Nat :=
  let sv := servedParts ps
  let n := (sv.map (fun q => q.rows.length)).sum
  match sv with
  | [] => List.replicate dim 0
  | q :: rest =>
    let acc := rest.foldl (fun acc q => (acc.zip (vecCodes q.data dim)).map (fun x =>
      if mode = 3 then f32MinMax true x.1 x.2 else f32Add x.1 x.2)) (vecCodes q.data dim)
    if n = 0 then List.replicate dim 0
    else if mode = 1 then acc.map (fun v => f32Mul v (toF32 (.fin false 1 n))) else acc

/-- CAUSE of a part that was not served (R313). -/
def causeOf (st : Nat) : Nat :=
  if st = 4 then 1 else if st = 7 then 2 else if st = 5 then 3 else if st = 6 then 4 else if st = 2 then 5
  else if st = 3 then 6 else 0

/-- STATUS of a bag (R314): the highest value that applies. -/
def bagStatus (ps : List MssPart) : Nat :=
  let st := ps.filterMap (·.st)
  let good := st.any (fun s => s == 0 || s == 1)
  let bad := st.any (fun s => s != 0 && s != 1)
  if st.any (· == 3) then 5 else if st.any (· == 2) then 4 else if st.any (· == 1) then 3
  else if bad then (if good then 1 else 2) else 0

/-- Word 3 of a bag item (R313). -/
def bagWord (ps : List MssPart) : Nat :=
  let failed := (byNode ps).filter (fun q => !(q.st == some 0 || q.st == some 1))
  let cause := match failed with
    | [] => 0
    | q :: _ => causeOf (q.st.getD 0)
  bagStatus ps + cause * 2 ^ 8 + min ps.length 255 * 2 ^ 16 + min failed.length 255 * 2 ^ 24
    + ((servedParts ps).map (fun q => q.rows.length)).sum % 2 ^ 16 * 2 ^ 32

/-! ### The issue unit -/

/-- Update a tile's issue unit. -/
def Block.onMss (b : Block) (p : Nat) (f : MssUnit → MssUnit) : Block := b.onSite p (fun s => { s with mss := f s.mss })

/-- Update the Moss engines' own state. -/
def Block.onMoss (b : Block) (f : Moss → Moss) : Block := { b with moss := f b.moss }

/-- A Moss instruction whose block has been read to its end and whose bags and groups have all completed is done
(R315, R355). -/
def Block.mssTryDone (b : Block) (p id : Nat) : Block :=
  let u := (b.site p).mss
  match (b.site p).flight.find? (fun i => i.id == id) with
  | none => b
  | some i =>
    if SMap.get 0 u.read id ≥ dSize i.da 0 ∧ !u.bags.any (fun g => g.ins == id) ∧ !u.groups.any (fun g => g.ins == id)
    then b.markDone p id else b

/-- Write a vector as FP32 elements (R313). -/
def Block.putVec (b : Block) (p : Nat) (i : EngIns) (i0 i1 : Nat) (vs : List Nat) (pois : Bool) : Block :=
  (b.noteWrites p i.tWrites).putRun p i.db i0 i1 (vs.map (fun v => (v, pois)))

/-- Write the records of one served raw part (R323): each row at its entry's place. -/
def Block.putRaw (b : Block) (p : Nat) (i : EngIns) (g : MssBag) (q : MssPart) : Block :=
  let sz := 32 * eStride g.ent
  (q.rows.zip (List.range q.rows.length)).foldl (fun b x =>
    b.putRun p i.db g.i0 (g.i1 + x.1) (((q.data.drop (x.2 * sz)).take sz).map (fun y => (y.1.toNat, y.2))))
    (b.noteWrites p i.tWrites)

/-- BAG_COMPLETE (R313, R314, R316). -/
def Block.bagDone (b : Block) (p : Nat) (g : MssBag) : Block :=
  let b := b.onMss p (fun u => { u with bags := u.bags.filter (fun x => x.item != g.item || x.ins != g.ins) })
  match (b.site p).flight.find? (fun i => i.id == g.ins) with
  | none => b
  | some i =>
    let failed := (g.parts.filter (fun q => !(q.st == some 0 || q.st == some 1))).length
    let b := (b.inc TL_MSS_CNT.BAGS_DONE 1 p).inc TL_MSS_CNT.PARTS_FAILED failed p
    let st := bagStatus g.parts
    if st = 5 then b.raise p xTag 5 i.pc 0
    else if st = 4 then b.raise p xTable 5 i.pc 0
    else
      let b := if g.raw then (servedParts g.parts).foldl (fun b q => b.putRaw p i g q) b
        else b.putVec p i g.i0 g.i1 (combine g.parts g.mode (eDim g.ent)) (st == 3)
      (b.lsStore p (g.item + 24) (plain (leBytes 8 (bagWord g.parts)))).mssTryDone p g.ins

/-- A part completes (R315): a return for no open part is discarded and counted (R317). -/
def Block.partDone (b : Block) (p tag st : Nat) (data : MBytes) : Block :=
  match (b.site p).mss.bags.find? (fun g => g.parts.any (fun q => q.tag == tag && q.st.isNone)) with
  | none => if st = 7 then b else b.inc TL_MSS_LATE.LATE_RETURNS 1 p
  | some g =>
    let g' := { g with parts := g.parts.map (fun q => if q.tag == tag then { q with st := some st, data := data } else q) }
    let b := b.onMss p (fun u => { u with bags := u.bags.map (fun x => if x == g then g' else x) })
    let b := if st = 7 then b.inc TL_MSS_LATE.TIMEOUTS 1 p else b
    if g'.parts.all (fun q => q.st.isSome) then b.bagDone p g' else b

/-- Words as bytes, and the header of a message to another module (R319, R353). -/
def Block.bagHeader (b : Block) (p : Nat) (k : MssPack) : List Byte :=
  let slot := ((b.site p).mss.slot.find? (fun x => x.1 == k.ins)).elim 0 (·.2)
  leBytes 8 k.tick
  ++ leBytes 8 (b.rd XL_NODE.SELF + b.ctxOf p * 2 ^ 10 + k.n * 2 ^ 32 + (if k.kind = 1 then 2 ^ 40 else 0))
  ++ leBytes 8 (b.tileOf p + slot * 2 ^ 9) ++ leBytes 8 0

/-- Send the message packed for a node (R318, R353). With no path to the node nothing leaves, and the parts wait for
their timeout. -/
def Block.flushPack (b : Block) (p : Nat) (k : MssPack) : Block :=
  let b := b.onMss p (fun u => { u with
    packs := u.packs.filter (fun x => x != k)
    bags := u.bags.map (fun g => { g with parts := g.parts.map (fun q =>
      if k.tags.any (· == q.tag) && k.kind != 2 then { q with sent := true } else q) }) })
  if b.hasPath k.node (b.clsOf p) (b.tileOf p) then
    (b.dmSend k.node (b.clsOf p) (b.tileOf p) (if k.kind = 2 then 0x22 else 0x20) 0 (b.ctxOf p) 0 []
      (plain (b.bagHeader p k) ++ k.body) none none).2
  else b

/-- An instruction raises an exception at an item of its block: what it sent before stays sent (R306, R351), so its packed
messages leave first. -/
def Block.mssFail (b : Block) (p ins pc code va : Nat) : Block :=
  (b.each ((b.site p).mss.packs.filter (fun k => k.ins == ins)) (fun b k => b.flushPack p k)).raise p code 5 pc va

/-- Add an item to the message packed for a node (R318, R353). -/
def Block.packItem (b : Block) (p ins node kind tag : Nat) (item : MBytes) : Block :=
  let tick := b.now
  let b : Block := match (b.site p).mss.packs.find? (fun k => k.ins == ins && k.node == node) with
    | some k => if k.tick ≠ tick ∨ 32 + k.body.length + item.length > 8256 ∨ k.n ≥ 255 then b.flushPack p k else b
    | none => b
  b.onMss p (fun u =>
    if u.packs.any (fun k => k.ins == ins && k.node == node) then
      { u with packs := u.packs.map (fun k => if k.ins == ins && k.node == node
          then { k with n := k.n + 1, body := k.body ++ item, tags := k.tags ++ [tag] } else k) }
    else { u with packs := u.packs ++ [⟨ins, node, tick, kind, 1, item, [tag]⟩] })

/-- A part item with its row entries (R319). -/
def partBytes (table mode tag : Nat) (rows : List (Nat × Nat)) : List Byte :=
  leBytes 8 (table + mode * 2 ^ 16 + rows.length * 2 ^ 32) ++ leBytes 8 (tag % 2 ^ 32) ++ leBytes 16 0
  ++ rows.flatMap (fun r => leBytes 8 (r.1 + r.2 * 2 ^ 48))
  ++ leBytes (8 * ((4 - rows.length % 4) % 4)) 0

/-- Groups of a list's places by a key, in order of first appearance. -/
def groupBy (xs : List (Nat × Nat)) : List (Nat × List Nat) :=
  xs.foldl (fun acc x =>
    if acc.any (fun g => g.1 == x.1) then acc.map (fun g => if g.1 == x.1 then (g.1, g.2 ++ [x.2]) else g)
    else acc ++ [(x.1, [x.2])]) []

/-- Cut a list into runs of at most `k`. -/
def cutRuns (k : Nat) (xs : List Nat) : List (List Nat) :=
  (List.range ((xs.length + k - 1) / max 1 k)).map (fun j => (xs.drop (j * k)).take k)

/-- The owner of a bucket by the owner map (R300): 1024 where the entry is invalid. -/
def Block.ownerOfRow (b : Block) (row : Nat) : Nat :=
  if b.on GRP_OMAP.VALID 0 (row % 4096) then b.rd GRP_OMAP.NODE 0 (row % 4096) else 1024

/-! ### Owners (R301, R320, R323) -/

/-- The owner's checks of R320, steps 2 and 3: 0 good, 6 NO_TABLE, 5 NOT_OWNER; its own directory entry. -/
def Block.ownerCheck (b : Block) (table cls : Nat) (rows : List Nat) : Nat × List Nat × Block :=
  let (e, good, b) := b.dirRead table
  let e := if good then e else []
  let m := min (eHome e) 11
  if !b.entGood e || eClass e != cls || rows.any (fun r => decide (eRows e ≤ r)) then
    (6, e, b.inc MS_NUM_CNT.NO_TABLE 1 m)
  else if rows.any (fun r => !b.on MS_BSLOT.OWNED 0 (r % 4096)) then (5, e, b.inc MS_ERR_CNT.NOT_OWNER 1 m)
  else (0, e, b)

/-- The records of a raw part read from the peat tier (R323): its PSTATUS and data. -/
def Block.ownerRaw (b : Block) (ctx tick table : Nat) (rows : List Nat) : Nat × MBytes × Block :=
  match b.ownerCheck table 2 rows with
  | (0, e, b) =>
    rows.foldl (fun (acc : Nat × MBytes × Block) r =>
      let (st, data, b) := acc
      let (x, b) := b.mread ctx (b.recAddr e tick 0 r) (32 * eStride e)
      if x.tagFail then (3, [], b) else if st = 3 then (3, [], b) else (max st x.pois.toNat, data ++ x.data, b)) (0, [], b)
  | (st, _, b) => (st, [], b)

/-- Show an engine's queues and tables in MS_STATUS and MS_SQ (R332). -/
def Block.showMs (b : Block) (m : Nat) : Block :=
  let act := b.moss.active.filter (fun q => q.eng == m)
  let depth := b.rd MS_CTRL.QDEPTH m
  let open_ := act.flatMap (fun q => (q.rows.zip q.reads).filterMap (fun x =>
    if x.2.done then none else some ((b.locOf (b.recAddr q.ent q.tick m x.1.1)).2.1 / 2 % 16)))
  let occ := (List.range 16).map (fun k => min depth (open_.filter (· == k)).length)
  let b := (b.wr MS_STATUS.PARTS act.length m).wr MS_STATUS.ROWS (act.map (fun q => q.rows.length)).sum m
  let b := b.wr MS_STATUS.QFULL ((List.range 16).map (fun k => if occ.getD k 0 = depth then 2 ^ k else 0)).sum m
  (List.range 16).foldl (fun b k => b.wr MS_SQ.OCC (occ.getD k 0) m k) b

/-- A part goes to its engine (R296). -/
def Block.toEngine (b : Block) (q : MPart) : Block := b.onMoss (fun k => { k with waiting := k.waiting ++ [q] })

/-- A return item leaves for a tile of this module. -/
def Block.toTile (b : Block) (r : MRet) : Block := b.onMoss (fun k => { k with rets := k.rets ++ [r] })

/-- Bytes of a vector. -/
def vecBytes (vs : List Nat) (pois : Bool) : MBytes := (vs.flatMap (leBytes 4)).map (fun x => (x, pois))

/-- A pooled vector's events (R312). -/
def Block.poolCount (b : Block) (m : Nat) (v : List Nat) (ovf : Bool) : Block :=
  let b := if ovf then b.inc MS_NUM_CNT.OVERFLOWS 1 m else b
  if v.any f32Nan then b.inc MS_NUM_CNT.NAN_RESULTS 1 m else b

/-- Pool an RCLK part at the issue unit through the region's cache (R326, R343). Its rows, re-reads and events count in the
engine of the stack whose copy is read: no rule names the instance (DESIGN CHOICE, assumption log 56). -/
def Block.poolHere (b : Block) (p : Nat) (e : List Nat) (mode tick : Nat) (rows : List (Nat × Nat)) : Nat × MBytes × Block :=
  let stack := ((List.range 12).find? (fun k => bit (eMask e) k)).getD 0
  let n := eStride e
  let (fs, b) := rows.foldl (fun (acc : List RecRead × Block) r =>
    let (x, b) := readTries (fun b again =>
      let b := b.inc MS_ROW_CNT.ROWS 1 stack
      let b := if again then b.inc MS_UPD_ERR.REREADS 1 stack else b
      let (y, b) := b.tread (regionOfSite p) (b.ctxOf p) (b.recAddr e tick stack r.1) (32 * n) false
      (recJudge n y, b)) 3 acc.2 false
    (acc.1 ++ [x], b)) ([], b)
  let st := if fs.any (fun x => x.find == 3) then 3 else if fs.any (fun x => x.find == 2) then 2
    else if fs.any (fun x => x.find == 1) then 1 else 0
  let good := (fs.zip rows).filter (fun x => x.1.find == 0)
  let b := b.inc MS_ERR_CNT.POISON_ROWS (fs.filter (fun x => x.find == 1)).length stack
  let b := if st = 2 then b.inc MS_ERR_CNT.CONSIST 1 stack else b
  let (v, ovf) := poolPart mode (eDim e) (good.map (fun x => (recVals e x.1.bytes, x.2.2)))
  let b := if st ≤ 1 then b.poolCount stack v ovf else b
  (st, if st ≤ 1 then vecBytes v (st == 1) else [], b)

/-- The parts of a bag (R307): owner node and places of its rows. Rows without a valid owner form one part, of node 1024. -/
def Block.partsOf (b : Block) (raw : Bool) (e : List Nat) (rows : List (Nat × Nat)) : List (Nat × List Nat) :=
  let groups : List (Nat × List Nat) :=
    if rows.isEmpty then []
    else if eClass e = 0 then [(b.rd XL_NODE.SELF, List.range rows.length)]
    else groupBy ((rows.zip (List.range rows.length)).map (fun x => (b.ownerOfRow x.1.1, x.2)))
  if raw then groups.flatMap (fun g => if g.1 = 1024 then [g] else (cutRuns (256 / eStride e) g.2).map (fun r => (g.1, r)))
  else groups

/-- Split a checked bag into parts (R307) and send them. -/
def Block.splitBag (b : Block) (p : Nat) (i : EngIns) (item table mode i0 i1 : Nat) (e : List Nat)
    (rows : List (Nat × Nat)) : Block :=
  let raw := i.op == .mssRaw
  let me := b.rd XL_NODE.SELF
  let tick := b.now
  let groups := b.partsOf raw e rows
  let t0 := b.moss.nextTag
  let parts : List MssPart := (groups.zip (List.range groups.length)).map (fun x =>
    { tag := (t0 + x.2) % 2 ^ 32, node := x.1.1, rows := x.1.2, remote := x.1.1 != me && x.1.1 != 1024, sent := false,
      st := none, data := [] })
  let g : MssBag := { ins := i.id, item := item, ent := e, raw := raw, mode := mode, i0 := i0, i1 := i1, parts := parts }
  let b := b.onMoss (fun k => { k with nextTag := (t0 + parts.length) % 2 ^ 32 })
  let b := b.onMss p (fun u => { u with bags := u.bags ++ [g] })
  if parts.isEmpty then b.bagDone p g
  else parts.foldl (fun b q =>
    let rs := q.rows.map (fun k => rows.getD k (0, 0))
    if q.node = 1024 then b.partDone p q.tag 5 []
    else if q.remote then b.packItem p i.id q.node (if raw then 1 else 0) q.tag (plain (partBytes table mode q.tag rs))
    else if raw then
      let (st, data, b) := b.ownerRaw (b.ctxOf p) tick table (rs.map (·.1))
      b.toTile ⟨b.tileOf p, q.tag, st, rs.length, data⟩
    else if eClass e = 0 && eRclk e then
      let (st, data, b) := b.poolHere p e mode tick rs
      b.partDone p q.tag st data
    else
      b.toEngine { eng := if eClass e = 0 then stackFor (b.tileOf p) (eMask e) else eHome e, l := b.tileOf p, tag := q.tag,
                   from_ := none, owner := eClass e == 1, tick := tick, ctx := b.ctxOf p, table := table, mode := mode,
                   ent := e, rows := rs, reads := [] }) b

/-! ### Reading the request block (R303 to R308) -/

/-- Does DB suit a bag or a raw fetch (R306)? -/
def dbOk (raw : Bool) (d : Nat) : Bool :=
  descPlain d && dSpace d != 1 && !dKind d && !dMx d
  && (if raw then dFmt d == 8 && dNdim d == 2 else dFmt d == 0 && (dNdim d == 1 || dNdim d == 2))

/-- Do the fields of a bag group pass R306, given its directory entry? -/
def bagOk (raw : Bool) (db : Nat) (e : List Nat) (w0 w1 w2 : Nat) (rows : List Nat) : Bool :=
  let mode := bits w0 16 2
  let count := bits w0 32 11
  let i0 := bits w1 0 16
  let i1 := bits w1 16 16
  let n1 := dDim db 1
  (if raw then eClass e == 2 else eClass e != 2)
  && bits w0 18 14 == 0 && bits w0 43 21 == 0 && bits w1 32 32 == 0 && w2 == 0 && (!raw || mode == 0)
  && (rows.take count).all (fun r => bits r 0 40 < eRows e && bits r 40 8 == 0 && (mode == 2 || bits r 48 16 == 0))
  && (rows.drop count).all (· == 0)
  && dbOk raw db
  && (if raw then i0 + 32 * eStride e ≤ dSize db 0 && i1 + count ≤ n1 else i0 + eDim e ≤ dSize db 0 && i1 < n1)

/-- 64-bit words of bytes. -/
def wordsOf (bs : List Byte) : List Nat := (List.range (bs.length / 8)).map (fun k => leNat ((bs.drop (8 * k)).take 8))

/-- Advance an instruction's reading. -/
def Block.readTo (b : Block) (p id off : Nat) : Block := b.onMss p (fun u => { u with read := SMap.set 0 u.read id off })

/-- The directory entry the issue unit holds for a table, none where it must be read (R308). -/
def Block.held64 (b : Block) (p table : Nat) : Option (List Nat) :=
  ((b.site p).mss.cache.find? (fun x => x.1 == table)).map (·.2)

/-- Ask for a directory entry. -/
def Block.askEntry (b : Block) (p table : Nat) : Block := b.onMss p (fun u => { u with miss := some table })

/-- The address of the first poisoned word of bytes read at an offset (R198). -/
def poisAt (at_ : Nat) (ms : MBytes) : Nat := at_ + (ms.findIdx (·.2)) / 16 * 16

/-- The issue unit reaches the next bag group of an instruction. True: it may go on. -/
def Block.bagGroup (b : Block) (p : Nat) (i : EngIns) (off : Nat) : Bool × Block :=
  let fin := dSize i.da 0
  let at_ := dBase i.da + off
  let (h, b) := b.lsBytes p at_ 32
  let w := wordsOf h.bytes
  let w0 := w.getD 0 0
  let count := bits w0 32 11
  let size := 32 + 32 * ((count + 3) / 4)
  if h.pois then (false, b.mssFail p i.id i.pc xPoison at_)
  else if count > 1024 ∨ off + size > fin then (false, b.mssFail p i.id i.pc xDesc 0)
  else
    let (x, b) := b.lsBytes p (at_ + 32) (size - 32)
    if x.pois then (false, b.mssFail p i.id i.pc xPoison (poisAt (at_ + 32) x))
    else
      let table := bits w0 0 16
      match b.held64 p table with
      | none => (false, b.askEntry p table)
      | some e =>
        let rows := wordsOf x.bytes
        let u := (b.site p).mss
        let list := (rows.take count).map (fun r => (bits r 0 40, bits r 48 16))
        if !b.entGood e || !bagOk (i.op == .mssRaw) i.db e w0 (w.getD 1 0) (w.getD 2 0) rows then
          (false, b.mssFail p i.id i.pc xDesc 0)
        else if u.bags.length ≥ 4096 ∨ u.openParts + (b.partsOf (i.op == .mssRaw) e list).length > 8192 then (false, b)
        else
          let b := b.readTo p i.id (off + size)
          (true, b.splitBag p i at_ table (bits w0 16 2) (bits (w.getD 1 0) 0 16) (bits (w.getD 1 0) 16 16) e list)

/-! ### Update contributions (R350 to R357) -/

/-- Entries of a merge buffer a row needs (R356). -/
def mergeSize (dim : Nat) : Nat := (dim + 31) / 32

/-- Show MS_UPD_STATUS. -/
def Block.showMerge (b : Block) (m : Nat) : Block :=
  let mine := b.moss.merge.filter (fun x => x.eng == m)
  let sz := fun (l : List MEntry) => (l.map (fun x => mergeSize (eDim x.ent))).sum
  (b.wr MS_UPD_STATUS.ENTRIES (sz mine) m).wr MS_UPD_STATUS.DEFERRED (sz (mine.filter (fun x => x.deferred))) m

/-- Count a refusal (R362). -/
def Block.rejCount (b : Block) (m st : Nat) : Block :=
  if st = 2 then b.inc MS_UPD_REJ.LATE 1 m else if st = 8 then b.inc MS_UPD_REJ.FULL 1 m
  else if st = 5 then b.inc MS_UPD_REJ.STALE 1 m else b.inc MS_UPD_REJ.OTHER 1 m

/-- Enter a contribution in the merge buffer. -/
def Block.mergeIn (b : Block) (m table row win : Nat) (e : List Nat) (c : Contrib) : Block :=
  let same := fun (x : MEntry) => x.eng == m && x.table == table && x.row == row && x.window == win
  b.onMoss (fun k => if k.merge.any same
    then { k with merge := k.merge.map (fun x => if same x then { x with contribs := x.contribs ++ [c] } else x) }
    else { k with merge := k.merge ++ [⟨m, table, row, win, e, [c], false⟩] })

/-- The owner's USTATUS for a contribution of window `u` (R354), and what it holds from then on. A contribution of the
window before is late once the apply pass of this tick has begun. -/
def Block.contribute (b : Block) (node l ctx u : Nat) (c : ContribItem) : Nat × Block :=
  let t := b.now
  let (e, good, b) := b.dirRead c.table
  let e := if good then e else []
  let m := min (eHome e) 11
  let same := fun (x : MEntry) => x.eng == m && x.table == c.table && x.row == c.row && x.window == u
  let st :=
    if u + 1 < t ∨ u > t + 1 then 1
    else if u + 1 = t ∧ SMap.get 0 b.moss.passAt m = t + 1 then 2
    else if !b.on MS_UPD_CTRL.ACCEPT then 9
    else if !b.entGood e || eClass e != 1 || !eUpd e || decide (eRows e ≤ c.row) then 3
    else if !b.on MS_BSLOT.OWNED 0 (c.row % 4096) then 4
    else if c.tver ≠ eTver e u then 5
    else if !b.tagOk ctx (b.recAddr e u 0 c.row) then 6
    else if b.moss.merge.any (fun x => same x && x.contribs.any (fun y => y.node == node && y.l == l && y.seq == c.seq)) then 7
    else if !b.moss.merge.any same && b.rd MS_UPD_STATUS.ENTRIES m + mergeSize (eDim e) > 65536 then 8
    else 0
  let b := if st = 6 then b.tagFail ctx (b.recAddr e u 0 c.row) else b
  let b := b.wr MS_UPD_STATUS.FULL (if st = 8 then 1 else 0) m
  if st = 0 then
    (0, (((b.mergeIn m c.table c.row u e ⟨node, l, c.seq, c.vals, c.pois⟩).inc MS_UPD_CNT.ACCEPTED 1 m)).showMerge m)
  else (st, b.rejCount m st)

/-- Word 3 of an update item (R355). -/
def groupWord (cs : List (Nat × Option Nat)) : Nat :=
  let acc := (cs.filter (fun c => c.2 == some 0)).length
  let rej := cs.length - acc
  let cause := ((cs.find? (fun c => c.2 != some 0)).bind (·.2)).getD 0
  (if rej = 0 then 0 else if acc = 0 then 2 else 1) + cause * 2 ^ 8 + acc % 2 ^ 11 * 2 ^ 16 + rej % 2 ^ 11 * 2 ^ 32

/-- A group all of whose contributions have their USTATUS writes its word 3 (R355) and enters it in the effect log
(R550). With a contribution whose tag check failed it raises CONTEXT_TAG then (R202, R420; DEDUCED as R316 states it for
bags, assumption log 56). -/
def Block.groupTry (b : Block) (p : Nat) (g : MssGroup) : Block :=
  if g.contribs.all (fun c => c.2.isSome) then
    let w := groupWord g.contribs
    let b := b.onSite p (fun s =>
      let at_ := SMap.get 0 s.mss.logAt g.ins
      { s with mss := { s.mss with groups := s.mss.groups.filter (fun x => x != g) }
               log := if at_ = 0 then s.log else
                 (s.log.zip (List.range s.log.length)).map (fun x =>
                   if x.2 + 1 = at_ then { x.1 with vals := x.1.vals ++ [g.item, w] } else x.1) })
    let b := b.lsStore p (g.item + 24) (plain (leBytes 8 w))
    if g.contribs.any (fun c => c.2 == some 6) then
      b.mssFail p g.ins (((b.site p).flight.find? (fun i => i.id == g.ins)).elim (b.pcOf p) (·.pc)) xTag 0
    else b.mssTryDone p g.ins
  else b

/-- A contribution gets its USTATUS (R355). -/
def Block.contribDone (b : Block) (p seq st : Nat) : Block :=
  match (b.site p).mss.groups.find? (fun g => g.contribs.any (fun c => c.1 == seq && c.2.isNone)) with
  | none => b
  | some g =>
    let g' := { g with contribs := g.contribs.map (fun c => if c.1 == seq && c.2.isNone then (seq, some st) else c) }
    (b.onMss p (fun u => { u with groups := u.groups.map (fun x => if x == g then g' else x) })).groupTry p g'

/-- The bytes of a contribution (R353). -/
def contribBytes (table tver row seq : Nat) (data : MBytes) : MBytes :=
  plain (leBytes 8 (table + tver * 2 ^ 16) ++ leBytes 8 row ++ leBytes 8 seq ++ leBytes 8 0) ++ data

/-- Form and send the contributions of one update group (R352, R353). -/
def Block.sendGroup (b : Block) (p : Nat) (i : EngIns) (item table : Nat) (e : List Nat) (rows : List (Nat × MBytes)) : Block :=
  match (b.site p).run with
  | none => b
  | some r =>
    let me := b.rd XL_NODE.SELF
    let u := b.now
    let s0 := (b.site p).mss.seq
    let seqOf := fun k => (if r.spilled then 2 ^ 31 else 0) + r.d.index % 32 * 2 ^ 26 + (s0 + k) % 2 ^ 26
    let fits := fun k => decide (s0 + k < 2 ^ 26)
    let idx := List.range rows.length
    let g : MssGroup := { ins := i.id, item := item,
                          contribs := idx.map (fun k => if fits k then (seqOf k, none) else (2 ^ 32 + k, some 8)) }
    let b := b.onMss p (fun x => { x with groups := x.groups ++ [g], seq := min (s0 + rows.length) (2 ^ 26) })
    let b := b.groupTry p g
    (rows.zip idx).foldl (fun b x =>
      if !fits x.2 then b else
      let (row, data) := x.1
      let owner := b.ownerOfRow row
      if owner = 1024 then b.contribDone p (seqOf x.2) 4
      else if owner = me then
        let (st, b) := b.contribute me (b.tileOf p) (b.ctxOf p) u
          ⟨table, eTver e u, row, seqOf x.2, vecCodes data (eDim e), data.pois⟩
        b.contribDone p (seqOf x.2) st
      else b.packItem p i.id owner 2 (seqOf x.2) (contribBytes table (eTver e u) row (seqOf x.2) data)) b

/-- Read the row groups of an update group: the rows with their data, and whether a row item was poisoned or had a
nonzero reserved field. -/
def Block.rowGroups (b : Block) (p at_ step : Nat) : Nat → List (Nat × MBytes) × Option Nat × Bool × Block
  | 0 => ([], none, true, b)
  | n + 1 =>
    let (h, b) := b.lsBytes p at_ 32
    let (d, b) := b.lsBytes p (at_ + 32) (step - 32)
    let w := wordsOf h.bytes
    let ok := w.getD 0 0 < 2 ^ 40 && w.getD 1 0 == 0 && w.getD 2 0 == 0 && w.getD 3 0 == 0
    if h.pois then ([], some at_, true, b)
    else
      let (r, bad, ok', b) := b.rowGroups p (at_ + step) step n
      ((w.getD 0 0 % 2 ^ 40, d) :: r, bad, ok && ok', b)

/-- The issue unit reaches the next update group (R350, R351). -/
def Block.updGroup (b : Block) (p : Nat) (i : EngIns) (off : Nat) : Bool × Block :=
  let fin := dSize i.da 0
  let at_ := dBase i.da + off
  let (h, b) := b.lsBytes p at_ 32
  let w := wordsOf h.bytes
  let w0 := w.getD 0 0
  let count := bits w0 32 11
  let table := bits w0 0 16
  if h.pois then (false, b.mssFail p i.id i.pc xPoison at_)
  else
    match b.held64 p table with
    | none => (false, b.askEntry p table)
    | some e =>
      let step := 32 + 32 * ((eDim e + 7) / 8)
      if !b.entGood e || eClass e != 1 || !eUpd e || count == 0 || count > 1024 || bits w0 16 16 != 0 || bits w0 43 21 != 0
          || w.getD 1 0 != 0 || w.getD 2 0 != 0 || decide (off + 32 + count * step > fin) then (false, b.mssFail p i.id i.pc xDesc 0)
      else
        let (rows, bad, ok, b) := b.rowGroups p (at_ + 32) step count
        match bad with
        | some a => (false, b.mssFail p i.id i.pc xPoison a)
        | none =>
          if !ok || rows.any (fun r => decide (eRows e ≤ r.1)) then (false, b.mssFail p i.id i.pc xDesc 0)
          else
            let b := b.readTo p i.id (off + 32 + count * step)
            (true, b.sendGroup p i at_ table e rows)

/-! ### The issue process -/

/-- The instruction whose block is being read: the oldest in flight that is not read to its end. -/
def Block.mssReading (b : Block) (p : Nat) : Option EngIns :=
  let s := b.site p
  s.flight.find? (fun i => i.eng == 5 && !i.done && SMap.get 0 s.mss.read i.id < dSize i.da 0)

/-- A block read to its end: its last messages leave (R318), and it may be done. -/
def Block.blockEnd (b : Block) (p : Nat) (i : EngIns) : Block :=
  if SMap.get 0 (b.site p).mss.read i.id ≥ dSize i.da 0 then
    (((b.site p).mss.packs.filter (fun k => k.ins == i.id)).foldl (fun b k => b.flushPack p k) b).mssTryDone p i.id
  else b

/-- Issue until nothing is left, a directory entry is awaited, or no room is left (R308). -/
def Block.mssPumpN : Nat → Block → Nat → Block
  | 0, b, _ => b
  | n + 1, b, p =>
    if (b.site p).mss.miss.isSome then b else
    match b.mssReading p with
    | none => b
    | some i =>
      let off := SMap.get 0 (b.site p).mss.read i.id
      let (go, b) := if i.op = .mssUpd then b.updGroup p i off else b.bagGroup p i off
      if go then Block.mssPumpN n (b.blockEnd p i) p else b

/-- Issue as far as possible. -/
def Block.mssPump (b : Block) (p : Nat) : Block :=
  Block.mssPumpN (((b.site p).flight.filter (fun i => i.eng == 5)).map (fun i => dSize i.da 0 / 32 + 1)).sum b p

/-- DA of a Moss instruction (R198). -/
def mssDaOk (d : Nat) : Bool :=
  descPlain d && dSpace d == 0 && dFmt d == 8 && dNdim d == 1 && !dKind d && !dMx d && dSize d 0 % 32 == 0 && dBase d % 32 == 0

/-- A Moss instruction takes an INSTR number that no instruction in flight has (R318); what the unit kept of instructions that
have completed goes. -/
def Block.mssSlot (b : Block) (p : Nat) (i : EngIns) : Block :=
  let live := (b.site p).flight.map (·.id)
  b.onMss p (fun u =>
    let slots := u.slot.filter (fun x => live.any (· == x.1))
    let free := ((List.range 8).find? (fun k => !slots.any (fun x => x.2 == k))).getD 0
    { u with slot := slots ++ [(i.id, free)], read := u.read.filter (fun x => live.any (· == x.1)),
             logAt := u.logAt.filter (fun x => live.any (· == x.1)) })

/-- Start a Moss instruction: its slot, its context (R406), and the reading of its block. -/
def Block.runMss (b : Block) (p : Nat) (i : EngIns) : Block :=
  let ctx := b.ctxOf p
  match b.ctxEntry ctx with
  | (none, b) => (b.xlFail cNoContext ctx 0).raise p xTranslation 5 i.pc 0
  | (some _, b) => (b.mssSlot p i).mssPump p

/-- `mss.bag` (R199, R200). -/
def Block.runMssBag (b : Block) (p : Nat) (i : EngIns) : Block := b.runMss p i
/-- `mss.raw` (R201, R323). -/
def Block.runMssRaw (b : Block) (p : Nat) (i : EngIns) : Block := b.runMss p i
/-- `mss.upd` (R202): an effect of the step (R550); in a replay it performs nothing and completes at once. -/
def Block.runMssUpd (b : Block) (p : Nat) (i : EngIns) : Block :=
  match b.replayed p with
  | some (e, b) =>
    let b := (List.range (e.vals.length / 2)).foldl (fun b k =>
      b.lsStore p (e.vals.getD (2 * k) 0 + 24) (plain (leBytes 8 (e.vals.getD (2 * k + 1) 0)))) b
    (b.readTo p i.id (dSize i.da 0)).markDone p i.id
  | none =>
    let b := b.logEffect p 3 []
    let n := (b.site p).log.length
    let b := if (b.site p).replay.isSome || (b.site p).noReplay then b
      else b.onMss p (fun u => { u with logAt := SMap.set 0 u.logAt i.id n })
    b.runMss p i

/-- TABLE_ENTRY_READ_RETURN (R308, R297): the awaited entry arrives; one read poisoned or absent is invalid and is not
kept. -/
def Block.doTableEntryReadReturn (b : Block) (l : LTile) : Block :=
  let p := b.siteOf l
  match (b.site p).mss.miss with
  | none => b
  | some t =>
    let (e, good, b) := b.dirRead t
    let b := b.onMss p (fun u => { u with miss := none })
    if good then
      let (c, b) := b.room 64 ((b.site p).mss.cache.filter (fun x => x.1 != t))
      (b.onMss p (fun u => { u with cache := c ++ [(t, e)] })).mssPump p
    else
      match b.mssReading p with
      | none => b
      | some i => b.mssFail p i.id i.pc xDesc 0

/-! ### The engines (R292 to R296, R309, R342) -/

/-- A return item leaves the engine (R321). -/
def Block.sendReturn (b : Block) (q : MPart) (st : Nat) (data : MBytes) : Block :=
  let rows := if st ≤ 3 then q.rows.length else 0
  match q.from_ with
  | none => b.toTile ⟨q.l, q.tag, st, rows, data⟩
  | some (node, cls, hdr) =>
    if b.hasPath node cls 521 then
      let pad : MBytes := plain (leBytes ((32 - data.length % 32) % 32) 0)
      let h := leBytes 8 (hdr.getD 0 0)
        ++ leBytes 8 (b.rd XL_NODE.SELF + q.ctx * 2 ^ 10 + 2 ^ 32 + hdr.getD 3 0 * 2 ^ 40)
        ++ leBytes 8 (hdr.getD 1 0 + hdr.getD 2 0 * 2 ^ 9) ++ leBytes 8 0
      let it := leBytes 8 (q.tag + st * 2 ^ 32 + rows * 2 ^ 40) ++ leBytes 8 ((data.length + 31) / 32) ++ leBytes 16 0
      (b.dmSend node cls 521 0x21 0 q.ctx 0 [] (plain (h ++ it) ++ data ++ pad) none none).2
    else b

/-- The checks of a part of a replicated table whose entry was read before a directory invalidation (R332): 6 NO_TABLE. -/
def Block.replCheck (b : Block) (m table : Nat) (rows : List Nat) : Nat × List Nat × Block :=
  let (e, good, b) := b.dirRead table
  if !good || !b.entGood e || eClass e != 0 || rows.any (fun r => decide (eRows e ≤ r)) then
    (6, e, b.inc MS_NUM_CNT.NO_TABLE 1 m)
  else (0, e, b)

/-- PART_ACCEPT (R296): the part waiting longest at the engine is accepted once its part table and row buffer have room;
a local part of a sharded table meets the owner's checks, and one that waits across a directory invalidation uses an entry
read after it (R332). -/
def Block.doPartAccept (b : Block) (m : Fin 12) : Block :=
  match b.moss.waiting.find? (fun q => q.eng == m.val) with
  | none => b
  | some q =>
    let act := b.moss.active.filter (fun x => x.eng == m.val)
    if act.length ≥ 4096 ∨ (act.map (fun x => x.rows.length)).sum + q.rows.length > 16384 then b
    else
      let b := b.onMoss (fun k => { k with waiting := k.waiting.erase q })
      let (st, e, b) : Nat × List Nat × Block := if !q.owner then (0, q.ent, b)
        else if eClass q.ent = 0 then b.replCheck m.val q.table (q.rows.map (·.1)) else b.ownerCheck q.table 1 (q.rows.map (·.1))
      if st ≠ 0 then b.sendReturn q st []
      else
        let b := if q.from_.isNone then b.inc MS_PART_CNT.LOCAL 1 m.val else b.inc MS_PART_CNT.REMOTE 1 m.val
        (b.onMoss (fun k => { k with active := k.active ++
          [{ q with ent := e, reads := q.rows.map (fun _ => ⟨0, false, 0, []⟩) }] })).showMs m.val

/-- The `k`-th part an engine holds. -/
def Block.partAt (b : Block) (m k : Nat) : Option MPart := (b.moss.active.filter (fun q => q.eng == m))[k]?

/-- RECORD_READ_RETURN (R342): the read of row `row` of the engine's `k`-th part returns; a failed read is made again,
up to 3 times. -/
def Block.doRecordReadReturn (b : Block) (m : Fin 12) (k row : Nat) : Block :=
  match b.partAt m k with
  | none => b
  | some q =>
    match q.reads[row]? with
    | none => b
    | some r =>
      if r.done then b
      else
        let a := b.recAddr q.ent q.tick m (q.rows.getD row (0, 0)).1
        let (x, b) := b.engRead m q.ctx a (eStride q.ent) (decide (r.tries > 0))
        let again := (x.find == 1 || x.find == 2) && decide (r.tries < 3)
        let r' : RowRead := { tries := r.tries + 1, done := !again, find := x.find,
                              vals := if x.find = 0 then recVals q.ent x.bytes else [] }
        let b := if r'.done && x.find == 1 then b.inc MS_ERR_CNT.POISON_ROWS 1 m.val else b
        (b.onMoss (fun n => { n with active := n.active.map (fun y =>
          if y == q then { y with reads := y.reads.set row r' } else y) })).showMs m

/-- PART_POOLED (R309, R312, R321): a part all of whose rows are decided is pooled and its return item is sent. -/
def Block.doPartPooled (b : Block) (m : Fin 12) (k : Nat) : Block :=
  match b.partAt m k with
  | none => b
  | some q =>
    if !q.reads.all (fun r => r.done) then b
    else
      let b := (b.onMoss (fun n => { n with active := n.active.erase q })).showMs m
      let has := fun f => q.reads.any (fun r => r.find == f)
      let st := if has 3 then 3 else if has 2 then 2 else if has 1 then 1 else 0
      let b := if st = 2 then b.inc MS_ERR_CNT.CONSIST 1 m.val else b
      if st ≥ 2 then b.sendReturn q st []
      else
        let (v, ovf) := poolPart q.mode (eDim q.ent)
          (((q.reads.zip q.rows).filter (fun x => x.1.find == 0)).map (fun x => (x.1.vals, x.2.2)))
        (b.poolCount m.val v ovf).sendReturn q st (vecBytes v (st == 1))

/-- POOLED_RETURN_ARRIVE (R315, R66): the return item of a tag reaches the tile's issue unit; one steered to a degraded
position or a sleeping region is discarded and counted. A tile whose requests are held receives it after the copy or the reset (R62). -/
def Block.doPooledReturnArrive (b : Block) (l : LTile) (tag : W32) : Block :=
  match b.moss.rets.find? (fun r => r.l == l.val && r.tag == tag.toNat) with
  | none => b
  | some r =>
    if b.held l then b else
    let b := b.onMoss (fun k => { k with rets := k.rets.erase r })
    if !b.served l then b.inc TL_DROP_CNT.DROPPED_RETURNS
    else (b.partDone (b.siteOf l) r.tag r.st r.data).mssPump (b.siteOf l)

/-- PART_TIMEOUT (R315): a part sent to another module fails with TIMEOUT. -/
def Block.doPartTimeout (b : Block) (l : LTile) (tag : W32) : Block :=
  let p := b.siteOf l
  if (b.site p).mss.bags.any (fun g => g.parts.any (fun q => q.tag == tag.toNat && q.remote && q.sent && q.st.isNone)) then
    (b.partDone p tag.toNat 7 []).mssPump p
  else b

/-- UPDATE_TIMEOUT (R354): a contribution sent to another module has had no acknowledgement. -/
def Block.doUpdateTimeout (b : Block) (l : LTile) (seq : W32) : Block :=
  let p := b.siteOf l
  let waits := (b.site p).mss.groups.any (fun g => g.contribs.any (fun c => c.1 == seq.toNat && c.2.isNone))
  let packed := (b.site p).mss.packs.any (fun k => k.kind == 2 && k.tags.any (· == seq.toNat))
  if waits && !packed then b.contribDone p seq.toNat 10 else b

/-- MS_TDIR_INVAL (R332): every cached directory entry on the module is discarded, and a part that has not been accepted
meets its checks again. -/
def Block.doMsTdirInval (b : Block) : Block :=
  { b.onMoss (fun k => { k with waiting := k.waiting.map (fun (q : MPart) => { q with owner := true }) }) with sites := b.sites.map (fun s => (s.1, { s.2 with mss := { s.2.mss with cache := [] } })) }

/-! ### The apply pass (R356 to R360) -/

/-- A record of class MOSS for an entry that is discarded (R567). -/
def Block.mergeDrop (b : Block) (x : MEntry) (cause : Nat) : Block :=
  let b := b.onMoss (fun k => { k with merge := k.merge.filter (fun y => y != x) })
  let b := if cause = 4 then b.inc MS_UPD_ERR.OWNER_DROPS 1 x.eng
    else if cause = 5 then b.inc MS_UPD_ERR.STALE_DROPS 1 x.eng else b.inc MS_UPD_ERR.POISON_DROPS 1 x.eng
  b.report { cls := 15, cause := cause, level := 4, unit := 0x1000 + x.eng, addr := b.recAddr x.ent x.window 0 x.row }

/-- Order of keys (R352): node, then tile, then SEQ. -/
def keyLe (a c : Contrib) : Bool :=
  decide (a.node < c.node) || (a.node == c.node && (decide (a.l < c.l) || (a.l == c.l && decide (a.seq ≤ c.seq))))

/-- Insert in that order. -/
def insKey (q : Contrib) : List Contrib → List Contrib
  | [] => [q]
  | x :: xs => if keyLe q x then q :: x :: xs else x :: insKey q xs

/-- Contributions in ascending key order. -/
def byKey : List Contrib → List Contrib
  | [] => []
  | q :: r => insKey q (byKey r)

/-- The payload of a slot from a row's values (R259, R337). -/
def slotOf (code4 : Bool) (n : Nat) (vals : List Nat) : List Byte :=
  let xs := vals.map (decodeF 0)
  let f := if code4 then 9 else 8
  let (s, o, _, flat) := affRow xs (if code4 then 15 else 255)
  let codes := if flat then List.replicate xs.length 0 else xs.map (fun x => (convI f false (affQuot s o x) .ne).1)
  let packed : Nat := (codes.zip (List.range codes.length)).foldl (fun a c => a + c.1 * 2 ^ ((if code4 then 4 else 8) * c.2)) 0
  let size := if n ≤ 1 then 14 else 15 * n
  leBytes 2 s ++ leBytes 2 o ++ leBytes (size - 4) packed

/-- A sector: 30 payload bytes and the trailer (R335). -/
def sectorOf (pl : List Byte) (ver sel : Nat) : List Byte := pl ++ leBytes 2 (ver % 4096 + sel * 4096)

/-- The sector writes that replace a row (R345, steps 3 and 4): offsets in the record and bytes, in order. -/
def flipWrites (n : Nat) (old new : List Byte) : List (Nat × List Byte) :=
  let s := bits (trailer old 0) 12 1
  if n ≤ 1 then
    let v := bits (trailer old 0) 0 12
    let a := if s = 0 then (old.take 14) ++ new else new ++ (old.drop 14).take 14
    [(0, sectorOf (a ++ leBytes 2 0) v s), (0, sectorOf (a ++ leBytes 2 0) (v + 1) (1 - s))]
  else
    let h := n / 2
    let v := bits (trailer old (s * h)) 0 12
    let at_ := fun k => (new.drop (30 * k)).take 30
    let step3 := (List.range h).map (fun k =>
      ((1 - s) * h * 32 + 32 * k, sectorOf (at_ k) (v + 1) (if s = 1 ∧ k = 0 then s else 0)))
    let zero := if s = 1 then at_ 0 else old.take 30
    let ver0 := if s = 1 then v + 1 else bits (trailer old 0) 0 12
    step3 ++ [(0, sectorOf zero ver0 (1 - s))]

/-- ENTRY_APPLY (R356). -/
def Block.entryApply (b : Block) (x : MEntry) (e : List Nat) : Block :=
  let n := eStride e
  let a := b.recAddr e x.window 0 x.row
  let (r, b) := readTries (fun b again => b.engRead x.eng 0xFFF a n again) 3 b false
  if r.find = 1 ∨ x.contribs.any (fun c => c.pois) then b.mergeDrop x 1
  else if r.find ≠ 0 then b.mergeDrop x 2
  else
    let v := recVals e r.bytes
    let s := (List.range (eDim e)).map (fun j => (byKey x.contribs).foldl (fun acc c => f32Add acc (c.vals.getD j 0)) 0)
    let u := (s.zip v).map (fun y => f32Fma (eScale e) y.1 y.2)
    if u.any (fun y => !f32Fin y) then b.mergeDrop x 3
    else
      let b := (flipWrites n r.bytes (slotOf (eCode e) n u)).foldl (fun b w =>
        (b.mwrite 0xFFF (a + w.1) (plain w.2)).2) b
      (b.onMoss (fun k => { k with merge := k.merge.filter (fun y => y != x), flips := SMap.set 0 k.flips a (b.now + 1) })).inc
        MS_UPD_CNT.APPLIED 1 x.eng

/-- Insert in that order. -/
def insWindow (q : MEntry) : List MEntry → List MEntry
  | [] => [q]
  | x :: xs => if q.window ≤ x.window then q :: x :: xs else x :: insWindow q xs

/-- Entries in ascending window order. -/
def byWindow : List MEntry → List MEntry
  | [] => []
  | q :: r => insWindow q (byWindow r)

/-- APPLY_PASS (R358, R360): the engine takes every held entry of earlier windows; per row in window order; an entry whose
row is in grace waits, and so does every later one of the row. -/
def Block.doApplyPass (b : Block) (m : Fin 12) : Block :=
  let t := b.now
  let b := b.onMoss (fun k => { k with
    passAt := SMap.set 0 k.passAt m.val (t + 1)
    merge := k.merge.map (fun x => if x.eng == m.val then { x with deferred := false } else x) })
  let due := byWindow (b.moss.merge.filter (fun x => x.eng == m.val && decide (x.window + 1 ≤ t)))
  let (b, _) := due.foldl (fun (acc : Block × List (Nat × Nat)) x =>
    let (b, wait) := acc
    if wait.any (fun r => r == (x.table, x.row)) then acc
    else
      let (e, good, b) := b.dirRead x.table
      let e := if good && b.entGood e && eClass e == 1 then e else x.ent
      if !b.on MS_BSLOT.OWNED 0 (x.row % 4096) then (b.mergeDrop x 4, wait)
      else
        let f := SMap.get 0 b.moss.flips (b.recAddr e x.window 0 x.row)
        if f ≠ 0 ∧ t < f + 1 then
          ((b.onMoss (fun k => { k with merge := k.merge.map (fun y => if y == x then { y with deferred := true } else y) })).inc
            MS_UPD_ERR.DEFERRALS 1 m.val, wait ++ [(x.table, x.row)])
        else (b.entryApply x e, wait)) (b, [])
  b.showMerge m

/-- SWITCH_DISCARD (R360): at the boundary T(SWITCH_TICK) every held entry of the table of an earlier window is discarded;
`prev` is the tick before this boundary. -/
def Block.switchDiscard (b : Block) (prev : Nat) : Block :=
  let b := b.moss.merge.foldl (fun b x =>
    let (e, good, b) := b.dirRead x.table
    let sw := e.getD 6 0
    if good ∧ sw ≠ 0 ∧ prev < sw ∧ sw ≤ b.now ∧ x.window < sw then b.mergeDrop x 5 else b) b
  (List.range 12).foldl (fun b m => b.showMerge m) b

/-! ### Messages between modules (R318 to R321, R353) -/

/-- REMOTE_BAG performed at the owner (R320), which it reached on physical port `port`: each part is served or refused; every
part receives one return item. -/
def Block.ownRemoteBag (b : Block) (node cls port : Nat) (h : BagHdr) (raw : Bool) (parts : List PartItem) : Block :=
  let t := b.now
  let skew := decide (h.tick + 1 < t) || decide (h.tick > t + 1)
  let b := if skew then b.inc MS_ERR_CNT.TICK_SKEW else b
  parts.foldl (fun b q =>
    let mp : MPart := { eng := 0, l := h.ltile, tag := q.tag, from_ := some (node, cls, [h.tick, h.ltile, h.instr, raw.toNat]),
                        owner := false, tick := h.tick, ctx := h.ctx, table := q.table, mode := q.mode, ent := [],
                        rows := q.rows, reads := [], port := some port }
    if skew then b.sendReturn mp 4 []
    else if raw then
      let (st, data, b) := b.ownerRaw h.ctx h.tick q.table (q.rows.map (·.1))
      b.sendReturn mp st (if st ≤ 1 then data else [])
    else
      match b.ownerCheck q.table 1 (q.rows.map (·.1)) with
      | (0, e, b) => b.toEngine { mp with eng := eHome e, ent := e }
      | (st, _, b) => b.sendReturn mp st []) b

/-- POOLED_RETURN performed at the requester (R315, R321): for a tile whose requests are held the items wait on the mesh
(R62). -/
def Block.ownPooledReturn (b : Block) (l : Nat) (items : List RetItem) : Block :=
  if !b.served l then b.inc TL_DROP_CNT.DROPPED_RETURNS items.length
  else if b.held l then
    b.onMoss (fun k => { k with rets := k.rets ++ items.map (fun r => (⟨l, r.tag, r.pstatus, r.rows, r.data⟩ : MRet)) })
  else
    let p := b.siteOf l
    (items.foldl (fun b r => b.partDone p r.tag r.pstatus r.data) b).mssPump p

/-- UPDATE performed at the owner (R353, R354): every contribution gets its USTATUS, and the acknowledgement is sent. -/
def Block.ownUpdate (b : Block) (node cls : Nat) (h : BagHdr) (cs : List ContribItem) : Block :=
  let (st, b) := cs.foldl (fun (acc : List (Nat × Nat) × Block) c =>
    let (u, b) := acc.2.contribute node h.ltile h.ctx h.tick c
    (acc.1 ++ [(c.seq, u)], b)) ([], b)
  if b.hasPath node cls 521 then
    let hd := leBytes 8 h.tick ++ leBytes 8 (b.rd XL_NODE.SELF + h.ctx * 2 ^ 10 + cs.length * 2 ^ 32)
      ++ leBytes 8 (h.ltile + h.instr * 2 ^ 9) ++ leBytes 8 0
    let body := st.flatMap (fun x => leBytes 8 (x.1 + x.2 * 2 ^ 32)) ++ leBytes ((32 - 8 * st.length % 32) % 32) 0
    (b.dmSend node cls 521 0x23 0 h.ctx 0 [] (plain (hd ++ body)) none none).2
  else b

/-- UPDATE_ACK performed at the requester (R355). -/
def Block.ownUpdateAck (b : Block) (l : Nat) (acks : List (Nat × Nat)) : Block :=
  if !b.served l then b
  else acks.foldl (fun b a => b.contribDone (b.siteOf l) a.1 a.2) b

end Sys2Proof.Machine
end

