-- ==== Sys2Proof/Machine/Engine.lean ====
section
/-! DEFINITION. Machine/Engine.lean: engines 1 to 5 (R91 to R95, R102 to R104): placing an instruction in its engine's
queue, starting the head of a queue, completing an instruction, and the engine instructions themselves. -/

namespace Sys2Proof.Machine
open Reg

/-! ### Queues and starting -/

/-- The semaphore and amount a head waits for before it starts (R103). -/
def EngIns.waitSem (i : EngIns) : Option Nat :=
  if i.granted then none
  else if i.op = .semWait then some (i.s.getD 0 0)
  else if i.eng ≥ 2 ∧ i.t.we then some i.t.wsem.toNat else none

/-- Does a Frond instruction round with the step's seed, so that it waits for the seed (R256, R257)? -/
def Block.wantsSeed (b : Block) (p : Nat) (i : EngIns) : Bool :=
  match i.op with
  | .frdEw => b.stochastic p (i.md 6 1)
  | .frdCvt => b.stochastic p (i.md 0 1)
  | .frdChn => b.stochastic p (bits (((b.lsBytes p (i.md 0 16 * 64) 1).1.bytes.headD 0).toNat) 5 1)
  | _ => false

/-- Does an instruction of the Twill array read a tile register that a pass still has to write (R91)? -/
def Site.passWrites (s : Site) (i : EngIns) : Bool :=
  s.passes.any (fun q => !q.dead && (dRegs i.da).any (· == q.ins.t.tc.toNat))

/-- Is the image of `dma.cmpl` complete: no earlier transfer of the engine has chunks left, and no write of the tile to it is
held (R91, R501)? -/
def Block.imageReady (b : Block) (p : Nat) (i : EngIns) : Bool :=
  (b.site p).runs.all (fun r => r.ins.eng != 2) && (b.ownHeld p (dBase i.da) 32).isEmpty

/-- May the head of a queue start, its semaphore apart: order and room (R91, R108, R167, R175, R272, R308)? -/
def Block.canStart (b : Block) (p : Nat) (i : EngIns) : Bool :=
  let s := b.site p
  let f := s.flight.filter (fun j => j.eng == i.eng)
  match i.op with
  | .dmaCp => f.length < 4
  | .dmaFill => f.length < 4
  | .dmaCmpl => f.length < 4 && b.imageReady p i
  | .twlMm => (i.md 1 1 == 0 || !b.loadRuns p) && !s.passWrites i
  | .twlLd => !f.any (fun j => j.op == .twlLd && !j.done) && !s.passWrites i
  | .twlLdm => !f.any (fun j => j.op == .twlLd && !j.done) && !s.passWrites i
  | .mssBag => f.length < 8
  | .mssRaw => f.length < 8
  | .mssUpd => f.length < 8
  | .semSig => f.isEmpty
  | .semWait => f.isEmpty
  | .semSub => f.isEmpty
  | .semSet => f.isEmpty
  | .semRd => f.isEmpty
  | .wtMem => f.isEmpty
  | _ => f.all (fun j => !frondAfter i j) && !(b.wantsSeed p i && b.seedOf p == .waiting)

/-- Perform an instruction that starts. -/
def Block.runIns (b : Block) (p : Nat) (i : EngIns) : Block :=
  match i.op with
  | .semSig => b.runSemSig p i
  | .semWait => b.runSemWait p i
  | .semSub => b.runSemSub p i
  | .semSet => b.runSemSet p i
  | .semRd => b.runSemRd p i
  | .wtMem => b.runWtMem p i
  | .dmaCp => b.runDmaCp p i
  | .dmaFill => b.runDmaFill p i
  | .dmaCmpl => b.runDmaCmpl p i
  | .twlMm => b.runTwlMm p i
  | .twlLd => b.runTwlLd p i
  | .twlLdm => b.runTwlLdm p i
  | .frdEw => b.runFrdEw p i
  | .frdChn => b.runFrdChn p i
  | .frdCvt => b.runFrdCvt p i
  | .frdRed => b.runFrdRed p i
  | .frdTopk => b.runFrdTopk p i
  | .frdPerm => b.runFrdPerm p i
  | .frdShf => b.runFrdShf p i
  | .frdPack => b.runFrdPack p i
  | .frdUnpk => b.runFrdUnpk p i
  | .mssBag => b.runMssBag p i
  | .mssRaw => b.runMssRaw p i
  | .mssUpd => b.runMssUpd p i

/-- The head of an engine's queue. -/
def Site.head (s : Site) (eng : Nat) : Option EngIns := s.queue.find? (fun i => i.eng == eng)

/-- Start the head of an engine's queue if its order, room and semaphore wait allow (R91, R103, R104). The Frond engine starts an
instruction one issue interval after the one before, all of whose chunks have then been issued (R272). -/
def Block.startHead (b : Block) (p eng : Nat) : Block :=
  match (b.site p).head eng with
  | none => b
  | some h =>
    let b := match h.waitSem with
      | some s => b.semCycle p s none 0 0 (b.ownSrc p h)
      | none => b
    let b := if eng = 4 then b.frRest p false else b
    match (b.site p).head eng with
    | none => b
    | some h =>
      if h.waitSem.isNone && b.canStart p h then
        let b := b.onSite p (fun s => { s with queue := s.queue.filter (fun i => i.id != h.id), flight := s.flight ++ [h] })
        (b.runIns p h).tryEnd p
      else b

/-- May the engines of a logical tile act: a step runs and is not stopped? -/
def Block.engLive (b : Block) (p : Nat) : Bool :=
  let s := b.site p
  s.run.isSome && !s.draining && !s.stopped && !s.copying && b.rd TL_STATUS.RUN p == 1

/-- ENGINE_INSTRUCTION_START (R91): engine `eng` of tile `l` starts the head of its queue. -/
def Block.doEngineInstructionStart (b : Block) (l : LTile) (eng : Fin 6) : Block :=
  let p := b.siteOf l
  if b.served l && b.engLive p then b.startHead p eng else b

/-- May a done instruction complete now: its own held writes have gone (R102, R162)? -/
def Block.mayComplete (b : Block) (p : Nat) (i : EngIns) : Bool :=
  i.eng != 2 || !b.dm.holds.any (fun h => h.owner.any (fun o => o.site == p && o.eng == 2 && o.pc == i.pc))

/-- The chunks an instruction in flight has left are performed (R161, R269). -/
def Block.runRest (b : Block) (p : Nat) (i : EngIns) : Block :=
  match (b.site p).runs.find? (fun r => r.ins.id == i.id && !r.dead) with
  | none => b
  | some r => if i.eng = 2 then b.dmaRest p r else b.frRest p false

/-- ENGINE_INSTRUCTION_COMPLETE (R102): the `n`-th instruction of an engine that has written its last result, or has chunks
left and writes them now, completes and signals its semaphore, `same`: in the cycle of that semaphore's next update (R104).
While a step drains, the Frond instruction it had started runs on (R38). -/
def Block.doEngineInstructionComplete (b : Block) (l : LTile) (eng : Fin 6) (n : Nat) (same : Bool) : Block :=
  let p := b.siteOf l
  if !b.engLive p then
    if eng.val = 4 && (b.site p).draining then b.frRest p true else b
  else
  match ((b.site p).flight.filter (fun i => i.eng == eng.val
      && (i.done || (b.site p).runs.any (fun r => r.ins.id == i.id && !r.dead))))[n]? with
  | none => b
  | some i =>
    let b := b.runRest p i
    if !(b.site p).flight.any (fun j => j.id == i.id && j.done) || !b.mayComplete p i then b else
    let b := b.retire p i.id
    let b := if i.t.se then b.signal p i.t.ssem.toNat 1 same ⟨b.tileOf p, 3, i.eng, some i.pc⟩ else b
    b.tryEnd p

/-! ### Dispatch -/

/-- An instruction as the sequencer captures it (R92): descriptors and the scale descriptors behind them. -/
def Block.capIns (b : Block) (p : Nat) (op : EngOp) (eng : Nat) (t : FmtT) (s : List Nat) (sd : Nat) : EngIns :=
  let x := b.site p
  let r := [t.da.toNat, t.db.toNat, t.dc.toNat]
  { id := x.nextId, eng := eng, op := op, t := t, pc := b.pcOf p, d := r.map x.d, dx := r.map (fun n => x.d ((n + 1) % 16)),
    s := s, sd := sd, granted := false, done := false }

/-- Place an instruction at the tail of its engine's queue (R91): a full queue, the scoreboard (R93) or a pending
register (R92) stalls it and it has no effect; a descriptor its checks refuse raises DESC_ERR (R100). -/
def Block.dispatch (b : Block) (l : Nat) (legal : Bool) (regs : List Nat) (mk : Nat → Block → EngIns)
    (ok : EngIns → Bool) : Block :=
  b.issue l legal regs (fun p b =>
    let i := mk p b
    if ((b.site p).queue.filter (fun j => j.eng == i.eng)).length ≥ 16 then b
    else if b.scoreStall p i then b
    else if !ok i then b.raise p xDesc i.eng i.pc 0
    else
      let b := b.onSite p (fun s => { s with queue := s.queue ++ [i], nextId := s.nextId + 1,
                                             pendReg := if i.sd = 0 then s.pendReg else NSet.add s.pendReg i.sd })
      (b.advance p).startHead p i.eng)

/-- Format T with no field set, for engines that use another format. -/
def noT : FmtT := ⟨0, 0, 0, 0, 0, 0, 0, false, 0, false, 0, 0⟩

/-- The rules of R95 every format T instruction meets: reserved bits 0, WSEM 0 without WE, SSEM 0 without SE, and the
fields it does not use 0. -/
def tLegal (t : FmtT) (da db dc ta tb tc : Bool) : Bool :=
  t.res == 0 && (t.we || t.wsem == 0) && (t.se || t.ssem == 0) && (da || t.da == 0) && (db || t.db == 0) && (dc || t.dc == 0)
  && (ta || t.ta == 0) && (tb || t.tb == 0) && (tc || t.tc == 0)

/-- Bits of MOD of an instruction word. -/
def modOf (t : FmtT) (lo w : Nat) : Nat := bits t.md.toNat lo w

/-- Dispatch of a format T instruction. -/
def Block.dispatchT (b : Block) (l : Nat) (op : EngOp) (eng : Nat) (t : FmtT) (legal : Bool) (ok : EngIns → Bool) : Block :=
  b.dispatch l legal [] (fun p b => b.capIns p op eng t [] 0) ok

/-! ### Sync unit (R154 to R158) -/

/-- SEM_SIG. -/
def Block.doSemSig (b : Block) (l : LTile) (f : FmtI) : Block :=
  b.dispatch l (f.sd == 0 && bits f.fn.toNat 5 7 == 0 && f.imm.toNat < 256 && f.imm != 0) [f.sa.toNat]
    (fun p b => b.capIns p .semSig 1 noT [(b.sreg p f.sa.toNat).toNat, bits f.fn.toNat 0 5, f.imm.toNat] 0) (fun _ => true)

/-- Format I of the tile's own semaphores (R156). -/
def semLegal (f : FmtI) (zero : Bool) : Bool :=
  f.sa == 0 && bits f.fn.toNat 5 7 == 0 && f.imm.toNat < 256 && (zero || f.imm != 0)

/-- SEM_WAIT. -/
def Block.doSemWait (b : Block) (l : LTile) (f : FmtI) : Block :=
  b.dispatch l (f.sd == 0 && semLegal f false) []
    (fun p b => b.capIns p .semWait 1 noT [bits f.fn.toNat 0 5, f.imm.toNat] 0) (fun _ => true)

/-- SEM_SUB. -/
def Block.doSemSub (b : Block) (l : LTile) (f : FmtI) : Block :=
  b.dispatch l (f.sd == 0 && semLegal f false) []
    (fun p b => b.capIns p .semSub 1 noT [bits f.fn.toNat 0 5, f.imm.toNat] 0) (fun _ => true)

/-- SEM_SET. -/
def Block.doSemSet (b : Block) (l : LTile) (f : FmtI) : Block :=
  b.dispatch l (f.sd == 0 && semLegal f true) []
    (fun p b => b.capIns p .semSet 1 noT [bits f.fn.toNat 0 5, f.imm.toNat] 0) (fun _ => true)

/-- SEM_RD. -/
def Block.doSemRd (b : Block) (l : LTile) (f : FmtI) : Block :=
  b.dispatch l (semLegal f true && f.imm == 0) [f.sd.toNat]
    (fun p b => b.capIns p .semRd 1 noT [bits f.fn.toNat 0 5] f.sd.toNat) (fun _ => true)

/-- WT_MEM (R109, R158). -/
def Block.doWtMem (b : Block) (l : LTile) (f : FmtW) : Block :=
  b.dispatch l (f.res == 0) [f.sd.toNat, f.sa.toNat, f.sb.toNat, f.sm.toNat]
    (fun p b => b.capIns p .wtMem 1 noT [(b.sreg p f.sa.toNat).toNat, (b.sreg p f.sb.toNat).toNat,
      (b.sreg p f.sm.toNat).toNat, f.cmp.toNat, f.wide.toNat, f.timeout.toNat] f.sd.toNat) (fun _ => true)

/-! ### DMA engine (R159 to R166) -/

/-- DMA_CP. -/
def Block.doDmaCp (b : Block) (l : LTile) (t : FmtT) : Block :=
  b.dispatchT l .dmaCp 2 t (tLegal t true true false false false false && modOf t 0 2 != 3 && modOf t 2 14 == 0) cpOk

/-- DMA_FILL. -/
def Block.doDmaFill (b : Block) (l : LTile) (t : FmtT) : Block :=
  b.dispatchT l .dmaFill 2 t (tLegal t true false false false false false && modOf t 0 2 != 3 && modOf t 2 14 == 0)
    (fun i => descPlain i.da && !dKind i.da)

/-- DMA_CMPL. -/
def Block.doDmaCmpl (b : Block) (l : LTile) (t : FmtT) : Block :=
  b.dispatchT l .dmaCmpl 2 t (tLegal t true false false false false false && t.md == 0) cmplOk

/-! ### Twill array (R167 to R177) -/

/-- TWL_MM. -/
def Block.doTwlMm (b : Block) (l : LTile) (t : FmtT) : Block :=
  b.dispatchT l .twlMm 3 t (tLegal t true false false false false true && modOf t 14 2 == 0
    && (modOf t 13 1 == 0 || modOf t 9 4 == 8 || modOf t 9 4 == 9)) mmOk

/-- TWL_LD. -/
def Block.doTwlLd (b : Block) (l : LTile) (t : FmtT) : Block :=
  b.dispatchT l .twlLd 3 t (tLegal t true false false false false false && t.md == 0) ldOk

/-- TWL_LDM. -/
def Block.doTwlLdm (b : Block) (l : LTile) (t : FmtT) : Block :=
  b.dispatchT l .twlLdm 3 t (tLegal t true false false false false false && modOf t 0 4 != 0 && modOf t 10 6 == 0
    && (modOf t 9 1 == 1 || modOf t 4 5 == 0)) ldOk

/-! ### Frond engine (R178 to R197) -/

/-- FRD_EW. -/
def Block.doFrdEw (b : Block) (l : LTile) (t : FmtT) : Block :=
  b.dispatchT l .frdEw 4 t (tLegal t true (!opcUnary (modOf t 0 6)) true false false false && opcKnown (modOf t 0 6) && modOf t 7 9 == 0) ewOk

/-- FRD_CHN. -/
def Block.doFrdChn (b : Block) (l : LTile) (t : FmtT) : Block :=
  b.dispatchT l .frdChn 4 t (tLegal t true true true false false false) chnOk

/-- FRD_CVT. -/
def Block.doFrdCvt (b : Block) (l : LTile) (t : FmtT) : Block :=
  b.dispatchT l .frdCvt 4 t (tLegal t true (modOf t 9 1 == 1) true false false false && modOf t 10 6 == 0) cvtOk

/-- FRD_RED. -/
def Block.doFrdRed (b : Block) (l : LTile) (t : FmtT) : Block :=
  b.dispatchT l .frdRed 4 t (tLegal t false false false true false true && modOf t 0 2 != 3 && modOf t 4 7 ≤ 64 && modOf t 11 5 == 0) (fun _ => true)

/-- FRD_TOPK. -/
def Block.doFrdTopk (b : Block) (l : LTile) (t : FmtT) : Block :=
  b.dispatchT l .frdTopk 4 t (tLegal t false false false true true true && 1 ≤ modOf t 0 7 && modOf t 0 7 ≤ 64 && modOf t 9 7 ≤ 64
    && t.ta != t.tb && t.ta != t.tc && t.tb != t.tc) (fun _ => true)

/-- FRD_PERM. -/
def Block.doFrdPerm (b : Block) (l : LTile) (t : FmtT) : Block :=
  b.dispatchT l .frdPerm 4 t (tLegal t false false false true true true && modOf t 1 15 == 0 && t.tc != t.tb) (fun _ => true)

/-- FRD_SHF. -/
def Block.doFrdShf (b : Block) (l : LTile) (t : FmtT) : Block :=
  b.dispatchT l .frdShf 4 t (tLegal t false false false true false true && modOf t 0 3 < 6 && modOf t 10 6 == 0
    && (modOf t 0 3 == 0 || modOf t 0 3 == 4 || modOf t 3 6 == 0) && (modOf t 0 3 != 5 || modOf t 9 1 == 0)) (fun _ => true)

/-- MOD of `frd.pack` and `frd.unpk` (R196): SIGNED is used by `frd.unpk` for INT8 and INT4. -/
def packLegal (t : FmtT) (unpk : Bool) : Bool :=
  tLegal t false false false true false true && [1, 2, 3, 4, 7, 8, 9].any (· == modOf t 0 4) && modOf t 5 11 == 0
  && (modOf t 4 1 == 0 || (unpk && (modOf t 0 4 == 8 || modOf t 0 4 == 9)))

/-- FRD_PACK. -/
def Block.doFrdPack (b : Block) (l : LTile) (t : FmtT) : Block :=
  b.dispatchT l .frdPack 4 t (packLegal t false) (fun _ => true)

/-- FRD_UNPK. -/
def Block.doFrdUnpk (b : Block) (l : LTile) (t : FmtT) : Block :=
  b.dispatchT l .frdUnpk 4 t (packLegal t true) (fun _ => true)

/-! ### Moss issue unit (R198 to R202) -/

/-- The checks of `mss.bag` and `mss.raw` at dispatch: DA (R198), and R100 and R101 on DB. -/
def mssOk (i : EngIns) : Bool := mssDaOk i.da && descOk i.t.db.toNat i.db (i.dx.getD 1 0)

/-- MSS_BAG. -/
def Block.doMssBag (b : Block) (l : LTile) (t : FmtT) : Block :=
  b.dispatchT l .mssBag 5 t (tLegal t true true false false false false && t.md == 0) mssOk

/-- MSS_RAW. -/
def Block.doMssRaw (b : Block) (l : LTile) (t : FmtT) : Block :=
  b.dispatchT l .mssRaw 5 t (tLegal t true true false false false false && t.md == 0) mssOk

/-- MSS_UPD. -/
def Block.doMssUpd (b : Block) (l : LTile) (t : FmtT) : Block :=
  b.dispatchT l .mssUpd 5 t (tLegal t true false false false false false && t.md == 0) (fun i => mssDaOk i.da)

end Sys2Proof.Machine
end

