-- ==== Sys2Proof/Machine/MemCmd.lean ====
section
/-! DEFINITION. Machine/MemCmd.lean: the commands of the memory system (R364 to R402): requests at controllers, region
caches, locking and preload, scrub, channel map-out and migration, peat package failure and row repair. -/

namespace Sys2Proof.Machine
open Reg

/-! ### Requests at a holder -/

/-- A word whose stored bits have flipped: data bits [127:0], code bits [143:128]. -/
def Cw.upset (w : Cw) (f : Nat) : Cw :=
  Cw.ofCode (w.data ^^^ (f % 2 ^ 128)) (w.code ^^^ (f / 2 ^ 128 % 2 ^ 16))

/-- Flip stored bits of the word at a local offset, where there is memory. -/
def Block.upsetAt (b : Block) (a f : Nat) : Block :=
  if f = 0 then b else
  match b.place a with
  | .hbm _ _ => b.putWord (a / 16 * 16) ((b.getWord (a / 16 * 16)).upset f)
  | .peat _ => b.putWord (a / 16 * 16) ((b.getWord (a / 16 * 16)).upset f)
  | .store l off =>
    let k := lsKey (b.siteOf l) off / 16
    { b with mem := b.mem.setWord k ((b.mem.word k).upset f) }
  | _ => b

/-- A parity error in a snoop filter entry: the line is recalled and invalidated in every region, counted, with one record
(R387, R398, R567). -/
def Block.sfParity (b : Block) (line : Nat) : Block :=
  let i := b.lineInst line
  let b := (b.recallInval line none).inc MEM_SF_STATUS.BACK_INVAL 1 i
  b.report { cls := 6, cause := 5, level := 4, unit := unitOf i (b.locOf (line * 128)).2.1, addr := line * 128 }

/-- The status of an answer: 0 good, 1 absent, 2 tag mismatch. -/
def wrStatus : WrRes → Nat
  | .ok => 0
  | .absent => 1
  | .tag => 2

/-- What an atomic answers: its old value in `n` bytes. -/
def atomicOut (src a n : Nat) (r : Nat × Bool × WrRes × Block) : Block :=
  r.2.2.2.emit (.data src a (wrStatus r.2.2.1) ((leBytes n r.1).map (fun x => (x, r.2.1))))

/-- A read of a lock window (R393): the stored words as they are, and their codes beside them. -/
def Block.lockPerform (b : Block) (src ctx a n r w : Nat) : Block :=
  let ws := (pieces w n).map (fun pc => (b.lockWord r pc.1, pc))
  let b := b.missRecs false ctx (b.missesOf a n)
  (b.emit (.data src a 0 (ws.flatMap (fun x => x.1.slice (x.2.1 % 16) x.2.2)))).emit (.codes src a (ws.map (fun x => x.1.code)))

/-- Perform a request at its holder and answer the requester. A request to a held tile is performed at its delivery (R62,
R605). -/
def Block.perform (b : Block) (src ctx a : Nat) (op : MemOp) : Block :=
  b.orHold a (.request src ctx a op) fun b =>
    match op with
    | .read n =>
      match b.place a with
      | .lockWin r w => b.lockPerform src ctx a n.val r w
      | _ =>
        let (r, b) := b.mread ctx a n.val
        b.emit (.data src a (if r.tagFail then 2 else 0) r.data)
    | .write ms =>
      let (w, b) := b.mwrite ctx a ms
      b.emit (.data src a (wrStatus w) [])
    | .fetchAdd wide v => atomicOut src a (if wide then 8 else 4) (b.matomic ctx a (if wide then 8 else 4) 0 v.toNat 0)
    | .cas wide v cmp => atomicOut src a (if wide then 8 else 4) (b.matomic ctx a (if wide then 8 else 4) 1 v.toNat cmp.toNat)
    | .fence => b.emit (.data src a 0 [])

/-- The control core that a source is: the sources 513 to 520 (R499). -/
def coreOf (src : Nat) : Option Nat := if 513 ≤ src ∧ src ≤ 520 then some (src - 513) else none

/-- The context a request carries: a control core's is XL_CORE_CTX (R405, R433). -/
def Block.reqCtx (b : Block) (src ctx : Nat) : Nat :=
  match coreOf src with
  | some h => b.rd XL_CORE_CTX.CTX 0 h
  | none => ctx

/-- A FENCE of control core `src` (R503): answered once its earlier writes to other nodes have completed for release. -/
def Block.coreFence (b : Block) (src ctx pa : Nat) : Block :=
  let waits := b.openWrites src none
  if waits.isEmpty then b.emit (.data src pa 0 [])
  else b.holdAcc { uid := 0, src := src, ctx := ctx, under := ctx, waits := waits, bad := false, pa := pa, kind := 3, width := 1,
                   data := [], cmpv := 0, cls := 0, owner := none, site := none }

/-- A control core's access to another node (R423, R503): a write or atomic carries path release. A read's data and an
atomic's old value come with the answer; a write is answered as the Damask engine accepts it. Where the node has no path
it is an access to an absent address (R425). The class is 0, latency, which no rule states (assumption log 55). -/
def Block.coreRemote (b : Block) (src h ctx pa : Nat) (op : MemOp) : Block :=
  let node := nodeOf pa
  let off := offOf pa
  let atom := fun (op : Nat) (wide : Bool) (v cmp : W64) =>
    let (ok, b) := b.dmAtomic node 0 src 1 ctx off op wide.toNat v.toNat cmp.toNat (.core h pa) none
    if ok then b else b.emit (.data src pa 1 [])
  match op with
  | .read n =>
    let (ok, b) := b.dmRead node 0 src ctx off n.val (.core h pa)
    if ok then b else b.emit (.data src pa 0 ((leBytes n.val 0).map (fun x => (x, true))))
  | .write ms =>
    let (ok, b) := b.dmWrite node 0 src 1 ctx off ms none none
    b.emit (.data src pa (if ok then 0 else 1) [])
  | .fetchAdd wide v => atom 0 wide v 0
  | .cas wide v cmp => atom 1 wide v cmp
  | .fence => b.coreFence src ctx pa

/-- MEMORY_REQUEST (R380, R386, R403, R405, R419, R423): a request that passes the caches, at a 56-bit physical address. A
control core's carries its own context, and goes to the node the address names; any other master's is at this module.
`parity`: the line's snoop filter entry has a parity error; `flip`: bits of the stored word that have flipped. -/
def Block.doMemoryRequest (b : Block) (src : Nat) (ctx : BitVec 12) (pa : BitVec 56) (op : MemOp) (parity : Bool)
    (flip : BitVec 144) : Block :=
  let a := offOf pa.toNat
  let b := b.upsetAt a flip.toNat
  let b := if parity && b.isMem a && b.sf.any (fun e => e.line == a / 128) then b.sfParity (a / 128) else b
  let ctx := b.reqCtx src ctx.toNat
  match coreOf src, op with
  | some _, .fence => b.coreFence src ctx pa.toNat
  | some h, op => if nodeOf pa.toNat = b.rd XL_NODE.SELF then b.perform src ctx a op else b.coreRemote src h ctx pa.toNat op
  | none, op => b.perform src ctx a op

/-! ### Region caches -/

/-- The entry of a line has a parity error (R390): a later lookup, eviction or flush finds it. That of an entry which holds no
line is found, and counted, by the lookup of its set. -/
def Block.hurtEntry (b : Block) (r line here : Nat) : Block :=
  match b.rcFind r line with
  | some x => b.rcPut { x with bad := true }
  | none => if sliceOf line = sliceOf here ∧ setOf line = setOf here then b.inc RC_ERR_CNT.TAG_PARITY 1 r else b

/-- Flip stored bits of a cached word. -/
def Block.upsetLine (b : Block) (r line i f : Nat) : Block :=
  match b.rcFind r line with
  | none => b
  | some x => if f = 0 then b else b.rcPut { x with words := x.words.set i ((x.words.getD i (Cw.clean 0)).upset f) }

/-- A region master's access that the cache or the controller can serve now, with its answer to port `port`. -/
def Block.rcNow (b : Block) (r port ctx a : Nat) (w : Option MBytes) (n : Nat) : Block :=
  match w with
  | none =>
    let (x, b) := b.tread r ctx a n false
    b.emit (.data port a (if x.tagFail then 2 else 0) x.data)
  | some ms =>
    let (x, b) := b.twrite r ctx a ms false
    b.emit (.data port a (wrStatus x) [])

/-- Is the port of a master into a slice blocked by its miss there (R389)? -/
def Block.portBlocked (b : Block) (r port line : Nat) : Bool :=
  b.misses.any (fun m => m.region == r && m.port == port && sliceOf m.line == sliceOf line)

/-- REGION_CACHE_ACCESS (R384, R385, R388 to R391): an access of master port `port` of region `r` within one line. A hit
is served; a miss waits for its line, at most one for a port and 32 for a slice, and blocks its port into the slice. `hurt`: the
entry of that line has a parity error, which the lookup of its set finds before the access proceeds (log 54); `flip`: bits of
the cached word that have flipped. -/
def Block.doRegionCacheAccess (b : Block) (r : Fin 32) (port : Nat) (ctx : BitVec 12) (off : BitVec 46)
    (w : Option MBytes) (n : Fin 129) (hurt : Option (BitVec 39)) (flip : BitVec 144) : Block :=
  let a := off.toNat
  let line := a / 128
  let room := 128 - a % 128
  let w := w.map (·.take room)
  let len := min n.val room
  if !b.isMem a then b.perform port ctx.toNat a (match w with
    | some ms => .write ms
    | none => .read n)
  else
    let b := b.upsetLine r line (a % 128 / 16) flip.toNat
    let b := match hurt with
      | some x => b.hurtEntry r x.toNat line
      | none => b
    if b.portBlocked r port line then b
    else
      let b := b.rcLookup r line
      if !b.cacheable a false || (b.rcFind r line).isSome || (w.elim 0 List.length) == 128 || (b.rcWay r line).isNone
      then b.rcNow r port ctx.toNat a w len
      else if (b.misses.filter (fun m => m.region == r.val && sliceOf m.line == sliceOf line)).length ≥ 32 then b
      else
        let m : RcMiss := { region := r, line := line, port := port, write := w.isSome, off := a % 128,
                            data := w.getD (List.replicate len (0, false)), ctx := ctx.toNat }
        { b.inc RC_ACC_CNT.MISSES 1 r with misses := b.misses ++ [m] }

/-- Serve a miss whose line is in the cache, or where no way was free for it. -/
def Block.serveMiss (b : Block) (m : RcMiss) : Block :=
  let a := m.line * 128 + m.off
  if !tagPasses (b.tagAt a) m.ctx then (b.tagFail m.ctx a).emit (.data m.port a 2 []) else
  match b.rcFind m.region m.line with
  | none =>
    if m.write then
      let (x, b) := b.mwrite m.ctx a m.data
      b.emit (.data m.port a (wrStatus x) [])
    else
      let (x, b) := b.mread m.ctx a m.data.length
      b.emit (.data m.port a (if x.tagFail then 2 else 0) x.data)
  | some x =>
    if m.write then
      if x.st = .locked then
        let (x, b) := (b.inc RC_ERR_CNT.LOCK_WRITES 1 m.region).mwrite m.ctx a m.data
        b.emit (.data m.port a (wrStatus x) [])
      else
        let b := if x.st = .shared then
            ((b.recallInval m.line (some m.region)).rcPut { x with st := .modified }).sfEnter m.region m.line true else b
        ((b.plruUse m.region m.line x.way).rcWriteHit m.region m.line m.off m.data).emit (.data m.port a 0 [])
    else
      let (bs, b) := (b.plruUse m.region m.line x.way).rcReadHit m.region m.line m.off m.data.length
      b.emit (.data m.port a 0 bs)

/-- CACHE_FILL_RETURN (R389): the line arrives, and every port that waits for it is released. A fill for an access that
fails its tag check at the controller brings no line (R419). -/
def Block.doCacheFillReturn (b : Block) (r : Fin 32) (line : BitVec 39) : Block :=
  let mine := b.misses.filter (fun m => m.region == r.val && m.line == line.toNat)
  let good := mine.filter (fun m => tagPasses (b.tagAt (m.line * 128)) m.ctx)
  let b := { b with misses := b.misses.filter (fun m => !(m.region == r.val && m.line == line.toNat)) }
  let b := match good with
    | [] => b
    | m :: _ => if (b.rcFind r line.toNat).isSome then b
        else b.rcFill r m.ctx line.toNat (good.any (·.write))
  b.each mine Block.serveMiss

/-! ### Locking and preload -/

/-- Ways of a mask. -/
def waysOf (mask : Nat) : List Nat := (List.range 16).filter (bit mask)

/-- LOCK_MASK_WRITE (R392): a way newly reserved is written back and invalidated; a way given back loses its locked
lines. -/
def Block.doLockMaskWrite (b : Block) (r : Fin 32) (mask : BitVec 16) : Block :=
  let old := b.rd RC_CTRL.LOCK_MASK r
  let set := (waysOf mask.toNat).filter (fun w => !bit old w)
  let clr := (waysOf old).filter (fun w => !bit mask.toNat w)
  let b := b.rcFlush r (fun x => set.any (· == x.way)) true
  let b := b.each (b.rc.filter (fun x => x.region == r.val && x.st == LineSt.locked && clr.any (· == x.way))) Block.rcOut
  b.wr RC_CTRL.LOCK_MASK mask.toNat r

/-- Are all lines of a preload lines of HBM or peat present? -/
def Block.linesOk (b : Block) (line count : Nat) : Bool :=
  count ≥ 1 && b.isMem (line * 128) && b.isMem ((line + count - 1) * 128)

/-- RC_PRELOAD_GO (R392): a request ignored changes nothing but CFG_ERR; an accepted one starts filling and locking RC_PRELOAD_CNT.COUNT lines from line `addr` into way `way`. -/
def Block.doRcPreloadGo (b : Block) (r : Fin 32) (way : BitVec 4) (addr : BitVec 39) : Block :=
  let n := b.rd RC_PRELOAD_CNT.COUNT r
  if b.on RC_STATUS.PRELOAD_BUSY r || !b.linesOk addr.toNat n then b.cfgErr RC_STATUS.CFG_ERR r
  else
    let b := (b.wr RC_PRELOAD.WAY way.toNat r).wr RC_PRELOAD.ADDR addr.toNat r
    ({ b with pre := b.pre ++ [(⟨r, way.toNat, addr.toNat, n⟩ : RcPre)] }).wr RC_STATUS.PRELOAD_BUSY 1 r

/-- What became of the lines of a preload. -/
structure PreRes where
  done : Nat
  failed : Nat
  first : Nat
  pois : Nat
  deriving DecidableEq, Repr

/-- A line fails with a cause. -/
def PreRes.fail (x : PreRes) (cause : Nat) : PreRes :=
  { x with failed := x.failed + 1, first := if x.first = 3 then cause else x.first }

/-- One line of a preload (R392). -/
def Block.preLine (b : Block) (r way line : Nat) (x : PreRes) : PreRes × Block :=
  let b := b.rcLookup r line
  let locked := (b.rcSet r line).filter (fun y => y.st == LineSt.locked)
  if !bit (b.rd RC_CTRL.LOCK_MASK r) way then (x.fail 0, b)
  else if locked.any (fun y => y.line == line && y.way != way) then (x.fail 1, b)
  else if locked.any (fun y => y.line != line && y.way == way) then (x.fail 2, b)
  else
    let b := match b.rcFind r line with
      | some y => b.rcOut y
      | none => b
    let (ws, b) := b.fillWords 0xFFF line
    ({ x with done := x.done + 1, pois := x.pois + (ws.any (·.isPoison)).toNat },
     { b with rc := b.rc ++ [{ region := r, line := line, way := way, st := .locked, words := ws,
                               tag := b.tagAt (line * 128), bad := false : RcLine }] })

/-- RC_PRELOAD_END (R392): the preload of a region finishes and RC_PRELOAD_STATUS holds its result. -/
def Block.doRcPreloadEnd (b : Block) (r : Fin 32) : Block :=
  match b.pre.find? (fun x => x.region == r.val) with
  | none => b
  | some q =>
    let (x, b) := (List.range q.count).foldl (fun (acc : PreRes × Block) k => acc.2.preLine r q.way (q.line + k) acc.1)
      (⟨0, 0, 3, 0⟩, b)
    let b := { b with pre := b.pre.filter (fun x => x.region != r.val) }
    ((((b.wr RC_PRELOAD_STATUS.DONE x.done r).wr RC_PRELOAD_STATUS.FAILED x.failed r).wr
      RC_PRELOAD_STATUS.FIRST_CAUSE x.first r).wr RC_PRELOAD_STATUS.POISON x.pois r).wr RC_STATUS.PRELOAD_BUSY 0 r

/-- LOCK_WINDOW_ACCESS (R393): an access to the lock window of a region; its read answers the stored words and their codes. -/
def Block.doLockWindowAccess (b : Block) (src : Nat) (ctx : BitVec 12) (r : Fin 32) (w : BitVec 23) (op : MemOp) : Block :=
  b.perform src (b.reqCtx src ctx.toNat) (0x0301_0000_0000 + r.val * 2 ^ 23 + w.toNat) op

/-! ### Scrub, map-out, migration, packages, repair -/

/-- Is a word of memory served by a controller now: present, its stack not FAILED, its package not failed? -/
def Block.memLive (b : Block) (a : Nat) : Bool :=
  match b.place a with
  | .hbm m _ => b.rd MEM_STATUS.STATE m != 3
  | .peat o => (b.pkgFailed o).isNone
  | _ => false

/-- SCRUB_READ (R382): the patrol scrub reads one word and writes back its corrected or poisoned form. -/
def Block.doScrubRead (b : Block) (off : BitVec 46) (flip : BitVec 144) : Block :=
  let a := off.toNat / 16 * 16
  let b := b.upsetAt a flip.toNat
  if b.memLive a && b.on MEM_CTRL.SCRUB_EN (b.locOf a).1 then (b.ctlRead a 1).2 else b

/-- MEM_MAPOUT_GO (R371): a live map-out of a channel of stack `m`, or CFG_ERR and no other change. -/
def Block.doMemMapoutGo (b : Block) (m : Fin 12) (ch : BitVec 5) : Block :=
  let eff := b.rd MEM_CHMAP.EFFECTIVE m
  if b.rd MEM_STATUS.STATE m = 1 ∧ b.chOut m < 4 ∧ !bit eff ch.toNat then
    let pend := b.rd MEM_CHMAP.PENDING m
    let b := { b.wr MEM_MAPOUT.CHANNEL ch.toNat m with migCh := SMap.set 0 b.migCh m ch.toNat }
    let b := ((b.wr MEM_CHMAP.PENDING (setBits pend ch.toNat 1 1) m).wr
      MEM_CHMAP.EFFECTIVE (setBits eff ch.toNat 1 1) m).wr MEM_STATUS.STATE 2 m
    (b.wr MEM_STATUS.OUT (b.chOut m) m).wr MEM_STATUS.MIG_PROGRESS 0 m
  else b.cfgErr MEM_STATUS.CFG_ERR m

/-- Granules of a stack that are present. -/
def Block.granules (b : Block) (m : Nat) : Nat := (32 - b.chOut m) * 2 ^ 23

/-- MIGRATION_MOVE (R372): the next granule moves; each word is checked in correcting mode. After the last one the stack
returns to SERVING. -/
def Block.doMigrationMove (b : Block) (m : Fin 12) : Block :=
  if b.rd MEM_STATUS.STATE m ≠ 2 then b
  else
    let g := b.rd MEM_STATUS.MIG_PROGRESS m
    let b := if g < b.granules m then b.each (List.range 16) (fun b k =>
        (b.ctlRead (m.val * 2 ^ 36 + g * 256 + 16 * k) 3).2) else b
    let b := b.wr MEM_STATUS.MIG_PROGRESS (g + 1) m
    if g + 1 ≥ b.granules m then b.wr MEM_STATUS.STATE 1 m else b

/-- PEAT_PACKAGE_FAIL (R375): package `p` stops answering. -/
def Block.doPeatPackageFail (b : Block) (p : Fin 16) : Block :=
  let i := 12 + p.val / 4
  if bit (b.rd MEM_PKGMAP.EFFECTIVE i) (p.val % 4) then b
  else b.wr MEM_PKGMAP.FAILED (setBits (b.rd MEM_PKGMAP.FAILED i) (p.val % 4) 1 1) i

/-- MEM_PPR_GO (R395): a hard repair of a DRAM row, only while the stack is in BRINGUP; a write ignored changes nothing but
CFG_ERR. -/
def Block.doMemPprGo (b : Block) (m : Fin 12) (ch : BitVec 5) (pc : Bool) (bank : BitVec 4) (row : BitVec 18) : Block :=
  if b.rd MEM_STATUS.STATE m ≠ 0 ∨ b.on MEM_PPR_STATUS.BUSY m then b.cfgErr MEM_STATUS.CFG_ERR m
  else
    ((((b.wr MEM_PPR.CHANNEL ch.toNat m).wr MEM_PPR.PC pc.toNat m).wr MEM_PPR.BANK bank.toNat m).wr
      MEM_PPR.ROW row.toNat m).wr MEM_PPR_STATUS.BUSY 1 m

/-- PPR_COMPLETE (R395): the repair ends; `spares` rows are left in the bank. -/
def Block.doPprComplete (b : Block) (m : Fin 12) (ok : Bool) (spares : BitVec 8) : Block :=
  if !b.on MEM_PPR_STATUS.BUSY m then b
  else
    let b := (b.wr MEM_PPR_STATUS.BUSY 0 m).wr MEM_PPR_STATUS.SPARES spares.toNat m
    if ok then b.wr MEM_PPR_STATUS.DONE 1 m else b.wr MEM_PPR_STATUS.FAILED 1 m

end Sys2Proof.Machine
end

