-- ==== Sys2Proof/Machine/XlCmd.lean ====
section
/-! DEFINITION. Machine/XlCmd.lean: the commands of the translation unit (R403 to R435): walks, invalidations with their
drain, context tags, window removal. -/

namespace Sys2Proof.Machine
open Reg

/-! ### Walks -/

/-- WALK_COMPLETE (R409 to R413): a walk for a requester ends with a translation, which the shared TLB and, for a tile,
its TLB keep, or with a fault cause, which is recorded. `stale`: an invalidation that matches arrived while the walk ran,
and the result is used but kept nowhere (R435). The answer gives cause and physical address. -/
def Block.doWalkComplete (b : Block) (site : Option SiteIx) (ctx : BitVec 12) (va : W64) (write stale : Bool) : Block :=
  if stale then
    let c := b.xlEarly va.toNat
    let (r, b) := if c = 0 then b.walk ctx.toNat va.toNat write else ((⟨c, none, []⟩ : WalkRes), b)
    match r.leaf with
    | none => (b.xlFail r.cause ctx.toNat va.toNat).emit (.reply 4 r.cause [0])
    | some e =>
      let (x, b) := b.route ctx.toNat e va.toNat write
      let b := if x.cause = 0 then b else b.xlFail x.cause ctx.toNat va.toNat
      b.emit (.reply 4 x.cause [x.pa])
  else
    let (x, b) := match site with
      | some p => b.tileXl p ctx.toNat va.toNat write
      | none => b.xlate ctx.toNat va.toNat write
    b.emit (.reply 4 x.cause [x.pa])

/-! ### Invalidation and drain -/

/-- What must drain for an entry removed at a site. -/
def Block.drainOf (b : Block) (site : Nat) (e : TlbE) : DrainR := ⟨site, e.ctx, (e.vpn, e.page), b.dm.uid⟩

/-- Everything sent and not acknowledged. -/
def Block.openMsgs (b : Block) : List DmMsg := b.dm.send.flatMap (fun p => p.unacked ++ p.queue)

/-- Was an access issued under the removed entry: under its context, through its page, before it was removed (R416)? -/
def DrainR.covers (d : DrainR) (ctx uid : Nat) (ent : Option (Nat × Nat)) : Bool :=
  d.ctx == ctx && decide (uid < d.uid) && ent == some d.ent

/-- Is a source a site's tile, as the site last served it, or for 576 one of the translation unit's own users? -/
def Block.srcIs (b : Block) (src site : Nat) : Bool :=
  if site = 576 then decide (src ≥ 512) else decide (src < 512) && b.tileOf site == src

/-- Do a site's wait reads leave something to drain under a removed entry? A read whose wait has timed out keeps no entry, so
it counts for every entry of its context (assumption log 55). -/
def Site.waitsUnder (s : Site) (ctx : Nat) (d : DrainR) : Bool :=
  s.wait.any (fun w => w.reading && w.off.isSome && d.covers ctx w.since w.ent) || s.waitOld.any (fun x => x.1 == d.ctx)

/-- Does a held request leave something to drain (R62, R416)? A held write keeps its context and no entry (log 55). -/
def Block.heldUnder (b : Block) (d : DrainR) : HeldReq → Bool
  | .store ctx since _ _ => d.ctx == ctx && decide (since < d.uid)
  | .access h => b.srcIs h.src d.site && d.covers h.ctx h.uid h.ent
  | _ => false

/-- Has every access issued under a removed entry drained (R416)? Reads and atomics drain with their answer, writes with
their acknowledgement. -/
def Block.drained (b : Block) (site : Nat) (ds : List DrainR) : Bool :=
  (ds.filter (fun d => d.site == site)).all (fun d =>
    !(b.openMsgs.any (fun m => m.type == 0x10 && b.srcIs m.src site && d.covers m.ctx m.uid m.ent)
      || b.dm.tags.any (fun t => b.srcIs t.src site && d.covers t.ctx t.uid t.ent)
      || b.dm.holds.any (fun h => b.srcIs h.src site && d.covers h.ctx h.uid h.ent)
      || (decide (site < 576) && (b.site site).waitsUnder (b.ctxOf site) d)
      || b.heldQ.any (fun x => b.heldUnder d x.2)))

/-- Sites an invalidation is sent to: those ACTIVE, of regions awake and dies not isolated (R417). -/
def Block.invalSites (b : Block) : NSet :=
  (List.range 576).filter (fun p => b.rd TL_SITE.STATE 0 p == 0 && !b.asleep (p / 18) && !NSet.mem b.isolated (p / 72))

/-- XL_INVAL_GO (R415, R417): starts the invalidation of a scope, or CFG_ERR. -/
def Block.doXlInvalGo (b : Block) (scope : BitVec 2) (ctx : BitVec 12) (pages : BitVec 20) : Block :=
  let b := ((b.wr XL_INVAL.SCOPE scope.toNat).wr XL_INVAL.CTX ctx.toNat).wr XL_INVAL.PAGES pages.toNat
  if b.on XL_INVAL_STATUS.BUSY || scope == 3 || (scope == 2 && pages == 0) then b.cfgErr XL_INVAL_STATUS.CFG_ERR
  else
    let sites := b.invalSites
    let i : Inval := { scope := scope.toNat, ctx := ctx.toNat, va := b.rd XL_INVAL_VA.VA * 4096, pages := pages.toNat,
                       toArrive := sites, toReport := sites, drains := [] }
    let i := { i with drains := (b.stlb.filter i.hits).map (b.drainOf 576) }
    let b := { b with
      stlb := b.stlb.filter (fun e => !i.hits e)
      wcache := b.wcache.filter (fun w => !(i.scope == 0 || w.ctx == i.ctx))
      cctx := b.cctx.filter (fun e => !(i.scope == 0 || (i.scope == 1 && e.ctx == i.ctx)))
      inval := some i }
    b.wr XL_INVAL_STATUS.BUSY 1

/-- INVALIDATION_ARRIVE (R417): a tile removes the matching entries of its TLB. -/
def Block.doInvalidationArrive (b : Block) (p : SiteIx) : Block :=
  match b.inval with
  | none => b
  | some i =>
    if !NSet.mem i.toArrive p then b
    else
      let gone := (b.site p).tlb.filter i.hits
      let i := { i with toArrive := NSet.del i.toArrive p, drains := i.drains ++ gone.map (b.drainOf p) }
      let keep := (b.site p).tlb.filter (fun e => !i.hits e)
      let b := { b.onSite p (fun s => { s with tlb := keep }) with inval := some i }
      b.wr TL_TLB_STATUS.DRAINING 1 p

/-- DRAIN_REPORT (R417): a tile the invalidation has reached reports once its accesses have drained. -/
def Block.doDrainReport (b : Block) (p : SiteIx) : Block :=
  match b.inval with
  | none => b
  | some i =>
    if NSet.mem i.toArrive p || !NSet.mem i.toReport p || !b.drained p i.drains then b
    else { b with inval := some { i with toReport := NSet.del i.toReport p } }.wr TL_TLB_STATUS.DRAINING 0 p

/-- INVALIDATION_COMPLETE (R417): with every report in and the unit's own users drained, BUSY clears and DONE_SEQ
increments. -/
def Block.doInvalidationComplete (b : Block) : Block :=
  match b.inval with
  | none => b
  | some i =>
    if i.toReport.isEmpty && b.drained 576 i.drains then
      ({ b with inval := none }.wr XL_INVAL_STATUS.BUSY 0).addWrap XL_INVAL_STATUS.DONE_SEQ
    else b

/-! ### Context tags -/

/-- Is a granule present: one of the ranges of R419, registers and lock windows included? -/
def Block.granulePresent (b : Block) (g : Nat) : Bool := b.place (g * 2 ^ 21) != .absent

/-- XL_TAG_SET_GO (R421): starts writing a tag on a range of granules, or CFG_ERR. -/
def Block.doXlTagSetGo (b : Block) (first : BitVec 25) (count : BitVec 20) (tag : BitVec 12) : Block :=
  let b := ((b.wr XL_TAG_SET.FIRST first.toNat).wr XL_TAG_SET.COUNT count.toNat).wr XL_TAG_SET.TAG tag.toNat
  let ok := !b.on XL_TAG_STATUS.BUSY && count != 0
    && (List.range count.toNat).all (fun k => b.granulePresent (first.toNat + k))
  if ok then { b with tagSet := some (first.toNat, count.toNat, tag.toNat) }.wr XL_TAG_STATUS.BUSY 1
  else b.cfgErr XL_TAG_STATUS.CFG_ERR

/-- Apply a tag change at the holders and the region caches (R421). -/
def Block.applyTags (b : Block) (first count tag : Nat) : Block :=
  let within := fun (x : RcLine) => decide (first ≤ x.line * 128 / 2 ^ 21 ∧ x.line * 128 / 2 ^ 21 < first + count)
  let b := (List.range 32).foldl (fun b r => Block.rcFlush b r within false) b
  { b with
    rc := b.rc.map (fun x => if within x then { x with tag := tag } else x)
    tags := (List.range count).foldl (fun t k => SMap.set 0xFFF t (first + k) tag) b.tags }

/-- TAG_SET_COMPLETE (R421): every holder and region cache has applied the change. -/
def Block.doTagSetComplete (b : Block) : Block :=
  match b.tagSet with
  | none => b
  | some (first, count, tag) =>
    (({ b with tagSet := none }.applyTags first count tag).wr XL_TAG_STATUS.BUSY 0).addWrap XL_TAG_STATUS.DONE_SEQ

/-- XL_TAG_RD (R422): reads the tag of one granule as its holder has it: TAG and PRESENT. -/
def Block.doXlTagRd (b : Block) (g : BitVec 25) : Block :=
  let b := b.wr XL_TAG_RD.GRANULE g.toNat
  b.emit (.reply 5 (b.granulePresent g.toNat).toNat [SMap.get 0xFFF b.tags g.toNat])

/-! ### Window removal -/

/-- XL_WINVAL_GO (R430): removes a window, or all, from both N-die caches, or CFG_ERR. -/
def Block.doXlWinvalGo (b : Block) (index : BitVec 13) (all : Bool) : Block :=
  let b := (b.wr XL_WINVAL.INDEX index.toNat).wr XL_WINVAL.ALL all.toNat
  if b.on XL_WINVAL_STATUS.BUSY then b.cfgErr XL_WINVAL_STATUS.CFG_ERR
  else { b with wins := b.wins.filter (fun w => !(all || w.index == index.toNat)) }.wr XL_WINVAL_STATUS.BUSY 1

/-- Is a held request a write to a local store (R62)? -/
def HeldReq.isStore : HeldReq → Bool
  | .store _ _ _ _ => true
  | _ => false

/-- WINDOW_REMOVAL_COMPLETE (R430): BUSY clears and DONE_SEQ increments. An access admitted through a window ends within
the command that admits it, but for a write to a held tile, which drains with its delivery. -/
def Block.doWindowRemovalComplete (b : Block) : Block :=
  if b.on XL_WINVAL_STATUS.BUSY && !b.heldQ.any (fun x => x.2.isStore) then (b.wr XL_WINVAL_STATUS.BUSY 0).addWrap XL_WINVAL_STATUS.DONE_SEQ else b

end Sys2Proof.Machine
end

