-- ==== Sys2Proof/Machine/Bracken.lean ====
section
/-! DEFINITION. Machine/Bracken.lean: Bracken's queues, rings, watches, work records and completion records (R436 to R454,
R461 to R473, R665). -/

namespace Sys2Proof.Machine
open Reg

/-! ### Words in memory -/

/-- 64-bit words of a list of bytes. -/
def words64 (n : Nat) (bs : List Byte) : List Nat := (List.range n).map (fun k => leNat ((bs.drop (8 * k)).take 8))

/-- Bytes of 64-bit words. -/
def bytesOf (ws : List Nat) : List Byte := ws.flatMap (leBytes 8)

/-- The phase tag of running index `i` in a ring of `size` entries (R444). -/
def phaseOf (i size : Nat) : Nat := (i / size + 1) % 256

/-! ### Queues -/

/-- Does a queue table entry keep R437 and R438? -/
def Block.queueOk (b : Block) (ws : List Nat) : Bool :=
  let w := fun k => ws.getD k 0
  bits (w 0) 5 3 == 0 && bits (w 0) 8 4 ≤ 10 && bits (w 0) 16 12 != 0xFFF && bits (w 0) 48 16 == 0
    && b.on BK_SLOT.EN 0 (bits (w 0) 0 5)
    && w 1 % 4096 == 0 && bits (w 1) 48 16 == 0 && w 2 % 8 == 0 && bits (w 2) 48 16 == 0 && bits (w 3) 24 8 == 0
    && (ws.drop 4).all (· == 0)
    && (!bit (w 0) 31 || (0x1000 ≤ bits (w 3) 0 24 && bits (w 3) 0 24 ≤ 0x1FFF))

/-- State of a queue (R439): DISABLED while it was never enabled. -/
def Block.qState (b : Block) (q : Nat) : Nat := (b.queue q).elim 0 (·.st)

/-- WATCH_USED. -/
def Block.showWatches (b : Block) : Block := b.wr BK_STATUS.WATCH_USED b.bk.watches.length

/-- Release a held watch entry. -/
def Block.dropWatch (b : Block) (q : Nat) : Block :=
  (b.onBk (fun k => { k with watches := k.watches.filter (fun w => w.queue != q) })).showWatches

/-- A queue operation as written to BK_QCMD. -/
def Block.qcmd (b : Block) (q op skip : Nat) : Block :=
  ((b.wr BK_QCMD.QUEUE q).wr BK_QCMD.OP op).wr BK_QCMD.SKIP skip

/-- Run R446 from its first line: the next entry is read, or the queue arms and reads its doorbell word. -/
def Block.serve (b : Block) (q : Nat) : Block :=
  b.onQueue q (fun x => if x.cons ≠ x.prodSeen then { x with st := 2, rd := 1, tries := 0 } else { x with st := 1, rd := 2 })

/-- QUEUE_ENABLE (R438, R440). -/
def Block.doQueueEnable (b : Block) (q : BitVec 10) (skip : BitVec 32) : Block :=
  let b := b.qcmd q.toNat 1 skip.toNat
  if b.qState q.toNat ≠ 0 then b.cfgErr BK_STATUS.CFG_ERR
  else
    let (ws, bad, b) := b.tableWords (b.rd BK_QTAB.BASE * 2 ^ 16 + 64 * q.toNat) 8
    if bad || !b.queueOk ws then b.cfgErr BK_STATUS.CFG_ERR
    else
      let old := b.queue q.toNat
      let x : Queue := { q := q.toNat, w0 := ws.getD 0 0, ringVa := ws.getD 1 0, consVa := ws.getD 2 0, w3 := ws.getD 3 0,
                         st := 1, cause := 0, dbPend := false, cons := skip.toNat, prodSeen := skip.toNat,
                         faultRun := old.elim 0 (·.faultRun), rd := 2, tries := 0,
                         pub := decide (old.elim 0 (·.cons) ≠ skip.toNat) }
      b.onBk (fun k => { k with queues := k.queues.filter (fun y => y.q != q.toNat) ++ [x] })

/-- QUEUE_DISABLE (R440). BK_QCMD.SKIP keeps what was written (R7). -/
def Block.doQueueDisable (b : Block) (q : BitVec 10) : Block :=
  let b := b.qcmd q.toNat 2 (b.rd BK_QCMD.SKIP)
  if b.qState q.toNat = 0 then b.cfgErr BK_STATUS.CFG_ERR
  else (b.onQueue q.toNat (fun x => { x with st := 0, rd := 0, dbPend := false })).dropWatch q.toNat

/-- QUEUE_PARK (R440). -/
def Block.doQueuePark (b : Block) (q : BitVec 10) : Block :=
  let b := b.qcmd q.toNat 3 (b.rd BK_QCMD.SKIP)
  let st := b.qState q.toNat
  if 1 ≤ st ∧ st ≤ 4 then b.park q.toNat 5 else b.cfgErr BK_STATUS.CFG_ERR

/-- QUEUE_RESUME (R440, R473): a SKIP beyond the producer leaves the queue ARMED until the next doorbell. -/
def Block.doQueueResume (b : Block) (q : BitVec 10) (skip : BitVec 32) : Block :=
  let b := b.qcmd q.toNat 4 skip.toNat
  match b.queue q.toNat with
  | none => b.cfgErr BK_STATUS.CFG_ERR
  | some x =>
    if x.st ≠ 5 then b.cfgErr BK_STATUS.CFG_ERR
    else
      let ahead := (x.prodSeen + 2 ^ 32 - x.cons) % 2 ^ 32
      let b := b.onQueue q.toNat (fun x => { x with cons := (x.cons + skip.toNat) % 2 ^ 32, faultRun := 0, cause := 0,
                                                     pub := x.pub || skip != 0 })
      if skip.toNat > ahead then b.onQueue q.toNat (fun x => { x with st := 1, rd := 0 }) else b.serve q.toNat

/-- DOORBELL_NOTIFY (R445, R446, R628, R665). -/
def Block.doDoorbellNotify (b : Block) (q : BitVec 10) : Block :=
  match b.queue q.toNat with
  | none => b
  | some x =>
    if x.st = 0 ∨ x.st = 5 then b
    else
      let wake := x.st == 1 && x.rd == 0 && b.bkRuns
      b.onQueue q.toNat (fun x => { x with dbPend := true, rd := if wake then 2 else x.rd })

/-! ### Accepting entries -/

/-- Does a ring entry break R442 or R443? -/
def entryBad (ws : List Nat) : Bool :=
  let w := fun k => ws.getD k 0
  let ty := bits (w 0) 8 3
  let width := if bit (w 0) 15 then 8 else 4
  ty ≥ 3 || bits (w 0) 16 16 != 0 || [1, 2, 3, 5].any (fun k => bits (w k) 48 16 != 0) || bits (w 7) 38 26 != 0
    || w 2 % 32 != 0 || w 3 % 8 != 0 || w 5 % width != 0 || (bits (w 0) 13 2 == 3 && bit (w 0) 15)
    || (ty == 0 && !(1 ≤ bits (w 7) 32 6 && bits (w 7) 32 6 ≤ 32))

/-- May the head entry of a queue be accepted (R436, R454)? -/
def Block.roomFor (b : Block) (x : Queue) : Bool := decide (b.bk.cmds.length < 16384) && b.on BK_SLOT.EN 0 x.slot

/-- Entries of the handoff ring of a control core. -/
def Block.handSize (b : Block) (h : Nat) : Nat := 2 ^ (b.rd BK_HAND.LOG2_SIZE 0 h + 6)

/-- Is the next slot of a handoff ring in use (R450)? -/
def Block.handFull (b : Block) (h : Nat) : Bool :=
  let slot := SMap.get 0 b.bk.handProd h % b.handSize h
  b.bk.cmds.any (fun c => c.hand == some (h, slot))

/-- A command table index not in use (R436). Which one no rule says: a free value. -/
def Block.freeIndex (b : Block) : Nat × Block :=
  let (v, b) := b.draw 14
  (((spin v 16384).find? (fun i => !b.bk.cmds.any (fun c => c.tag % 2 ^ 14 == i))).getD 0, b)

/-- Write the handoff record of a command and interrupt its control core (R450). -/
def Block.handoff (b : Block) (h : Nat) (c : Cmd) : Block :=
  let i := SMap.get 0 b.bk.handProd h
  let n := b.handSize h
  let b := b.onCmd c.tag (fun c => { c with hand := some (h, i % n) })
  let b := b.onBk (fun k => { k with handProd := SMap.set 0 k.handProd h ((i + 1) % 2 ^ 32) })
  let ws := [phaseOf i n + c.queue * 2 ^ 8 + c.tag * 2 ^ 32, c.index + c.prog * 2 ^ 32, c.args, c.deadline]
  let (_, b) := b.mwrite 0xFFF (b.rd BK_HAND.BASE 0 h * 2 ^ 12 + 32 * (i % n)) (plain (bytesOf ws))
  b.irq h 1

/-- What a command's acceptance starts (R443, R450, R453, R560). -/
def Block.startCmd (b : Block) (h : Nat) (c : Cmd) (forced : Option (Nat × Option Cap)) : Block :=
  match forced with
  | some (status, cap) => (b.complete c.tag status cap none).settle c.tag
  | none =>
    if b.isTerm c.qctx then
      (b.complete c.tag stFault (some { cause := 0, exc := xPoison, ctx := c.qctx }) (some (SMap.get 0 b.termSeq c.qctx))).settle c.tag
    else if c.typ = 1 then b.handoff h c
    else
      let n := if c.typ = 0 then c.nsteps else 0
      let b := b.onCmd c.tag (fun c => { c with closed := true })
      let b := b.onBk (fun k => { k with steps := k.steps ++ (List.range n).map (fun j =>
        ({ tag := c.tag, prog := c.prog, va := (c.args + 256 * j) % 2 ^ 48, last := false, tile := none } : PStep)) })
      b.tryOk c.tag

/-- Accept the head entry of a queue (R40, R41, R436), or leave the queue BLOCKED. `forced`: the command completes at once
with a status. Then the queue is served on. -/
def Block.acceptEntry (b : Block) (x : Queue) (ent : List Nat) (forced : Option (Nat × Option Cap)) : Block :=
  let w := fun k => ent.getD k 0
  let ty := bits (w 0) 8 3
  if !b.roomFor x || (forced.isNone && ty == 1 && !b.isTerm x.ctx && b.handFull x.hcore) then
    b.onQueue x.q (fun x => { x with st := 4, rd := 0 })
  else
    let (idx, b) := (b.dropWatch x.q).freeIndex
    let gen := SMap.get 0 b.bk.gens idx
    let c : Cmd := { tag := idx + gen * 2 ^ 14, queue := x.q, slot := x.slot, qctx := x.ctx, index := x.cons,
                     user := bits (w 0) 32 32, typ := ty, prog := bits (w 7) 0 32, nsteps := bits (w 7) 32 6, args := w 1,
                     complVa := w 2, inc := bit (w 0) 11, incVa := w 3, incVal := w 4, ingest := b.now,
                     deadline := b.now + x.lat - 1, closed := false, done := false, issued := false, hand := none,
                     route := x.route, qpn := bits x.w3 0 24, rkey := bits x.w3 32 32, lastTile := none, lost := false }
    let b := b.onBk (fun k => { k with cmds := k.cmds ++ [c], gens := SMap.set 0 k.gens idx ((gen + 1) % 2 ^ 18) })
    let b := (b.wr BK_STATUS.CMDS b.bk.cmds.length).inc BK_CMD_CNT.ACCEPTED
    let b := b.onQueue x.q (fun x => { x with cons := (x.cons + 1) % 2 ^ 32, pub := true })
    (b.startCmd x.hcore c forced).serve x.q

/-- A wait that cannot be read (R448): the command completes with FAULT. -/
def waitFault : Option (Nat × Option Cap) := some (stFault, some { cause := 4 })

/-- Update the watch of a queue. -/
def Block.onWatch (b : Block) (q : Nat) (f : Watch → Watch) : Block :=
  b.onBk (fun k => { k with watches := k.watches.map (fun y => if y.queue == q then f y else y) })

/-- The watched value in the 8-byte word read (R441). -/
def Watch.pick (w : Watch) (v : Nat) : Nat := if w.wide then v else v / 2 ^ (8 * (w.va % 8)) % 2 ^ 32

/-- The 8-byte word of a watched value has been read (R448): accepted once the condition holds, but nothing is while
Bracken does not run (R628, R665). -/
def Block.watchGot (b : Block) (q v : Nat) (bad : Bool) : Block :=
  match b.bk.watches.find? (fun w => w.queue == q), b.queue q with
  | some w, some x =>
    if !b.bkRuns then b.onWatch q (fun y => { y with reading := false })
    else if bad then b.acceptEntry x w.ent waitFault
    else if waitMet w.cmp (w.pick v) w.thr w.mask then b.acceptEntry x w.ent none
    else b.onWatch q (fun y => { y with reading := false })
  | _, _ => b

/-- Read a watched value through the shared TLB (R441): a local read returns with WATCH_READ_RETURN, a remote one with
READ_RESP. A translation that fails completes the command (R448). -/
def Block.watchRead (b : Block) (q : Nat) : Block :=
  match b.bk.watches.find? (fun w => w.queue == q), b.queue q with
  | some w, some x =>
    if w.reading then b
    else
      let (t, b) := b.xlate x.ctx w.va false
      if t.cause ≠ 0 then b.watchGot q 0 true
      else
        let far := nodeOf t.pa != b.rd XL_NODE.SELF
        let b := b.onWatch q (fun y => { y with reading := true, pa := some t.pa, remote := far })
        if !far then b
        else
          let (ok, b) := b.dmRead (nodeOf t.pa) 0 512 x.ctx (offOf t.pa / 8 * 8) 8 (.watch q) t.ent
          if ok then b else b.watchGot q 0 true
  | _, _ => b

/-- Take a watch entry for a head entry that waits (R448). -/
def Block.startWait (b : Block) (x : Queue) (ent : List Nat) : Block :=
  let w := fun k => ent.getD k 0
  if !b.roomFor x || b.bk.watches.length ≥ 256 then b.onQueue x.q (fun x => { x with st := 4, rd := 0 })
  else
    let cmp := bits (w 0) 13 2
    let wide := bit (w 0) 15
    let m := if wide then 2 ^ 64 else 2 ^ 32
    let e : Watch := { queue := x.q, va := sext48 (w 5), pa := none, remote := false, cmp := cmp,
                       thr := w 6 % m, mask := if cmp = 3 then w 6 / 2 ^ 32 else m - 1, wide := wide, reading := false,
                       ticks := some 0, ent := ent }
    let b := (b.onBk (fun k => { k with watches := k.watches ++ [e] })).showWatches
    (b.onQueue x.q (fun x => { x with st := 3, rd := 0 })).watchRead x.q

/-- Judge the head entry that has been read: park, read again, wait or accept (R443, R444, R446). -/
def Block.entryGot (b : Block) (x : Queue) (r : BRes) (tries : Nat) : Block :=
  if r.fail ≠ 0 then b.park x.q 2
  else
    let ent := words64 8 r.bytes
    if bits (ent.getD 0 0) 0 8 ≠ phaseOf x.cons x.size then
      if tries ≥ 64 then b.park x.q 1 else b.onQueue x.q (fun x => { x with st := 2, rd := 3, tries := tries })
    else if entryBad ent then b.acceptEntry x ent (some (stInvalid, none))
    else if bit (ent.getD 0 0) 12 then b.startWait x ent
    else b.acceptEntry x ent none

/-- Read the head entry (R441). -/
def Block.entryRead (b : Block) (x : Queue) (far : Option (List Byte)) (tries : Nat) : Block :=
  let (r, b) := b.bread x.ctx (sext48 (x.ringVa + 64 * (x.cons % x.size))) 64 far
  b.entryGot x r tries

/-- Read the doorbell word (R445, R446). It lies at a local offset; its granule is checked under the queue's context. -/
def Block.doorbellRead (b : Block) (x : Queue) : Block :=
  let (r, b) := b.mread x.ctx (b.rd BK_DB.BASE * 2 ^ 16 + 64 * x.q) 8
  let b := b.onQueue x.q (fun x => { x with dbPend := false, rd := 0 })
  if r.tagFail ∨ r.pois then b.park x.q 2
  else
    let prod := leNat r.bytes % 2 ^ 32
    let b := b.onQueue x.q (fun x => { x with prodSeen := prod })
    if (prod + 2 ^ 32 - x.cons) % 2 ^ 32 > x.size then b.park x.q 3
    else if prod = x.cons then b
    else b.onQueue x.q (fun x => { x with st := 2, rd := 1, tries := 0 })

/-- RING_ENTRY_FETCH (R441, R443, R446, R448, R665): a read of the queue's head entry or of its doorbell word returns. A
BLOCKED queue tries its head entry again. `far` is what another node's memory returns where the ring lies there. -/
def Block.doRingEntryFetch (b : Block) (q : BitVec 10) (far : Option (List Byte)) : Block :=
  match b.queue q.toNat with
  | none => b
  | some x =>
    if !b.bkRuns then b
    else if x.st = 4 then
      if b.bk.watches.any (fun w => w.queue == x.q) then
        (b.onQueue x.q (fun x => { x with st := 3 })).watchRead x.q
      else b.entryRead x far 0
    else if x.rd = 1 then b.entryRead x far 0
    else if x.rd = 2 then b.doorbellRead x
    else b

/-! ### Watches -/

/-- WATCH_READ_RETURN (R448): a read of a watched value of this module's memory returns. -/
def Block.doWatchReadReturn (b : Block) (q : BitVec 10) : Block :=
  match b.bk.watches.find? (fun w => w.queue == q.toNat), b.queue q.toNat with
  | some w, some x =>
    if w.reading && !w.remote && b.bkRuns then
      let (r, b) := b.mread x.ctx (offOf (w.pa.getD 0) / 8 * 8) 8
      b.watchGot q.toNat (leNat r.bytes) (r.tagFail || r.pois)
    else b
  | _, _ => b

/-- WATCH_NOTIFY (R448): a write was performed to the 128-byte line of a local watched value. -/
def Block.doWatchNotify (b : Block) (q : BitVec 10) : Block :=
  match b.bk.watches.find? (fun w => w.queue == q.toNat) with
  | none => b
  | some w => if w.remote || !b.bkRuns then b else b.watchRead q.toNat

/-- WATCH_POLL (R448): REMOTE_POLL_US have passed for a remote watched value. -/
def Block.doWatchPoll (b : Block) (q : BitVec 10) : Block :=
  match b.bk.watches.find? (fun w => w.queue == q.toNat) with
  | none => b
  | some w => if w.remote && b.bkRuns then b.watchRead q.toNat else b

/-- WAIT_TIMEOUT (R449): the condition has not held within WAIT_TICKS boundaries of the first read. -/
def Block.doWaitTimeout (b : Block) (q : BitVec 10) : Block :=
  match b.bk.watches.find? (fun w => w.queue == q.toNat), b.queue q.toNat with
  | some w, some x =>
    if x.waitTicks ≠ 0 ∧ w.ticks.getD 0 ≥ x.waitTicks ∧ b.bkRuns then b.acceptEntry x w.ent (some (stWaitTimeout, none))
    else b
  | _, _ => b

/-! ### Work records -/

/-- The command a work record may act on (R452): in flight, not CLOSEd and not completed. -/
def Block.workCmd (b : Block) (tag : Nat) : Option Cmd :=
  match b.cmd tag with
  | none => none
  | some c => if c.closed || c.done || c.issued then none else some c

/-- A work record that is ignored (R452, R468). -/
def Block.workIgnored (b : Block) (tag : Nat) : Block := b.bkRec 6 none tag

/-- WORK_ROWS (R451, R452, R457): a segment of candidate rows. -/
def Block.doWorkRows (b : Block) (tag prog key : BitVec 32) (rows : BitVec 7) (va : BitVec 48) : Block :=
  if !b.on BK_CTRL.ENABLE then b else
  match b.workCmd tag.toNat with
  | none => b.workIgnored tag.toNat
  | some c =>
    if rows = 0 ∨ rows.toNat > 64 then b.workIgnored tag.toNat
    else b.onBk (fun k => { k with segs := k.segs ++
      [({ tag := c.tag, slot := c.slot, key := key.toNat, prog := prog.toNat, va := va.toNat, first := 0, rows := rows.toNat,
          deadline := c.deadline, ingest := c.ingest } : Seg)] })

/-- WORK_STEP (R451, R459): a step to place, on a given logical tile where one is named. -/
def Block.doWorkStep (b : Block) (tag prog : BitVec 32) (va : BitVec 48) (last : Bool) (tile : Option LTile) : Block :=
  if !b.on BK_CTRL.ENABLE then b else
  match b.workCmd tag.toNat with
  | none => b.workIgnored tag.toNat
  | some c => b.onBk (fun k => { k with steps := k.steps ++
      [({ tag := c.tag, prog := prog.toNat, va := va.toNat, last := last, tile := tile.map (·.val) } : PStep)] })

/-- WORK_CLOSE (R452): the command has no further records; its handoff entry is free (R450). -/
def Block.doWorkClose (b : Block) (tag : BitVec 32) : Block :=
  if !b.on BK_CTRL.ENABLE then b else
  match b.workCmd tag.toNat with
  | none => b.workIgnored tag.toNat
  | some c => ((b.onCmd c.tag (fun c => { c with closed := true, hand := none })).tryOk c.tag).settle c.tag

/-- WORK_DONE (R452): the command completes at once with a status; its unplanned rows and steps go. A bad status has a fault
record, whose number the completion record carries (R461). -/
def Block.doWorkDone (b : Block) (tag : BitVec 32) (status : BitVec 8) : Block :=
  if !b.on BK_CTRL.ENABLE then b else
  match b.workCmd tag.toNat with
  | none => b.workIgnored tag.toNat
  | some c =>
    let st := status.toNat
    let good := st == 0 || (0x10 ≤ st && st ≤ 0x1F)
    let b := b.onCmd c.tag (fun c => { c with closed := true, hand := none })
    let seq := if good then none else some b.nextSeq
    let b := if good then b else b.bkRec 7 (some c.qctx) c.tag
    (b.complete c.tag (if good then st else 0x1F) none seq).settle c.tag

/-- A work record read from a work ring (R451, R452): ignored where a reserved field is nonzero or KIND is reserved. -/
def Block.workRecord (b : Block) (ws : List Nat) : Block :=
  let w := fun k => ws.getD k 0
  let kind := bits (w 0) 8 3
  let tag : BitVec 32 := BitVec.ofNat 32 (bits (w 0) 32 32)
  let prog : BitVec 32 := BitVec.ofNat 32 (bits (w 1) 0 32)
  let va : BitVec 48 := BitVec.ofNat 48 (w 2)
  if kind ≥ 4 || bits (w 0) 22 10 != 0 || bits (w 1) 39 25 != 0 || bits (w 2) 48 16 != 0 || bits (w 3) 40 24 != 0
  then b.workIgnored tag.toNat
  else if kind = 0 then b.doWorkRows tag prog (BitVec.ofNat 32 (bits (w 3) 0 32)) (BitVec.ofNat 7 (bits (w 1) 32 7)) va
  else if kind = 1 then
    let l := bits (w 0) 13 9
    b.doWorkStep tag prog va (bit (w 0) 11) (if bit (w 0) 12 then (if h : l < 512 then some ⟨l, h⟩ else none) else none)
  else if kind = 2 then b.doWorkClose tag
  else b.doWorkDone tag (BitVec.ofNat 8 (bits (w 3) 32 8))

/-- Consume a work ring until it is empty or its next record is stale (R451). -/
def Block.workRingN : Nat → Block → Nat → Block
  | 0, b, _ => b
  | n + 1, b, h =>
    let cons := b.rd BK_WORK_DB.CONS 0 h
    if cons = b.rd BK_WORK_DB.PROD 0 h then b
    else
      let size := 2 ^ (b.rd BK_WORK.LOG2_SIZE 0 h + 6)
      let (ws, bad, b) := b.tableWords (b.rd BK_WORK.BASE 0 h * 2 ^ 12 + 32 * (cons % size)) 4
      if bad then Block.workRingN n ((b.wr BK_WORK_DB.CONS (cons + 1) 0 h).bkRec 6 none 0) h
      else if bits (ws.getD 0 0) 0 8 ≠ phaseOf cons size then b
      else Block.workRingN n ((b.wr BK_WORK_DB.CONS (cons + 1) 0 h).workRecord ws) h

/-- Consume a work ring, as many records as the ring holds. -/
def Block.workRing (b : Block) (h : Nat) : Block :=
  if b.on BK_CTRL.ENABLE then Block.workRingN (2 ^ (b.rd BK_WORK.LOG2_SIZE 0 h + 6)) b h else b

/-- WORK_DOORBELL (R451): control core `h` writes its producer index and Bracken consumes the work ring. -/
def Block.doWorkDoorbell (b : Block) (h : Fin 8) (prod : BitVec 32) : Block :=
  (b.wr BK_WORK_DB.PROD prod.toNat 0 h).workRing h

/-- STALE_ENTRY_REREAD (R446, R451): 32 ns after a stale read a queue's head entry is read again, at most 64 times, or a
work record until it is current. -/
def Block.doStaleEntryReread (b : Block) (t : BitVec 10 ⊕ Fin 8) (far : Option (List Byte)) : Block :=
  match t with
  | .inr h => b.workRing h
  | .inl q =>
    match b.queue q.toNat with
    | none => b
    | some x => if x.rd = 3 ∧ b.bkRuns then b.entryRead x far (x.tries + 1) else b

/-! ### Bracken as a whole -/

/-- The tick of the first plan Bracken can still close. -/
def Block.firstPlan (b : Block) : Nat :=
  let t := b.nextPlan
  if NSet.mem b.bk.off t then t + 1 else t

/-- Bracken runs again (R628, R665): each held watch reads its value again, and queues whose doorbell rang meanwhile read
their doorbell word. -/
def Block.bkResume (b : Block) : Block :=
  if !b.bkRuns then b
  else
    let b := b.onBk (fun k => { k with watches := k.watches.map (fun w => { w with reading := false }) })
    let b := b.each b.bk.watches (fun b w => b.watchRead w.queue)
    b.onBk (fun k => { k with queues := k.queues.map (fun x =>
      if x.st = 1 ∧ x.rd = 0 ∧ x.dbPend then { x with rd := 2 } else x) })

/-- BRACKEN_ENABLE (R665). -/
def Block.doBrackenEnable (b : Block) : Block :=
  if b.on BK_CTRL.ENABLE then b
  else
    let b := (b.wr BK_CTRL.ENABLE 1).wr BK_STATUS.RUN 1
    let first := b.firstPlan
    let b := b.each (b.bk.cmds.filter (fun c => decide (c.deadline < first) && !c.done)) (fun b c =>
      (b.complete c.tag stAborted (some { cause := 2 }) none).settle c.tag)
    b.bkResume.each (List.range 8) Block.workRing

/-- BRACKEN_DISABLE (R665). -/
def Block.doBrackenDisable (b : Block) : Block := (b.wr BK_CTRL.ENABLE 0).wr BK_STATUS.RUN 0

/-- CONS_PUBLISH (R447): CONS is written to CONS_VA with path release; a write that fails is dropped. -/
def Block.doConsPublish (b : Block) (q : BitVec 10) : Block :=
  match b.queue q.toNat with
  | none => b
  | some x =>
    if x.pub ∧ x.consVa ≠ 0 then
      (b.onQueue x.q (fun x => { x with pub := false })).bwrite 0 512 x.ctx (sext48 x.consVa) (plain (leBytes 8 x.cons)) 1 none |>.2
    else b

/-! ### Completion records -/

/-- STEP_RELEASED (R505): every write and atomic of a command's ended step has completed for release or been abandoned. -/
def Block.doStepReleased (b : Block) (tag : BitVec 32) (p : SiteIx) : Block :=
  let mine := fun (o : Option Issuer) => o.any (fun o => o.site == p.val && o.tag == tag.toNat)
  let open_ := b.dm.send.any (fun s => (s.unacked ++ s.queue).any (fun m => (m.type == 0x10 || m.type == 0x13) && mine m.owner))
    || (b.dm.holds ++ b.heldAccs).any (fun h => mine h.owner)
  if open_ then b else b.onBk (fun k => { k with unreleased := k.unreleased.filter (· != (tag.toNat, p.val)) })

/-- The four words of a record (R461, R462). -/
def CRec.words (r : CRec) : List Nat :=
  [r.status + r.late.toNat * 2 ^ 8 + r.cmd.queue * 2 ^ 16 + r.cmd.user * 2 ^ 32, r.cmd.index + r.cmd.tag * 2 ^ 32, r.w2, r.w3]

/-- Replace or remove the record of a command that has been sent. -/
def Block.onRec (b : Block) (tag : Nat) (f : CRec → Option CRec) : Block :=
  b.onBk (fun k => { k with recs := k.recs.filterMap (fun r => if r.cmd.tag == tag && r.phase ≥ 1 then f r else some r) })

/-- The record has completed for release or been diverted: the increment may follow (R464). -/
def Block.recDone (b : Block) (tag : Nat) : Block :=
  b.onRec tag (fun r => if r.cmd.inc then some { r with phase := 2 } else none)

/-- Divert a record or an increment to the dead-letter ring (R466, R467): 1 MISALIGNED, 2 TRANSLATION, 3 CONTEXT_TAG,
4 ABSENT, 5 ROCE_ERROR, 6 ROCE_TIMEOUT, 7 NO_PATH. The increment follows a diverted record (R464). -/
def Block.divert (b : Block) (r : CRec) (cause : Nat) (inc : Bool) : Block :=
  let seq := b.nextSeq
  let b := (b.inc BK_ERR_CNT.DIVERTED).report
    { cls := 14, cause := 4, level := 4, ctx := some r.cmd.qctx, addr := r.cmd.complVa, cmdTag := r.cmd.tag }
  let size := 2 ^ (b.rd BK_DL.LOG2_SIZE + 6)
  let prod := b.rd BK_DL_IDX.PROD
  if (prod + 2 ^ 32 - b.rd BK_DL_IDX.CONS) % 2 ^ 32 ≥ size then b.inc BK_ERR_CNT.DL_DROPS
  else
    let w4 := r.status + cause * 2 ^ 8 + (!inc && r.cmd.inc).toNat * 2 ^ 12 + inc.toNat * 2 ^ 13
    let ws := { r with status := 0x07 }.words ++ [w4, r.cmd.complVa, b.now, seq]
    let (_, b) := b.mwrite 0xFFF (b.rd BK_DL.BASE * 2 ^ 12 + 64 * (prod % size)) (plain (bytesOf ws))
    b.addWrap BK_DL_IDX.PROD

/-- A record, or its increment, that is out has failed (R466): diverted. -/
def Block.recFailed (b : Block) (tag cause : Nat) : Block :=
  match b.bk.recs.find? (fun r => r.cmd.tag == tag && (r.phase == 1 || r.phase == 3)) with
  | none => b
  | some r =>
    if r.phase = 1 then (b.divert r cause false).recDone tag
    else (b.divert r cause true).onRec tag (fun _ => none)

/-- A record or increment that is out has completed for release. -/
def Block.recAcked (b : Block) (tag : Nat) : Block :=
  match b.bk.recs.find? (fun r => r.cmd.tag == tag && (r.phase == 1 || r.phase == 3)) with
  | none => b
  | some r => if r.phase = 1 then b.recDone tag else b.onRec tag (fun _ => none)

/-- Issue a requester operation on a queue pair (R464, R487): false where it is not READY. -/
def Block.roceReq (b : Block) (c : Cmd) (inc : Bool) (va : Nat) (data : List Byte) : Bool × Block :=
  match b.qps.find? (fun q => q.i + 0x1000 == c.qpn && q.st == 1) with
  | none => (false, b)
  | some q =>
    let b := { b with qps := b.qps.map (fun (x : Qp) => if x.i == q.i
      then { x with spsn := (x.spsn + 1) % 2 ^ 24, reqs := x.reqs ++ [(q.spsn, c.tag, inc, 0, 0)] } else x) }
    (true, b.roceTx q (if inc then 1 else 0) [q.spsn, c.rkey, va] data)

/-- The source number of a record (R491). -/
def Block.recSrc (b : Block) (r : CRec) : Nat := r.src.elim 512 b.tileOf

/-- Do the release conditions of a record hold (R505)? -/
def Block.recReady (b : Block) (r : CRec) : Bool :=
  let run := r.src.elim none (fun p => (b.site p).run.map (fun x => (b.tileOf p, x.tick, x.d.index)))
  !(b.openWrites (b.recSrc r) none).any (· < r.uid)
    && (b.placedOf r.cmd.tag).all (fun p => run == some (p.l, p.tick, p.index))
    && !b.bk.unreleased.any (fun u => u.1 == r.cmd.tag)

/-- Send a record to its destination, or divert it (R464 to R466). -/
def Block.sendRec (b : Block) (r : CRec) : Block :=
  let c := r.cmd
  let fail := fun (b : Block) n => (b.divert r n false).recDone c.tag
  if r.bad || ((b.cmd c.tag).elim false (·.lost)) then fail b 7
  else if c.complVa % 32 ≠ 0 then fail b 1
  else
    let bs := bytesOf r.words
    if c.route then
      match b.roceReq c false c.complVa bs with
      | (true, b) => b
      | (false, b) => fail b 5
    else
      let ms : MBytes := (bs.take 16).map (fun x => (x, r.pois0)) ++ (bs.drop 16).map (fun x => (x, r.pois1))
      let cls := r.src.elim 0 b.clsOf
      let (x, b) := b.bwrite cls (b.recSrc r) c.qctx (sext48 c.complVa) ms 1 (some c.tag)
      if x.fail = 1 then fail b 2
      else if x.fail = 2 then fail b 3
      else if x.fail = 3 then fail b 4
      else if x.fail = 4 then fail b 7
      else if nodeOf x.pa = b.rd XL_NODE.SELF then b.recDone c.tag else b

/-- Take a waiting record off the list. -/
def Block.takeRec (b : Block) (r : CRec) : Block := b.onBk (fun k => { k with recs := k.recs.erase r })

/-- Complete the `dma.cmpl` of a site, whose record is the command's or is none (R166). -/
def Block.cmplDone (b : Block) (src : Option Nat) : Block :=
  match src with
  | none => b
  | some p => match (b.site p).flight.find? (fun i => i.op == .dmaCmpl && !i.done) with
    | some i => b.markDone p i.id
    | none => b

/-- Issue a record (R33, R35, R463, R465, R470): the command has its record. -/
def Block.issueRec (b : Block) (r : CRec) : Block :=
  let c := r.cmd
  let st := r.status
  let good := r.src.isNone || st == 0 || (0x10 ≤ st && st ≤ 0x1F)
  let b := if good then b else b.bkRec 7 (some c.qctx) c.tag
  let late := decide (b.now > c.deadline)
  let b := if late then
      { b.inc TK_LATE_CNT.LATE_CMDS with tick := { b.tick with facts := { b.tick.facts with late := true } } }
    else b
  let r' := { r with status := if good then st else 0x1F, late := late, phase := 1, w2 := if r.src.isNone then b.now else r.w2 }
  let b := (b.takeRec r).onBk (fun k => { k with recs := k.recs ++ [r'] })
  let b := (b.onCmd c.tag (fun c => { c with issued := true })).inc BK_CMD_CNT.COMPLETED
  let b := (b.cmplDone r.src).faultRun c.queue (if r.src.isNone then st else stOk)
  (b.sendRec r').settle c.tag

/-- COMPLETION_RECORD_WRITE (R464, R465, R505): the record that a step's `dma.cmpl` (at site `src`) or Bracken holds for a
command is issued, once its release conditions hold. A record of a command that has one already is dropped, a step's with
a duplicate-completion fault record (R166). -/
def Block.doCompletionRecordWrite (b : Block) (tag : BitVec 32) (src : Option SiteIx) : Block :=
  let s := src.map (·.val)
  match b.bk.recs.find? (fun r => r.cmd.tag == tag.toNat && r.src == s && r.phase == 0) with
  | none => b
  | some r =>
    if (b.cmd tag.toNat).elim true (·.issued) then
      let b := b.takeRec r
      if s.isNone then b else (b.bkRec 5 (some r.cmd.qctx) tag.toNat).cmplDone s
    else if !b.recReady r || (s.isNone && !b.bkRuns) || b.tick.fatal then b
    else b.issueRec r

/-- Perform the increment of a command (R464), or divert it with INC_FAILED (R466). -/
def Block.sendInc (b : Block) (r : CRec) : Block :=
  let c := r.cmd
  let fail := fun (b : Block) n => (b.divert r n true).onRec c.tag (fun _ => none)
  let out := fun (b : Block) => b.onRec c.tag (fun r => some { r with phase := 3 })
  if c.incVa % 8 ≠ 0 then fail b 1
  else if c.route then
    match b.roceReq c true c.incVa (leBytes 8 c.incVal) with
    | (true, b) => out b
    | (false, b) => fail b 5
  else
    let (x, b) := b.xlate c.qctx (sext48 c.incVa) true
    if x.cause ≠ 0 then fail b 2
    else if nodeOf x.pa = b.rd XL_NODE.SELF then
      match b.matomic c.qctx (offOf x.pa) 8 0 c.incVal 0 with
      | (_, _, .ok, b) => b.onRec c.tag (fun _ => none)
      | (_, _, .tag, b) => fail b 3
      | (_, _, .absent, b) => fail b 4
    else
      match b.dmAtomic (nodeOf x.pa) (r.src.elim 0 b.clsOf) (b.recSrc r) 2 c.qctx (offOf x.pa) 0 1 c.incVal 0 .bracken (some c.tag) with
      | (true, b) => out b
      | (false, b) => fail b 7

/-- COMPLETION_INCREMENT (R464): the increment is performed with global release after the record has completed for release
or been diverted. -/
def Block.doCompletionIncrement (b : Block) (tag : BitVec 32) : Block :=
  match b.bk.recs.find? (fun r => r.cmd.tag == tag.toNat && r.phase == 2) with
  | none => b
  | some r => if !(b.openWrites (b.recSrc r) (some r.cmd.qctx)).isEmpty then b else b.sendInc r

end Sys2Proof.Machine
end

