-- ==== Sys2Proof/Machine/Plan.lean ====
section
/-! DEFINITION. Machine/Plan.lean: the plan close: batches, placing, shedding, program pages, the lists and their seeds
(R26 to R32, R41 to R44, R119 to R121, R256, R455 to R460, R563). -/

namespace Sys2Proof.Machine
open Reg

/-! ### Order -/

/-- Lexicographic order of lists of numbers. -/
def listLt : List Nat → List Nat → Bool
  | [], [] => false
  | [], _ :: _ => true
  | _ :: _, [] => false
  | x :: a, y :: c => if x < y then true else if y < x then false else listLt a c

/-- Put an element behind all whose key is not greater. -/
def insertKey {α : Type} (key : α → List Nat) (x : α) : List α → List α
  | [] => [x]
  | y :: r => if listLt (key x) (key y) then x :: y :: r else y :: insertKey key x r

/-- Sort by key, stably. -/
def sortKey {α : Type} (key : α → List Nat) (l : List α) : List α := l.foldl (fun acc x => insertKey key x acc) []

/-! ### Programs -/

/-- An entry of the program table (R455). -/
structure Prog where
  id : Nat
  entry : Nat
  pages : Nat
  image : Nat
  fixed : Nat
  row : Nat
  latn : Nat
  deriving DecidableEq, Repr

/-- Read the program table entry of a program; none where it does not hold the program in full. -/
def Block.readProg (b : Block) (p : Nat) : Option Prog × Block :=
  let (ws, bad, b) := b.tableWords (b.rd BK_PROG.BASE * 2 ^ 17 + 32 * (p % 4096)) 4
  let w := fun k => ws.getD k 0
  let n := bits (w 0) 32 4 + 1
  let img := w 1
  let inHbm := fun a => match b.place a with
    | .hbm _ _ => true
    | _ => false
  let ok := !bad && bit (w 0) 36 && bits (w 0) 0 32 == p && bits (w 0) 37 13 < 512 * n && img % 4096 == 0 && inHbm img
    && inHbm (img + 4096 * n - 1)
  (if ok then some { id := p, entry := bits (w 0) 37 13, pages := n, image := img, fixed := bits (w 2) 0 32,
                     row := bits (w 2) 32 16, latn := bits (w 2) 48 16 } else none, b)

/-- BUDGET_CYCLES of a step of a program on logical tile `l` (R456). -/
def Block.budget (b : Block) (g : Prog) (rows l : Nat) : Nat :=
  g.fixed + g.row * rows + g.latn * (b.rd TW_LAT.LAT (b.siteOf l) - 136)

/-- PERIOD_US of the tick of a plan (R16). -/
def Block.periodOf (b : Block) (t : Nat) : Nat :=
  let at_ := b.rd TK_PERIOD_AT.AT_TICK
  if at_ ≠ 0 ∧ t ≥ at_ then b.rd TK_PERIOD.NEXT_US else b.rd TK_PERIOD.PERIOD_US

/-- Eighths of the base clock at a step (R585). -/
def stepEighths (s : Nat) : Nat := if s = 0 then 8 else if s = 1 then 7 else if s = 2 then 6 else 4

/-- Tile cycles of `us` microseconds in the region of logical tile `l` at its clock in force (R585, R586). -/
def Block.cyclesOf (b : Block) (l us : Nat) : Nat := us * b.rd PW_CLK.BASE_MHZ * stepEighths (b.stepOf (l / 16)) / 8

/-- Capacity of logical tile `l` in the plan for tick `t` (R456). -/
def Block.capacity (b : Block) (t l : Nat) : Nat := b.cyclesOf l (b.periodOf t) * (100 - b.rd BK_CTRL.HEADROOM_PCT) / 100

/-! ### Batches -/

/-- Take rows from the front of segments until 64 rows or 15 segments are held; the last segment may split (R457, R458). -/
def takeBatch : Nat → Nat → List Seg → List Seg × List Seg
  | _, _, [] => ([], [])
  | _, 0, l => ([], l)
  | r, n + 1, s :: rest =>
    if r = 0 then ([], s :: rest)
    else if s.rows ≤ r then
      let (x, l) := takeBatch (r - s.rows) n rest
      (s :: x, l)
    else ([{ s with rows := r }], { s with first := s.first + r, rows := s.rows - r } :: rest)

/-- Rows of segments. -/
def rowsOf (l : List Seg) : Nat := (l.map (·.rows)).sum

/-- Does a batch close in the plan for tick `t` (R42, R457): it is full, at 15 segments with more behind it, or due? -/
def closes (t : Nat) (x rest : List Seg) : Bool :=
  rowsOf x == 64 || (x.length == 15 && !rest.isEmpty) || decide ((x.headD Seg.empty).deadline ≤ t)

/-- The batches of a group that the plan for tick `t` closes (R42, R457). -/
def closeBatches (t : Nat) : Nat → List Seg → List (List Seg)
  | 0, _ => []
  | _, [] => []
  | n + 1, s :: l =>
    let (x, rest) := takeBatch 64 15 (s :: l)
    if closes t x rest then x :: closeBatches t n rest else []

/-- Work that one plan may place: a batch, or a step. -/
structure PItem where
  tags : List Nat
  segs : List Seg
  step : Option PStep
  prog : Nat
  slot : Nat
  group : List Nat
  deadline : Nat
  key : List Nat
  deriving DecidableEq, Repr

/-- The order of precedence of R460, LAST steps behind the batches of their command. -/
def Block.placeKey (b : Block) (t slot deadline ingest : Nat) (last : Bool) : List Nat :=
  [(decide (deadline > t)).toNat, 7 - b.rd BK_SLOT.PRIO 0 slot, deadline, slot, ingest, last.toNat]

/-- The group of a segment: its slot, key and program, and the batch it is tied to. -/
def Seg.group (s : Seg) : List Nat :=
  [s.slot, s.key, s.prog] ++ s.pin.elim [] (fun p => [p.1, p.2.1, p.2.2])

/-- Pending segments that the plan for tick `t` may use (R41), by group in order of the earliest deadline. A batch that
must be issued again (R39) is a group of its own and closes as it is. -/
def Block.batchItems (b : Block) (t : Nat) : List PItem :=
  let segs := b.bk.segs.filter (fun s => decide (t ≥ s.ingest + 2))
  let gk := Seg.group
  let order := sortKey (fun s => [s.deadline, s.ingest, s.tag]) segs
  let groups := (order.map gk).eraseDups
  groups.flatMap (fun g =>
    let mine := order.filter (fun s => gk s == g)
    (if mine.any (fun s => s.pin.isSome) then [mine] else closeBatches t (rowsOf mine) mine).map (fun x =>
      let f := x.headD Seg.empty
      { tags := (x.map (·.tag)).eraseDups, segs := x, step := none, prog := f.prog, slot := f.slot, group := g,
        deadline := f.deadline, key := b.placeKey t f.slot f.deadline f.ingest false }))

/-- Steps that the plan for tick `t` may place. -/
def Block.stepItems (b : Block) (t : Nat) : List PItem :=
  b.bk.steps.filterMap (fun s =>
    match b.cmd s.tag with
    | none => none
    | some c =>
      if t < c.ingest + 2 then none
      else some { tags := [s.tag], segs := [], step := some s, prog := s.prog, slot := c.slot, group := [], deadline := c.deadline,
                  key := b.placeKey t c.slot c.deadline c.ingest s.last })

/-! ### Placing -/

/-- A step placed in the plan that is being made. `cyc` counts its budget and the allowance of R44. -/
structure PlanStep where
  l : Nat
  tags : List Nat
  segs : List Seg
  va : Nat
  last : Bool
  prog : Prog
  p0 : Nat
  cyc : Nat
  budget : Nat
  slot : Nat
  block : Nat
  pack : Bool
  deriving DecidableEq, Repr

/-- The plan that is being made: its steps, and the groups of which a batch found no place. -/
structure PlanW where
  t : Nat
  hints : PlanHints
  progs : List (Nat × Option Prog)
  steps : List PlanStep
  failed : List (List Nat)
  deriving DecidableEq, Repr

/-- Planned cycles of a tile. -/
def PlanW.load (w : PlanW) (l : Nat) : Nat := ((w.steps.filter (fun s => s.l == l)).map (·.cyc)).sum

/-- Page of the image in page `g` of the tile's instruction memory: 1 + PROG_ID × 16 + page, 0 for none. -/
def Block.pageHas (b : Block) (l g : Nat) : Nat :=
  let p := b.siteOf l
  if b.on TL_IMEM_PAGE.VALID p g ∨ b.on TL_IMEM_PAGE.LOADING p g then SMap.get 0 b.bk.resident (l * 16 + g) else 0

/-- Programs of the steps of the running list and of spilled steps of a tile (R120). -/
def Block.busyProgs (b : Block) (l : Nat) : List Nat :=
  let s := b.site (b.siteOf l)
  (s.run.toList ++ s.todo).map (fun r => (SMap.get 0 b.bk.resident (l * 16 + r.d.entry / 512) - 1) / 16)

/-- Where a program lies or may be loaded on a tile (R119, R120): its first page, and whether it must be loaded. Which of
the pages that may be overwritten are taken no rule says: they are searched from a free one, `v`, on. -/
def Block.findPages (b : Block) (w : PlanW) (v l : Nat) (g : Prog) : Option (Nat × Bool) :=
  let mine := w.steps.filter (fun s => s.l == l)
  match mine.find? (fun s => s.prog.id == g.id) with
  | some s => some (s.p0, false)
  | none =>
    let used := fun k => mine.any (fun s => decide (s.p0 ≤ k ∧ k < s.p0 + s.prog.pages))
    let busy := b.busyProgs l
    let p := b.siteOf l
    let blocked := fun k => used k || b.on TL_IMEM_PAGE.LOADING p k || (b.pageHas l k != 0 && busy.any (· == (b.pageHas l k - 1) / 16))
    let starts := List.range (17 - g.pages)
    let ks := fun p0 => (List.range g.pages).map (p0 + ·)
    match starts.find? (fun p0 => (List.range g.pages).all (fun i => b.pageHas l (p0 + i) == 1 + g.id * 16 + i && !used (p0 + i))) with
    | some p0 => some (p0, false)
    | none => ((spin v (17 - g.pages)).find? (fun p0 => (ks p0).all (fun k => !blocked k))).map (fun p0 => (p0, true))

/-- The allowance of R44 in cycles on a tile; none where a fabric-pool fetch would stand in a hard slot. -/
def Block.allowance (b : Block) (w : PlanW) (prog slot l : Nat) : Option Nat :=
  let has := fun (s : List (BitVec 32)) => s.any (fun x => x.toNat == prog)
  let r := if has w.hints.remote then b.rd TK_BUDGET.REMOTE_ALLOW_US else 0
  let f := if has w.hints.fabric then b.rd TK_BUDGET.FABRIC_ALLOW_US else 0
  if has w.hints.fabric ∧ !b.on BK_SLOT.MODE 0 slot then none else some (b.cyclesOf l (r + f))

/-- Does a reset or sleep request keep Bracken from planning on a logical tile in the plan for tick `t` (R605)? -/
def Block.noPlan (b : Block) (t l : Nat) : Bool :=
  match b.rst with
  | some r => (if r.op = 0 then r.target == l else r.target == l / 16) && (r.begun || decide (r.at_ ≤ t))
  | none => false

/-- A tile for a step (R459): among those where it fits, one that holds the program, then the fewest planned cycles, then
the lowest number. The tile, first page, cost and budget. -/
def Block.chooseTile (b : Block) (w : PlanW) (v : Nat) (cands : List Nat) (g : Prog) (slot rows : Nat) : Option (Nat × Nat × Nat × Nat) :=
  let fits := cands.filterMap (fun l =>
    if !b.served l || b.noPlan w.t l || (w.steps.filter (fun s => s.l == l)).length ≥ 32 then none
    else
      match b.allowance w g.id slot l, b.findPages w v l g with
      | some a, some (p0, ld) =>
        let bud := b.budget g rows l
        if w.load l + bud + a ≤ b.capacity w.t l then some ([ld.toNat, w.load l, l], (l, p0, bud + a, bud)) else none
      | _, _ => none)
  ((sortKey (·.1) fits).head?).map (·.2)

/-- A batch argument block that may be used (R458), searched from a free one, `v`, on. -/
def Block.freeBlock (b : Block) (w : PlanW) (v : Nat) : Option Nat :=
  (spin v 16384).find? (fun k => decide (SMap.get 0 b.bk.blocks k ≤ b.now)
    && !b.bk.placed.any (fun p => !p.segs.isEmpty && p.block == k) && !w.steps.any (fun s => !s.segs.isEmpty && s.block == k))

/-- Would the step take its slot beyond QUOTA_PCT of the module's plan cycles (R454, R460)? -/
def Block.overQuota (b : Block) (w : PlanW) (slot cyc : Nat) : Bool :=
  let q := b.rd BK_SLOT.QUOTA_PCT 0 slot
  let used := ((w.steps.filter (fun s => s.slot == slot && !s.pack)).map (·.cyc)).sum
  let all := (((List.range 512).filter b.served).map (b.capacity w.t)).sum
  q != 0 && decide (100 * (used + cyc) > q * all)

/-- Take a command out of the plan that is being made: its own steps, and its segments of batches. -/
def PlanW.drop (w : PlanW) (tag : Nat) : PlanW :=
  { w with steps := w.steps.filterMap (fun s =>
      if s.tags.any (· == tag) then
        let tags := s.tags.filter (· != tag)
        if tags.isEmpty then none else some { s with tags := tags, segs := s.segs.filter (fun x => x.tag != tag) }
      else some s) }

/-- Complete a command while the plan is made. -/
def Block.endInPlan (b : Block) (w : PlanW) (tag status : Nat) (cap : Option Cap) (seq : Option Nat) : Block × PlanW :=
  ((b.complete tag status cap seq).settle tag, w.drop tag)

/-- Work that is due and does not fit is shed (R43, R460): every command that owns it and cannot wait. -/
def Block.noRoom (b : Block) (w : PlanW) (it : PItem) : Block × PlanW :=
  let w := if it.segs.isEmpty then w else { w with failed := w.failed ++ [it.group] }
  if it.deadline > w.t then (b, w)
  else
    it.tags.foldl (fun (acc : Block × PlanW) tag =>
      match acc.1.cmd tag with
      | none => acc
      | some c =>
        if c.deadline ≤ w.t then
          let b := if c.done || c.issued then acc.1 else acc.1.inc BK_ERR_CNT.SHED
          b.endInPlan acc.2 tag stShed none none
        else acc) (b, w)

/-- Is `x` the front of the pending segment `s`? -/
def Seg.fronts (x s : Seg) : Bool :=
  s.tag == x.tag && s.va == x.va && s.key == x.key && s.prog == x.prog && s.first == x.first && s.pin == x.pin
  && decide (x.rows ≤ s.rows)

/-- Take a batch's rows off the pending segments: a split segment goes on with FIRST advanced. -/
def takeRows (segs : List Seg) (x : Seg) : List Seg :=
  match segs with
  | [] => []
  | s :: r =>
    if x.fronts s then
      if s.rows = x.rows then r else { s with first := s.first + x.rows, rows := s.rows - x.rows } :: r
    else s :: takeRows r x

/-- Is the batch's segment still pending? -/
def Block.segLive (b : Block) (x : Seg) : Bool := b.bk.segs.any x.fronts

/-- Candidate tiles of an item (R459); none: the step must wait for other steps of its command. -/
def Block.candidates (b : Block) (it : PItem) : Option (List Nat) :=
  match it.step with
  | none => some (((it.segs.headD Seg.empty).pin).elim (List.range 512) (fun p => [p.1]))
  | some s =>
    if s.last && (b.bk.segs.any (fun x => x.tag == s.tag) || b.bk.steps.any (fun x => x.tag == s.tag && !x.last)) then none
    else match s.tile with
      | some l => some [l]
      | none =>
        match (if s.last then (b.cmd s.tag).bind (·.lastTile) else none) with
        | some l => some [l]
        | none => some (List.range 512)

/-- Put an item in the plan on a tile. -/
def Block.putItem (b : Block) (w : PlanW) (it : PItem) (g : Prog) (pl : Nat × Nat × Nat × Nat) (blk : Nat) : Block × PlanW :=
  let (l, p0, cyc, bud) := pl
  let va := match it.step with
    | some s => s.va
    | none => (b.rd BK_BARG_VA.VA * 2 ^ 22 + 256 * blk) % 2 ^ 48
  let s : PlanStep := { l := l, tags := it.tags, segs := it.segs, va := va, last := it.step.elim false (·.last), prog := g,
                        p0 := p0, cyc := cyc, budget := bud, slot := it.slot, block := blk, pack := false }
  let b := match it.step with
    | some st => b.onBk (fun k => { k with steps := k.steps.erase st })
    | none =>
      let b := b.onBk (fun k => { k with segs := it.segs.foldl takeRows k.segs })
      it.tags.foldl (fun b t => b.onCmd t (fun c => { c with lastTile := some l })) b
  (b, { w with steps := w.steps ++ [s] })

/-- Place one item, or leave or shed it (R455 to R460). A batch from which a command completed meanwhile has lost rows:
what is left closes as R457 says, or stays in the pool. -/
def Block.placeItem (b : Block) (w : PlanW) (it : PItem) : Block × PlanW :=
  let segs := it.segs.filter b.segLive
  let live := match it.step with
    | some s => b.bk.steps.any (· == s)
    | none => !segs.isEmpty
  if !live then (b, w) else
  let cut := decide (segs.length < it.segs.length)
  let it := if it.step.isSome then it else { it with
    segs := segs, tags := (segs.map (·.tag)).eraseDups, deadline := (segs.headD Seg.empty).deadline }
  if cut && !closes w.t segs [] && (segs.headD Seg.empty).pin.isNone then (b, w) else
  if w.failed.any (· == it.group) && !it.segs.isEmpty && it.deadline > w.t then (b, w)
  else
    match (w.progs.lookup it.prog).join with
    | none => it.tags.foldl (fun (acc : Block × PlanW) tag =>
        acc.1.endInPlan acc.2 tag stFault (some { cause := 5 }) none) (b, w)
    | some g =>
      match b.candidates it with
      | none => b.noRoom w it
      | some cands =>
        let (v, b) := b.draw 32
        match b.chooseTile w v cands g it.slot (rowsOf it.segs) with
        | none => b.noRoom w it
        | some pl =>
          if it.deadline > w.t && b.overQuota w it.slot pl.2.2.1 then b.noRoom w it
          else if it.segs.isEmpty then b.putItem w it g pl 0
          else match b.freeBlock w v with
            | some k => b.putItem w it g pl k
            | none => b.noRoom w it

/-! ### Pages -/

/-- Start loading one page (R121): LOADING set, VALID cleared. -/
def Block.startLoad (b : Block) (l g : Nat) (pr : Prog) (i : Nat) : Block :=
  let p := b.siteOf l
  let b := b.onBk (fun k => { k with
    resident := SMap.set 0 k.resident (l * 16 + g) (1 + pr.id * 16 + i)
    loads := k.loads.filter (fun x => !(x.l == l && x.page == g)) ++ [⟨l, g, pr.id, pr.image + 4096 * i⟩] })
  (b.wr TL_IMEM_PAGE.LOADING 1 p g).wr TL_IMEM_PAGE.VALID 0 p g

/-- Start the loads a planned step needs (R120). -/
def Block.loadProg (b : Block) (s : PlanStep) : Block :=
  b.each (List.range s.prog.pages) (fun b i =>
    if b.pageHas s.l (s.p0 + i) = 1 + s.prog.id * 16 + i then b else b.startLoad s.l (s.p0 + i) s.prog i)

/-- The receiving bank of a site (R26). -/
def Block.onNextBank (b : Block) (p : Nat) (f : PlanBank → PlanBank) : Block :=
  if b.on TL_STATUS.BANK p then b.onSite p (fun s => { s with bank0 := f s.bank0 })
  else b.onSite p (fun s => { s with bank1 := f s.bank1 })

/-- The receiving bank of a site. -/
def Block.nextBank (b : Block) (p : Nat) : PlanBank :=
  if b.on TL_STATUS.BANK p then (b.site p).bank0 else (b.site p).bank1

/-- A list header becomes COMPLETE: the tile reads the seed of every step of the list (R27, R256),
none under FORCE_RNE (R253). -/
def Block.completeList (b : Block) (p : Nat) : Block :=
  let k := b.nextBank p
  let b := b.onNextBank p (fun k => { k with complete := true })
  if b.on FR_FMT_CTRL.FORCE_RNE p then b
  else
  let base := b.rd FR_FMT_CTRL.SEED_BASE p * 2 ^ 15
  b.onBk (fun x => { x with seedReads := x.seedReads ++ k.steps.map (fun d =>
    ({ site := p, tick := k.tick, index := d.index, ctx := d.ctx, off := base + 8 * d.ctx } : SeedRead)) })

/-- PAGE_LOAD_END (R120, R121): the page holds its part of the image; a list that waited for its pages is complete. -/
def Block.doPageLoadEnd (b : Block) (l : LTile) (page : BitVec 4) : Block :=
  match b.bk.loads.find? (fun x => x.l == l.val && x.page == page.toNat) with
  | none => b
  | some x =>
    let p := b.siteOf l
    let (r, b) := b.mread 0xFFF x.image 4096
    let b := b.onSite p (fun s => { s with imem := (List.range 512).foldl (fun m i =>
      SMap.set 0 m (page.toNat * 512 + i) (leNat ((r.bytes.drop (8 * i)).take 8))) s.imem })
    let b := ((b.wr TL_IMEM_PAGE.PROG_ID x.prog p page.toNat).wr TL_IMEM_PAGE.VALID 1 p page.toNat).wr
      TL_IMEM_PAGE.LOADING 0 p page.toNat
    let b := b.onBk (fun k => { k with loads := k.loads.filter (fun y => !(y.l == l.val && y.page == page.toNat)) })
    let k := b.nextBank p
    if !b.bk.loads.any (fun y => y.l == l.val) && !k.complete && k.tick > b.now && !k.steps.isEmpty then b.completeList p else b

/-- What a seed read gives (R256, R257): the seed, or the exception a rounding that needs it raises. -/
def Block.seedRead (b : Block) (s : SeedRead) : Nat × Nat × Block :=
  let (r, b) := b.mread s.ctx s.off 8
  (leNat r.bytes, if r.tagFail then 7 else if r.pois then 8 else 0, b)

/-- SEED_READ_RETURN (R256, R257): a step's seed becomes valid, or failed; it replaces one that a retirement copied. -/
def Block.doSeedReadReturn (b : Block) (p : SiteIx) (index : BitVec 5) : Block :=
  match b.bk.seedReads.find? (fun s => s.site == p.val && s.index == index.toNat) with
  | none => b
  | some s =>
    let (v, e, b) := b.seedRead s
    let b := b.onBk (fun k => { k with seedReads := k.seedReads.erase s })
    let put := fun (k : PlanBank) => if k.tick ≠ s.tick then k else { k with
      seeds := k.seeds.filter (fun x => x.1 != s.index) ++ [(s.index, v)]
      seedBad :=
        let bad := k.seedBad.filter (fun x => x / 2 != s.index)
        if e = 8 then NSet.add bad (2 * s.index) else if e = 7 then NSet.add bad (2 * s.index + 1) else bad }
    let run := fun (r : StepRun) => if r.spilled && r.tick == s.tick && r.d.index == s.index then { r with seed := some (v, e) } else r
    b.onSite p (fun x => { x with bank0 := put x.bank0, bank1 := put x.bank1, run := x.run.map run, todo := x.todo.map run })

/-! ### The lists -/

/-- Local offset of batch argument block `k` (R458). -/
def Block.blockAt (b : Block) (k : Nat) : Nat := b.rd BK_BARG_PA.BASE * 2 ^ 22 + 256 * k

/-- The batch argument block (R458): the header and the segments; the rest of the 256 bytes is free. -/
def Block.writeBlock (b : Block) (s : PlanStep) : Block :=
  let head := s.segs.length + rowsOf s.segs * 2 ^ 8 + (s.segs.headD Seg.empty).key * 2 ^ 32
  let ws := [head, 0] ++ s.segs.flatMap (fun x => [x.va + x.first * 2 ^ 48 + x.rows * 2 ^ 54, x.tag])
  let n := 256 - 8 * ws.length
  let r := b.draw (8 * n)
  Block.done (r.2.mwrite 0xFFF (r.2.blockAt s.block) (plain (bytesOf ws ++ leBytes n r.1)))

/-- The step descriptor of a planned step (R28). -/
def Block.descOf (b : Block) (w : PlanW) (s : PlanStep) (index : Nat) : StepDesc :=
  let c := b.cmd (s.tags.headD 0)
  { entry := s.p0 * 512 + s.prog.entry, ctx := if s.pack then 0xFFF else c.elim 0 (·.qctx), slot := if s.pack then 0 else s.slot,
    soft := !s.pack && b.on BK_SLOT.MODE 0 s.slot, swap := w.hints.swap.any (fun x => x.toNat == s.prog.id), pack := s.pack,
    index := index, budget := s.budget % 2 ^ 32, cmdTag := if s.pack then 0 else s.tags.headD 0, argsVa := s.va,
    rows := rowsOf s.segs, deadlineLo := if s.pack then 0 else c.elim 0 (fun c => c.deadline % 2 ^ 32) }

/-- A pack step for a tile, where its list has room (R563). -/
def Block.packStep (b : Block) (w : PlanW) (v l : Nat) (h : List Nat) (g : Prog) : Option PlanStep :=
  let p := b.siteOf l
  let x := b.site p
  let due := x.packRerun || x.packLast.elim true (fun t => decide (t + b.rd FLT_TP_CTRL.INTERVAL_TICKS ≤ b.now))
  let cyc := h.getD 2 0 % 2 ^ 32
  if due && !b.noPlan w.t l && (w.steps.filter (fun s => s.l == l)).length ≤ 31 && decide (w.load l + cyc ≤ b.capacity w.t l) then
    (b.findPages w v l g).map (fun q =>
      { l := l, tags := [], segs := [], va := bits (h.getD 3 0) 0 48, last := false, prog := g, p0 := q.1, cyc := cyc,
        budget := cyc, slot := 0, block := 0, pack := true })
  else none

/-- Hand one tile its list (R27, R29, R31). It is complete once every page its steps need is loaded. -/
def Block.streamList (b : Block) (w : PlanW) (l : Nat) : Block :=
  let mine := w.steps.filter (fun s => s.l == l)
  let z := mine.zip (List.range mine.length)
  let b := b.each mine (fun b s => if s.segs.isEmpty then b else b.writeBlock s)
  let ds := z.map (fun x => b.descOf w x.1 x.2)
  let new := z.filterMap (fun x => if x.1.pack then none else
    some ({ tags := x.1.tags, l := l, tick := w.t, index := x.2, prog := x.1.prog.id, segs := x.1.segs, last := x.1.last,
            va := x.1.va, block := x.1.block } : Placed))
  let b := b.onBk (fun k => { k with placed := k.placed ++ new })
  let b := b.each mine Block.loadProg
  let p := b.siteOf l
  let b := b.onNextBank p (fun _ => { tick := w.t, complete := false, steps := ds, seeds := [], seedBad := [] })
  let ready := mine.all (fun s => (List.range s.prog.pages).all (fun i => b.on TL_IMEM_PAGE.VALID p (s.p0 + i)))
  if ready then b.completeList p else b

/-- Complete EXPAND_LATE every request of deadline `t` or earlier that neither CLOSE nor DONE has ended (R452), FAULT every
command of a terminated context that has unplanned work (R560), and shed what a resync has carried past its deadline with
work unplanned: no plan may hold that work any more (R41, R43). -/
def Block.beforePlan (b : Block) (t : Nat) : Block :=
  let b := b.each (b.bk.cmds.filter (fun c => b.isTerm c.qctx && !c.done
      && (b.bk.segs.any (fun s => s.tag == c.tag) || b.bk.steps.any (fun s => s.tag == c.tag)))) (fun b c =>
    (b.complete c.tag stFault (some { cause := 0, exc := xPoison, ctx := c.qctx }) (some (SMap.get 0 b.termSeq c.qctx))).settle c.tag)
  let b := b.each (b.bk.cmds.filter (fun c => !c.closed && !c.done && decide (c.deadline ≤ t))) (fun b c =>
    (b.complete c.tag stAborted (some { cause := 3 }) none).settle c.tag)
  b.each (b.bk.cmds.filter (fun c => !c.done && !c.issued && decide (c.deadline < t)
      && (b.bk.segs.any (fun s => s.tag == c.tag) || b.bk.steps.any (fun s => s.tag == c.tag)))) (fun b c =>
    ((b.inc BK_ERR_CNT.SHED).complete c.tag stShed none none).settle c.tag)

/-- Read the program table entries that the plan needs. -/
def Block.readProgs (b : Block) (ps : List Nat) : List (Nat × Option Prog) × Block :=
  ps.foldl (fun (acc : List (Nat × Option Prog) × Block) p =>
    let (g, b) := acc.2.readProg p
    (acc.1 ++ [(p, g)], b)) ([], b)

/-- Add the fleet test pack steps (R563). -/
def Block.addPacks (b : Block) (w : PlanW) : Block × PlanW :=
  if !b.on FLT_TP_CTRL.EN then (b, w) else
  match b.packHead with
  | (_, false) => (b, w)
  | (h, true) =>
    match b.readProg (h.getD 1 0 % 2 ^ 32) with
    | (none, b) => (b, w)
    | (some g, b) =>
      let (v, b) := b.draw 32
      (b, (List.range 512).foldl (fun w l =>
        if b.served l then
          match b.packStep w v l h g with
          | some s => { w with steps := w.steps ++ [s] }
          | none => w
        else w) w)

/-- PLAN_CLOSE (R29, R31, R665): Bracken closes the plan for the next tick: it packs batches, places work in the order of
R460, sheds what is due and has no room, and streams the lists. While Bracken is disabled no plan is closed and the lists
of that tick are not late. A module-fatal stop closes none (R571). While the module waits for a reference boundary the
next tick is the one that boundary begins, `m` (R49). -/
def Block.doPlanClose (b : Block) (m : W64) (hints : PlanHints) : Block :=
  let t := if b.rd TK_STATUS.STATE = 1 ∨ b.rd TK_STATUS.STATE = 6 then max m.toNat (b.now + 1) else b.now + 1
  if b.tick.fatal then b
  else if !b.on BK_CTRL.ENABLE then b.onBk (fun k => { k with off := NSet.add k.off t })
  else if b.bk.closedTick ≥ t then b
  else
    let b := b.beforePlan t
    let items := sortKey (·.key) (b.batchItems t ++ b.stepItems t)
    let (progs, b) := b.readProgs (items.map (·.prog)).eraseDups
    let w : PlanW := { t := t, hints := hints, progs := progs, steps := [], failed := [] }
    let (b, w) := items.foldl (fun (acc : Block × PlanW) it => acc.1.placeItem acc.2 it) (b, w)
    let (b, w) := b.addPacks w
    let b := b.onBk (fun k => { k with closedTick := t })
    b.each ((List.range 512).filter b.served) (fun b l => b.streamList w l)

end Sys2Proof.Machine
end

