-- ==== Sys2Proof/Machine/GroupOps.lean ====
section
/-! DEFINITION. Machine/GroupOps.lean: the alignment state of the tick (R46, R47), the tick registers a group may write
(R13, R16, R17, R528), the member table and messages to every member (R520, R522). -/

namespace Sys2Proof.Machine
open Reg

/-! ### Alignment state -/

/-- States of R46. -/
def tkStopped : Nat := 0
/-- ACQUIRING. -/
def tkAcquiring : Nat := 1
/-- LOCKED. -/
def tkLocked : Nat := 2
/-- SLEWING. -/
def tkSlewing : Nat := 3
/-- HOLDOVER. -/
def tkHoldover : Nat := 4
/-- FREE_RUN. -/
def tkFreeRun : Nat := 5
/-- RESYNC. -/
def tkResync : Nat := 6

/-- TK_STATUS.STATE. -/
def Block.tkState (b : Block) : Nat := b.rd TK_STATUS.STATE

/-- Update the facts of the current tick. -/
def Block.onFacts (b : Block) (f : TickFacts → TickFacts) : Block := { b with tick := { b.tick with facts := f b.tick.facts } }

/-- Does a state serve unaligned (R50)? -/
def tkUnaligned (st : Nat) : Bool := st == tkFreeRun || st == tkResync

/-- Go to an alignment state (R47). Leaving LOCKED writes a fault record (R567); a moment in FREE_RUN or RESYNC marks the
tick (R51). -/
def Block.toState (b : Block) (st : Nat) : Block :=
  let b := if b.tkState = tkLocked ∧ st ≠ tkLocked then b.report { cls := 18, cause := 1, level := 4 } else b
  let b := b.wr TK_STATUS.STATE st
  b.whenB (tkUnaligned st) (fun b => b.onFacts (fun (f : TickFacts) => { f with unaligned := true }))

/-- Boundary generation takes over the stored epoch (R21). -/
def Block.loadEpoch (b : Block) : Block :=
  { b with tick := { b.tick with epNs := b.rd TK_EPOCH_NS.EPOCH_NS, epTick := b.rd TK_EPOCH_TICK.EPOCH_TICK } }

/-- EPOCH_LOAD (R21, R47): any running state goes to RESYNC under the stored epoch. -/
def Block.epochLoad (b : Block) : Block :=
  if b.tkState = tkStopped ∨ b.tick.fatal then b else b.loadEpoch.toState tkResync

/-! ### Tick registers -/

/-- T(n) of an epoch and a period (R13), in nanoseconds modulo 2^64. -/
def tickTime (ns tick per n : Nat) : Nat := ofInt 64 ((ns : Int) + ((n : Int) - (tick : Int)) * (per : Int) * 1000)

/-- T(n) with the module's own registers (R13, R529). -/
def Block.ownTime (b : Block) (n : Nat) : Nat :=
  tickTime (b.rd TK_EPOCH_NS.EPOCH_NS) (b.rd TK_EPOCH_TICK.EPOCH_TICK) (b.rd TK_PERIOD.PERIOD_US) n

/-- Do the values held fit a period (R17, R362)? -/
def Block.fitsPeriod (b : Block) (p : Nat) : Bool :=
  4 * b.rd TK_CTRL.PLAN_LEAD_US ≤ p && 2 * b.rd TK_BUDGET.REMOTE_ALLOW_US ≤ p && 2 * b.rd TK_BUDGET.FABRIC_ALLOW_US ≤ p
    && 4 * b.rd MS_UPD_CTRL.CLOSE_US ≤ p

/-- A write of TK_PERIOD (R17, R20): whether it was accepted. -/
def Block.writePeriod (b : Block) (per next : Nat) : Bool × Block :=
  if 100 ≤ per ∧ per ≤ 4000 ∧ 100 ≤ next ∧ next ≤ 4000 ∧ b.fitsPeriod per ∧ b.fitsPeriod next
      ∧ (per = b.rd TK_PERIOD.PERIOD_US ∨ !b.on TK_CTRL.ENABLE)
  then (true, (b.wr TK_PERIOD.PERIOD_US per).wr TK_PERIOD.NEXT_US next)
  else (false, b.wr TK_STATUS.CFG_ERR 1)

/-! ### The member table -/

/-- Members (R520): the table index and node of every valid entry. -/
def Block.members (b : Block) : List (Nat × Nat) :=
  (List.range (b.rd GRP_MTAB.COUNT)).filterMap (fun i =>
    let (ws, bad, _) := b.tableWords (b.rd GRP_MTAB.BASE * 2 ^ 12 + 16 * i) 2
    if !bad && bit (ws.getD 0 0) 16 then some (i, ws.getD 0 0 % 2 ^ 10) else none)

/-- The table index of a member node. -/
def Block.memberIx (b : Block) (node : Nat) : Option Nat := (b.members.find? (fun m => m.2 == node)).map (·.1)

/-- Send a group control message to every other member. -/
def Block.grpAll (b : Block) (type : Nat) (ws : List Nat) : Block :=
  b.each (b.members.filter (fun m => m.2 != b.rd XL_NODE.SELF)) (fun b m => b.grpSend m.2 type ws)

/-- Status bits of the member table (R520), which the manager writes in HBM. -/
def Block.memberFlag (b : Block) (node k : Nat) (v : Bool) : Block :=
  match b.memberIx node with
  | none => b
  | some i =>
    let a := b.rd GRP_MTAB.BASE * 2 ^ 12 + 16 * i
    let (ws, _, b) := b.tableWords a 1
    (b.mwrite 0xFFF a (plain (leBytes 8 (setBits (ws.getD 0 0) k 1 v.toNat)))).2

/-- A status bit of the member table. -/
def Block.memberBit (b : Block) (node k : Nat) : Bool :=
  match b.memberIx node with
  | none => false
  | some i => bit ((b.tableWords (b.rd GRP_MTAB.BASE * 2 ^ 12 + 16 * i) 1).1.getD 0 0) k

/-- The manager writes word 1 of a member entry: the last configuration digest reported (R520). -/
def Block.memberDigest (b : Block) (node v : Nat) : Block :=
  match b.memberIx node with
  | none => b
  | some i => (b.mwrite 0xFFF (b.rd GRP_MTAB.BASE * 2 ^ 12 + 16 * i + 8) (plain (leBytes 8 v))).2

/-! ### Tick epoch -/

/-- The epoch fields of R528. -/
def Block.epochWords (b : Block) : List Nat :=
  [b.rd TK_EPOCH_NS.EPOCH_NS, b.rd TK_EPOCH_TICK.EPOCH_TICK,
   b.rd TK_PERIOD.PERIOD_US + b.rd TK_PERIOD.NEXT_US * 2 ^ 16, b.rd TK_PERIOD_AT.AT_TICK]

/-- A write of TK_PERIOD_AT (R17): whether it was accepted. An accepted nonzero value on the manager sends EPOCH to every
member (R528). -/
def Block.writePeriodAt (b : Block) (v : Nat) : Bool × Block :=
  let lead := if b.isManager then 4 else 2
  if v = 0 then (true, b.wr TK_PERIOD_AT.AT_TICK 0)
  else if v < b.now + lead then (false, b.wr TK_STATUS.CFG_ERR 1)
  else
    let b := b.wr TK_PERIOD_AT.AT_TICK v
    (true, b.whenB b.isManager (fun b => b.grpAll 0x31 b.epochWords))

end Sys2Proof.Machine
end

