-- ==== Sys2Proof/Machine/Group.lean ====
section
/-! DEFINITION. Machine/Group.lean: serving groups (R519 to R544) and the group snapshot (R651). The messages are handed
over by the Damask receiver, which checks their source and acknowledges them. -/

namespace Sys2Proof.Machine
open Reg

/-! ### Checks -/

/-- A message that the group refuses for its source or group (R522). -/
def Block.grpForeign (b : Block) (h : GrpHdr) : Bool :=
  (b.memberIx h.node.toNat).isNone || h.group.toNat != b.rd GRP_ROLE.GROUP_ID

/-- Group traffic runs on this module (R519, R543). -/
def Block.grpOn (b : Block) : Bool := b.on GRP_CTRL.ENABLE && b.rd GRP_ROLE.ROLE != 0

/-- Take a group control message: dropped where group traffic is off, dropped and counted under R522. -/
def Block.grpTake (b : Block) (h : GrpHdr) (f : Block → Block) : Block :=
  if !b.grpOn then b else if b.grpForeign h then b.inc GRP_HB_CNT.MISSED else f b

/-- Does a message come from the manager, under this module's term (R526, R651)? -/
def Block.fromManager (b : Block) (h : GrpHdr) : Bool :=
  h.node.toNat == b.rd GRP_ROLE.MANAGER_NODE && h.term.toNat == b.rd GRP_ROLE.TERM

/-- What this module knows of a member. -/
def Block.member (b : Block) (node : Nat) : Member :=
  (b.grp.members.find? (fun m => m.node == node)).getD ({ node := node, last := 0, misses := 0, digest := 0, missedAt := 0, lateAt := 0 } : Member)

/-- Update the group block's own state. -/
def Block.onGrp (b : Block) (f : GrpSt → GrpSt) : Block := { b with grp := f b.grp }

/-- Update what this module knows of a member. -/
def Block.onMember (b : Block) (node : Nat) (f : Member → Member) : Block :=
  let m := f (b.member node)
  b.onGrp (fun g => { g with members := g.members.filter (fun x => x.node != node) ++ [m] })

/-- A group fault record (R567): causes 1 member not alive, 2 demoted, 3 digest mismatch. -/
def Block.grpRec (b : Block) (cause node : Nat) : Block :=
  b.report { cls := 17, cause := cause, level := 5, node := some node }

/-! ### Roles -/

/-- Take the sender's manager, deputy and term (R526). A receiver that was manager becomes a worker. -/
def Block.takeLead (b : Block) (h : GrpHdr) (l : GrpLead) : Block :=
  let was := b.rd GRP_ROLE.ROLE == 3
  let b := (((b.wr GRP_ROLE.MANAGER_NODE l.manager.toNat).wr GRP_ROLE.DEPUTY_NODE l.deputy.toNat).wr GRP_ROLE.DEP_VALID
    l.depValid.toNat).wr GRP_ROLE.TERM h.term.toNat
  if was then ((b.wr GRP_ROLE.ROLE 1).wr GRP_STATUS.DEMOTED 1).grpRec 2 h.node.toNat else b

/-- The words of TAKEOVER with this module's fields (R523). -/
def Block.takeoverWords (b : Block) : List Nat :=
  [b.rd GRP_ROLE.MANAGER_NODE + b.rd GRP_ROLE.DEPUTY_NODE * 2 ^ 10 + b.rd GRP_ROLE.DEP_VALID * 2 ^ 20]

/-- A deputy takes over (R527). -/
def Block.takeOver (b : Block) : Block :=
  let b := (((b.wr GRP_ROLE.ROLE 3).wr GRP_ROLE.MANAGER_NODE (b.rd XL_NODE.SELF)).wr GRP_ROLE.DEP_VALID 0).wr GRP_ROLE.TERM
    (b.rd GRP_ROLE.TERM + 1)
  let b := b.wr GRP_STATUS.TAKEOVER 1
  b.grpAll 0x32 b.takeoverWords

/-- Send SERVICE to a member (R530, R531). -/
def Block.sendService (b : Block) (node : Nat) (inSvc : Bool) (cause : Nat) : Block :=
  b.grpSend node 0x33 [inSvc.toNat + cause * 2 ^ 8]

/-! ### Heartbeats -/

/-- Act on the manager's epoch fields (R529). -/
def Block.epochSync (b : Block) (e : EpochFields) : Block :=
  let b := if e.at_ ≠ 0 ∧ b.rd TK_PERIOD_AT.AT_TICK ≠ e.at_.toNat then
      let (ok1, b) := b.writePeriod (b.rd TK_PERIOD.PERIOD_US) e.next.toNat
      let (ok2, b) := b.writePeriodAt e.at_.toNat
      b.whenB (!ok1 || !ok2) (fun b => b.wr GRP_STATUS.EPOCH_DIFF 1)
    else b
  let same := b.rd TK_PERIOD.PERIOD_US == e.per.toNat
  let b := b.whenB (!same || b.ownTime e.tick.toNat != e.ns.toNat) (fun b => b.wr GRP_STATUS.EPOCH_DIFF 1)
  if b.on GRP_STATUS.EPOCH_DIFF ∧ same ∧ b.on GRP_CTRL.AUTO_EPOCH then
    ((b.wr TK_EPOCH_NS.EPOCH_NS e.ns.toNat).wr TK_EPOCH_TICK.EPOCH_TICK e.tick.toNat).epochLoad
  else b

/-- The manager's own latch of a tick, if it holds one (R532). Tick 0 is no latch. -/
def Block.ownLatch (b : Block) (k : Nat) : Option Nat :=
  if k = 0 then none
  else if k = b.rd GRP_DIGEST_TICK.TICK then some (b.rd GRP_DIGEST_LATCH.LATCH)
  else if k = b.grp.prevTick then some b.grp.prevLatch
  else none

/-- A digest mismatch of a member (R533). -/
def Block.mismatch (b : Block) (node : Nat) : Block :=
  let b := b.memberFlag node 26 true
  let b := if b.on GRP_MISMATCH.VALID then b.wr GRP_MISMATCH.MORE 1
    else (b.wr GRP_MISMATCH.VALID 1).wr GRP_MISMATCH.NODE node
  let b := (b.inc GRP_MISMATCH.MISMATCHES).grpRec 3 node
  b.whenB (b.on GRP_CTRL.AUTO_OUT) (fun b => b.sendService node false 1)

/-- The manager compares the latch a heartbeat carries with its own (R533). -/
def Block.compareLatch (b : Block) (node k v : Nat) : Block :=
  match b.ownLatch k with
  | none => b
  | some own =>
    if b.on GRP_CTRL.CMP_HOLD then b
    else if own = v then b.memberFlag node 26 false else b.mismatch node

/-- The manager records a member's heartbeat (R520, R531, R533). -/
def Block.recordMember (b : Block) (node : Nat) (m : HbMsg) : Block :=
  let first := m.unaligned && !b.memberBit node 25
  let b := ((b.memberFlag node 24 true).memberFlag node 25 m.unaligned).memberFlag node 27 m.inSvc
  let b := if m.latchTick = 0 then b else (b.memberDigest node m.latch.toNat).onMember node (fun x =>
    { x with digest := max x.digest m.latchTick.toNat })
  let b := b.whenB (m.latchTick != 0 && m.latchTick.toNat == b.rd GRP_DIGEST_TICK.TICK) (fun b => b.memberFlag node 28 false)
  let b := b.whenB (first && b.on GRP_CTRL.AUTO_OUT) (fun b => b.sendService node false 2)
  b.compareLatch node m.latchTick.toNat m.latch.toNat

/-- HEARTBEAT (R522, R525, R526, R529, R531, R533). -/
def Block.grpHeartbeat (b : Block) (h : GrpHdr) (m : HbMsg) : Block :=
  b.grpTake h fun b =>
    let node := h.node.toNat
    if h.term.toNat < b.rd GRP_ROLE.TERM then b
    else
      let b := b.whenB (decide (h.term.toNat > b.rd GRP_ROLE.TERM)) (fun b => b.takeLead h m.lead)
      let b := b.onMember node (fun x => { x with last := max x.last h.tick.toNat, misses := 0 })
      let b := b.whenB b.isManager (fun b => b.recordMember node m)
      if b.fromManager h ∧ !b.isManager then (b.wr GRP_STATUS.MGR_ALIVE 1).epochSync m.epoch else b

/-- HEARTBEAT_MISSED (R525, R527): the heartbeat of a node due at tick `k` has not arrived by T(k + HB_TICKS). The manager
and the deputy expect one from every member, a worker the manager's. Each counts once. -/
def Block.doHeartbeatMissed (b : Block) (node : BitVec 10) (k : W64) : Block :=
  let n := node.toNat
  let hb := max 1 (b.rd GRP_CTRL.HB_TICKS)
  let mgr := n == b.rd GRP_ROLE.MANAGER_NODE
  let x := b.member n
  if b.grpOn ∧ (b.memberIx n).isSome ∧ n ≠ b.rd XL_NODE.SELF ∧ (mgr || b.rd GRP_ROLE.ROLE ≥ 2) ∧ k.toNat % hb = 0
      ∧ b.now ≥ k.toNat + hb ∧ x.last < k.toNat ∧ x.missedAt ≤ k.toNat then
    let b := (b.inc GRP_HB_CNT.MISSED).onMember n (fun x => { x with misses := x.misses + 1, missedAt := k.toNat + 1 })
    if x.misses + 1 = 3 then
      let b := b.whenB b.isManager (fun b => (b.memberFlag n 24 false).grpRec 1 n)
      if mgr then
        let b := b.wr GRP_STATUS.MGR_ALIVE 0
        if b.rd GRP_ROLE.ROLE = 2 then b.takeOver else b
      else b
    else b
  else b

/-- DIGEST_LATE (R533): no latch of a member for interval `k` has arrived by T(k + 2 × HB_TICKS). -/
def Block.doDigestLate (b : Block) (node : BitVec 10) (k : W64) : Block :=
  let n := node.toNat
  if b.isManager ∧ (b.memberIx n).isSome ∧ n ≠ b.rd XL_NODE.SELF ∧ k.toNat % max 1 (b.rd GRP_CTRL.DIGEST_TICKS) = 0
      ∧ b.now ≥ k.toNat + 2 * b.rd GRP_CTRL.HB_TICKS ∧ (b.member n).digest < k.toNat
      ∧ (b.member n).lateAt ≤ k.toNat then
    ((b.memberFlag n 28 true).inc GRP_MISMATCH.LATE).onMember n (fun x => { x with lateAt := k.toNat + 1 })
  else b

/-! ### Messages from the manager -/

/-- EPOCH (R529). -/
def Block.grpEpoch (b : Block) (h : GrpHdr) (e : EpochFields) : Block :=
  b.grpTake h fun b => if b.fromManager h ∧ !b.isManager then b.epochSync e else b

/-- TAKEOVER (R526, R527). -/
def Block.grpTakeover (b : Block) (h : GrpHdr) (l : GrpLead) : Block :=
  b.grpTake h fun b =>
    if h.term.toNat > b.rd GRP_ROLE.TERM then b.takeLead h l
    else if b.fromManager h then
      (b.wr GRP_ROLE.DEPUTY_NODE l.deputy.toNat).wr GRP_ROLE.DEP_VALID l.depValid.toNat
    else b

/-- Enter or leave service on the manager's word (R530). -/
def Block.setService (b : Block) (inSvc : Bool) (cause : Nat) : Block :=
  ((b.wr GRP_SVC.IN_SERVICE inSvc.toNat).wr GRP_SVC.BY_MGR 1).wr GRP_SVC.CAUSE cause

/-- SERVICE (R530). -/
def Block.grpService (b : Block) (h : GrpHdr) (inSvc : Bool) (cause : BitVec 8) : Block :=
  b.grpTake h fun b => if b.fromManager h then b.setService inSvc cause.toNat else b

/-- GRP_OMAP_CMD.BUSY shows messages not acknowledged or entries pending (R536, R543). -/
def Block.omapBusy (b : Block) : Block := b.wr GRP_OMAP_CMD.BUSY (!b.grp.omapOut.isEmpty || b.grp.omapAt.isSome).toNat

/-- PLACEMENT (R536). -/
def Block.grpPlacement (b : Block) (h : GrpHdr) (at_ : W64) (es : List OmapEntry) : Block :=
  b.grpTake h fun b =>
    if !b.fromManager h then b
    else if at_.toNat ≤ b.now then b.wr GRP_STATUS.CFG_ERR 1
    else
      let b := b.each es (fun b e =>
        ((b.wr GRP_OMAP.PEND_NODE e.node.toNat 0 e.bucket.toNat).wr GRP_OMAP.PEND_VALID e.valid.toNat 0 e.bucket.toNat).wr
          GRP_OMAP.PEND 1 0 e.bucket.toNat)
      (b.onGrp (fun g => { g with omapAt := some at_.toNat })).omapBusy

/-- Owner map entries that await their boundary move into NODE and VALID (R536). -/
def Block.omapApply (b : Block) : Block :=
  match b.grp.omapAt with
  | none => b
  | some t =>
    if b.now < t then b
    else
      let b := b.each ((List.range 4096).filter (fun k => b.on GRP_OMAP.PEND 0 k)) (fun b k =>
        ((b.wr GRP_OMAP.NODE (b.rd GRP_OMAP.PEND_NODE 0 k) 0 k).wr GRP_OMAP.VALID (b.rd GRP_OMAP.PEND_VALID 0 k) 0 k).wr
          GRP_OMAP.PEND 0 0 k)
      (b.onGrp (fun g => { g with omapAt := none })).omapBusy

/-- A PLACEMENT message has been acknowledged, or its path has failed. -/
def Block.omapAcked (b : Block) (uid : Nat) : Block :=
  if NSet.mem b.grp.omapOut uid then (b.onGrp (fun g => { g with omapOut := NSet.del g.omapOut uid })).omapBusy else b

/-- OMAP_SEND (R536): PLACEMENT messages of up to 1,024 entries go to every member. With ROLE 0 the entries are applied
locally only. -/
def Block.doOmapSend (b : Block) : Block :=
  if b.on GRP_OMAP_CMD.BUSY then b.wr GRP_STATUS.CFG_ERR 1
  else
    let at_ := b.rd GRP_OMAP_AT.AT_TICK
    let ks := (List.range 4096).filter (fun k => b.on GRP_OMAP.PEND 0 k)
    let parts := (List.range 4).map (fun n => (ks.drop (1024 * n)).take 1024)
    let word := fun k => k + b.rd GRP_OMAP.PEND_NODE 0 k * 2 ^ 12 + b.rd GRP_OMAP.PEND_VALID 0 k * 2 ^ 22
    let to_ := if b.grpOn then b.members.filter (fun m => m.2 != b.rd XL_NODE.SELF) else []
    let b := b.each (parts.filter (fun p => !p.isEmpty)) (fun b p =>
      b.each to_ (fun b m =>
        let ws := [at_, p.length] ++ p.map word
        if b.hasPath m.2 0 521 then
          let (uid, b) := b.dmSend m.2 0 521 0x34 0 0xFFF 0 (b.grpHead ++ ws) [] none none
          b.onGrp (fun g => { g with omapOut := NSet.add g.omapOut uid })
        else b))
    (b.onGrp (fun g => { g with omapAt := if ks.isEmpty then g.omapAt else some at_ })).omapBusy

/-! ### Weight digests -/

/-- One item of a report enters the report ring (R539, R543): a full ring drops it and counts it in MISSED. -/
def Block.reportItem (b : Block) (node : Nat) (i : DigestItem) : Block :=
  let size := 2 ^ (b.rd GRP_RPT.LOG2_SIZE + 6)
  let prod := b.rd GRP_RPT_IDX.PROD
  if (prod + 2 ^ 32 - b.rd GRP_RPT_IDX.CONS) % 2 ^ 32 ≥ size then b.inc GRP_HB_CNT.MISSED
  else
    let ws := [i.w0.toNat, i.digest.toNat, i.passTick.toNat, setBits i.w3.toNat 16 10 node]
    let (_, b) := b.mwrite 0xFFF (b.rd GRP_RPT.BASE * 2 ^ 12 + 32 * (prod % size)) (plain (bytesOf ws))
    b.addWrap GRP_RPT_IDX.PROD

/-- DIGEST_REPORT (R539). -/
def Block.grpDigestReport (b : Block) (h : GrpHdr) (items : List DigestItem) : Block :=
  b.grpTake h fun b => if b.isManager then b.each items (fun b i => b.reportItem h.node.toNat i) else b

/-- The digest of `n` 128-bit words from a local offset, and whether one was poisoned (R539). -/
def Block.digestN : Nat → Block → Nat → Nat → Bool → Nat × Bool × Block
  | 0, b, _, d, p => (d, p, b)
  | n + 1, b, off, d, p =>
    let (r, b) := b.mread 0xFFF off 16
    Block.digestN n b (off + 16) (digestWords d [leNat r.bytes]) (p || r.pois)

/-- One entry of the digest region table (R538, R539): its digest is written, and the item it reports. -/
def Block.digestEntry (b : Block) (k a : Nat) : Option DigestItem × Block :=
  let (ws, bad, b) := b.tableWords a 8
  let w := fun k => ws.getD k 0
  if bad || !bit (w 0) 0 then (none, b)
  else
    let n := w 2 % 2 ^ 32
    let (d, pois, b) := Block.digestN n b (bits (w 1) 0 46) (mix (bits (w 0) 32 32 ^^^ (n * 2 ^ 32))) false
    let miss := w 5 != 0 && w 5 != d
    let w0 := setBits (setBits (w 0) 2 1 pois.toNat) 3 1 miss.toNat
    let (_, b) := b.mwrite 0xFFF a (plain (leBytes 8 w0))
    let (_, b) := b.mwrite 0xFFF (a + 24) (plain (bytesOf [d, k]))
    let b := b.whenB pois (fun b => b.inc GRP_WSTATUS.POISONED)
    let b := b.whenB miss (fun b => b.inc GRP_WSTATUS.REF_MISS)
    let w3 := bits (w 0) 1 1 + pois.toNat * 2 + miss.toNat * 4
    (some { w0 := BitVec.ofNat 64 (w 0 / 2 ^ 16 * 2 ^ 16), digest := BitVec.ofNat 64 d, passTick := BitVec.ofNat 64 k,
            w3 := BitVec.ofNat 64 w3 }, b)

/-- The words of a DIGEST_REPORT of some items (R523). -/
def reportWords (k : Nat) (is : List DigestItem) : List Nat :=
  [k, is.length] ++ is.flatMap (fun i => [i.w0.toNat, i.digest.toNat, i.passTick.toNat, i.w3.toNat])

/-- DIGEST_PASS_END (R539): the pass has read every valid region; it writes the digests and sends its items to the manager
in messages of up to 250. -/
def Block.doDigestPassEnd (b : Block) : Block :=
  match b.grp.pass with
  | none => b
  | some k =>
    let n := 2 ^ b.rd GRP_WTAB.LOG2_SIZE
    let (is, b) := (List.range n).foldl (fun (acc : List DigestItem × Block) i =>
      let (r, b) := acc.2.digestEntry k (b.rd GRP_WTAB.BASE * 2 ^ 12 + 64 * i)
      (acc.1 ++ r.toList, b)) ([], b)
    let b := (b.onGrp (fun g => { g with pass := none })).wr GRP_WSTATUS.BUSY 0
    if b.isManager then b.each is (fun b i => b.reportItem (b.rd XL_NODE.SELF) i)
    else if b.grpOn then
      b.each ((List.range (is.length / 250 + 1)).map (fun j => (is.drop (250 * j)).take 250)) (fun b p =>
        if p.isEmpty then b else b.grpSend (b.rd GRP_ROLE.MANAGER_NODE) 0x35 (reportWords k p))
    else b

/-! ### Maintenance -/

/-- A grant arrives (R541). -/
def Block.maintGranted (b : Block) (g : Nat) : Block :=
  if b.rd GRP_MAINT.STATE = 1 then (b.wr GRP_MAINT.STATE 2).wr GRP_MAINT_AT.GRANT_TICK g else b

/-- Grant the oldest requests while fewer than MAINT_MAX operations are ACTIVE (R541). -/
def Block.grantN : Nat → Block → Block
  | 0, b => b
  | n + 1, b =>
    match b.grp.maintQ with
    | [] => b
    | (node, kind, arg) :: rest =>
      if b.grp.maintOn.length < b.rd GRP_CTRL.MAINT_MAX then
        let b := b.onGrp (fun g => { g with maintQ := rest, maintOn := g.maintOn ++ [(node, kind, arg)] })
        let b := b.wr GRP_MAINT.ACTIVE b.grp.maintOn.length
        let g := b.now + 4
        let b := if node = b.rd XL_NODE.SELF then b.maintGranted g else b.grpSend node 0x37 [kind + arg * 2 ^ 4, g]
        Block.grantN n b
      else b

/-- The manager queues a request, up to 64, and grants what it may (R541). -/
def Block.maintQueue (b : Block) (node kind arg : Nat) : Block :=
  let b := if b.grp.maintQ.length < 64 then b.onGrp (fun g => { g with maintQ := g.maintQ ++ [(node, kind, arg)] }) else b
  Block.grantN 64 b

/-- An operation is done (R541): its place frees. -/
def Block.maintEnd (b : Block) (node kind arg : Nat) : Block :=
  let b := b.onGrp (fun g => { g with maintOn := g.maintOn.erase (node, kind, arg) })
  Block.grantN 64 (b.wr GRP_MAINT.ACTIVE b.grp.maintOn.length)

/-- MAINT_REQ (R541). -/
def Block.grpMaintReq (b : Block) (h : GrpHdr) (kind : BitVec 2) (arg : BitVec 12) : Block :=
  b.grpTake h fun b => if b.isManager then b.maintQueue h.node.toNat kind.toNat arg.toNat else b

/-- MAINT_GRANT (R541). -/
def Block.grpMaintGrant (b : Block) (h : GrpHdr) (kind : BitVec 2) (arg : BitVec 12) (g : W64) : Block :=
  b.grpTake h fun b =>
    if b.fromManager h ∧ kind.toNat = b.rd GRP_MAINT.KIND ∧ arg.toNat = b.rd GRP_MAINT.ARG then b.maintGranted g.toNat else b

/-- MAINT_DONE (R541): one with UNPLANNED occupies no grant; the count the manager keeps of it has no register. -/
def Block.grpMaintDone (b : Block) (h : GrpHdr) (kind : BitVec 2) (arg : BitVec 12) (unplanned : Bool) : Block :=
  b.grpTake h fun b => if b.isManager && !unplanned then b.maintEnd h.node.toNat kind.toNat arg.toNat else b

/-- MAINT_GO (R541). -/
def Block.doMaintGo (b : Block) (kind : BitVec 2) (arg : BitVec 12) : Block :=
  if b.rd GRP_MAINT.STATE ≠ 0 ∨ kind.toNat ≥ 2 then b.wr GRP_STATUS.CFG_ERR 1
  else
    let b := ((b.wr GRP_MAINT.KIND kind.toNat).wr GRP_MAINT.ARG arg.toNat).wr GRP_MAINT.STATE 1
    if b.isManager then b.maintQueue (b.rd XL_NODE.SELF) kind.toNat arg.toNat
    else b.grpSend (b.rd GRP_ROLE.MANAGER_NODE) 0x36 [kind.toNat + arg.toNat * 2 ^ 4]

/-- MAINT_DONE_CMD (R541). -/
def Block.doMaintDoneCmd (b : Block) : Block :=
  let kind := b.rd GRP_MAINT.KIND
  let arg := b.rd GRP_MAINT.ARG
  let b := b.wr GRP_MAINT.STATE 0
  if b.isManager then b.maintEnd (b.rd XL_NODE.SELF) kind arg
  else b.grpSend (b.rd GRP_ROLE.MANAGER_NODE) 0x38 [kind + arg * 2 ^ 4]

/-! ### The manager's commands -/

/-- DEPUTY_WRITE (R521): while ENABLE is 0 the fields are written; on an enabled manager TAKEOVER goes out with the new
fields and an unchanged TERM; any other write is ignored. -/
def Block.doDeputyWrite (b : Block) (dep : BitVec 10) (valid : Bool) : Block :=
  let set := fun (b : Block) => (b.wr GRP_ROLE.DEPUTY_NODE dep.toNat).wr GRP_ROLE.DEP_VALID valid.toNat
  if !b.on GRP_CTRL.ENABLE then set b
  else if b.isManager then
    let b := set b
    b.grpAll 0x32 b.takeoverWords
  else b.wr GRP_STATUS.CFG_ERR 1

/-- SVC_CMD_GO (R530): SERVICE with CAUSE 3 goes to NODE. -/
def Block.doSvcCmdGo (b : Block) (node : BitVec 10) (inSvc : Bool) : Block :=
  let b := (b.wr GRP_SVC_CMD.NODE node.toNat).wr GRP_SVC_CMD.IN inSvc.toNat
  if !b.isManager then b
  else if node.toNat = b.rd XL_NODE.SELF then b.setService inSvc 3
  else b.sendService node.toNat inSvc 3

/-! ### Group snapshot -/

/-- A SNAP_AT is applied (R651). -/
def Block.snapAt (b : Block) (at_ tag : Nat) : Block :=
  if at_ ≥ b.now + 1 then ((b.wr SN_GRP_AT.AT_TICK at_).wr SN_GRP_CMD.TAG tag).wr SN_GRP_CMD.PEND 1
  else b.wr SN_STATUS.CFG_ERR 1

/-- SNAP_AT (R651). -/
def Block.grpSnapAt (b : Block) (h : GrpHdr) (at_ : W64) (tag : BitVec 16) : Block :=
  b.grpTake h fun b => if b.fromManager h then b.snapAt at_.toNat tag.toNat else b

/-- SN_GRP_GO (R651): on the manager, SNAP_AT goes to every member and is applied to the manager itself. -/
def Block.doSnGrpGo (b : Block) (tag : BitVec 16) : Block :=
  let b := b.wr SN_GRP_CMD.TAG tag.toNat
  if b.isManager then
    let at_ := b.rd SN_GRP_AT.AT_TICK
    (b.grpAll 0x39 [at_, tag.toNat]).snapAt at_ tag.toNat
  else b

/-! ### At a boundary -/

/-- Latch the configuration digest at a digest tick (R532). -/
def Block.digestLatch (b : Block) : Block :=
  if b.now % max 1 (b.rd GRP_CTRL.DIGEST_TICKS) = 0 then
    let b := b.onGrp (fun g => { g with prevTick := b.rd GRP_DIGEST_TICK.TICK, prevLatch := b.rd GRP_DIGEST_LATCH.LATCH })
    (b.wr GRP_DIGEST_LATCH.LATCH b.digest).wr GRP_DIGEST_TICK.TICK b.now
  else b

/-- Start a digest pass at a digest tick, or skip it while one still runs (R539). -/
def Block.digestPass (b : Block) : Block :=
  if b.now % max 1 (b.rd GRP_CTRL.DIGEST_TICKS) = 0 then
    if b.grp.pass.isSome then b.inc GRP_WSTATUS.OVERRUNS
    else (b.onGrp (fun g => { g with pass := some b.now })).wr GRP_WSTATUS.BUSY 1
  else b

/-- Words 2 onward of this module's heartbeat (R523). -/
def Block.heartbeatWords (b : Block) : List Nat :=
  [b.tkState + (tkUnaligned b.tkState).toNat * 2 ^ 3 + b.rd GRP_SVC.IN_SERVICE * 2 ^ 4 + b.rd GRP_ROLE.ROLE * 2 ^ 5,
   b.rd GRP_DIGEST_LATCH.LATCH, b.rd GRP_DIGEST_TICK.TICK] ++ (if b.isManager then b.epochWords else [0, 0, 0, 0])

/-- Send the heartbeats of a heartbeat tick (R524, R525). -/
def Block.heartbeats (b : Block) : Block :=
  if b.grpOn ∧ b.now % max 1 (b.rd GRP_CTRL.HB_TICKS) = 0 then
    let self := b.rd XL_NODE.SELF
    let to_ := if b.isManager then b.members.map (·.2)
      else [b.rd GRP_ROLE.MANAGER_NODE] ++ (if b.on GRP_ROLE.DEP_VALID then [b.rd GRP_ROLE.DEPUTY_NODE] else [])
    b.each (to_.eraseDups.filter (· != self)) (fun b n =>
      if b.hasPath n 0 521 then (b.grpSend n 0x30 b.heartbeatWords).inc GRP_HB_CNT.SENT else b)
  else b

end Sys2Proof.Machine
end

