-- ==== Sys2Proof/Machine/LichenOps.lean ====
section
/-! DEFINITION. Machine/LichenOps.lean: Lichen's event log (R619, R620), class 20 fault records (R640) and the record of
resets (R610). -/

namespace Sys2Proof.Machine
open Reg

/-- Update what Lichen holds. -/
def Block.onLc (b : Block) (f : Lichen → Lichen) : Block := { b with lc := f b.lc }

/-- Write an event to the log (R619): it takes the next SEQ and its place; an entry overwritten counts towards LOG_WRAPS,
in units of 16,384. -/
def Block.logPut (b : Block) (e : LogE) : Block :=
  let seq := (b.rd LC_STATUS.LOG_SEQ + 1) % 2 ^ 32
  let b := b.onLc (fun l => { l with log := (l.log.filter (fun x => x.1 != seq % 16384)) ++ [(seq % 16384, { e with seq := seq })] })
  let b := b.wr LC_STATUS.LOG_SEQ seq
  b.whenB (decide (seq > 16384 ∧ seq % 16384 = 0)) (fun b => b.inc LC_STATUS.LOG_WRAPS)

/-- The class 20 record of the event just logged (R640). -/
def Block.lcRec (b : Block) (cause arg : Nat) : Block :=
  b.report { cls := 20, cause := cause, level := 4, aux0 := b.rd LC_STATUS.LOG_SEQ, aux1 := arg }

/-- Log an event, with its fault record where it has one. -/
def Block.logNow (b : Block) (e : LogE) (cause : Nat) : Block :=
  let b := b.logPut e
  if cause = 0 then b else b.lcRec cause e.arg

/-- An event of R620 with the class 20 cause of its fault record, 0 for none. While Lichen does not run the event waits
(R645). The event's severity and its time of the module clock are free values. -/
def Block.lcEvent (b : Block) (code arg cause : Nat) : Block :=
  let (sev, b) := b.draw 2
  let (ns, b) := b.draw 64
  let e : LogE := { seq := 0, code := code, sev := sev, tick := b.now, ns := ns, arg := arg % 2 ^ 64 }
  if b.rd LC_STATUS.RUN = 1 then b.logNow e cause else b.onLc (fun l => { l with owed := l.owed ++ [(e, cause)] })

/-- Lichen runs: the events that waited are logged. -/
def Block.logOwed (b : Block) : Block :=
  let owed := b.lc.owed
  (b.onLc (fun l => { l with owed := [] })).each owed (fun b x => b.logNow x.1 x.2)

/-- PW_RST_CAUSE as read. -/
def Block.rstCause (b : Block) : Nat :=
  b.rd PW_RST_CAUSE.CAUSE + b.rd PW_RST_CAUSE.CONTEXT * 2 ^ 8 + b.rd PW_RST_CAUSE.LAST * 2 ^ 16

/-- Log a reset or region event (R610, R620). -/
def Block.rstEvent (b : Block) : Block := b.lcEvent 1 b.rstCause 0

/-- Record a region reset, sleep or wake (R610). -/
def Block.recRegion (b : Block) (r : Nat) : Block :=
  ((b.wr PW_RST_REGION.RESET (setBits (b.rd PW_RST_REGION.RESET) r 1 1)).inc PW_RST_CNT.REGION).rstEvent

/-- Record a tile reset (R610). -/
def Block.recTile (b : Block) (l : Nat) : Block :=
  ((b.wr PW_RST_REGION.LAST_TILE l).inc PW_RST_CNT.TILE).rstEvent

/-- Record a context reset (R610). -/
def Block.recContext (b : Block) : Block :=
  ((b.wr PW_RST_CAUSE.CONTEXT 1).inc PW_RST_CNT.CONTEXT).rstEvent

end Sys2Proof.Machine
end

