-- ==== Sys2Proof/Machine/Faults.lean ====
section
/-! DEFINITION. Machine/Faults.lean: the fault collector (R565 to R570, R576), context reset (R561, R609) and the
availability counters (R51, R572, R573, R664). -/

namespace Sys2Proof.Machine
open Reg

/-! ### The fault ring -/

/-- The eight words of a record in the ring (R566) with its SEQ and the ring index it is written for. -/
def Block.recWords (b : Block) (r : FaultRec) (seq prod : Nat) : List Nat :=
  [phaseOf prod 4096 + r.cls % 2 ^ 8 * 2 ^ 8 + r.cause % 2 ^ 8 * 2 ^ 16 + r.level % 8 * 2 ^ 24 + r.severity % 4 * 2 ^ 27
     + r.ctx.getD 0 % 2 ^ 12 * 2 ^ 32 + r.ctx.isSome.toNat * 2 ^ 44,
   seq, b.now,
   r.unit % 2 ^ 16 + r.site % 2 ^ 10 * 2 ^ 16 + r.node.getD (b.rd XL_NODE.SELF) % 2 ^ 10 * 2 ^ 26,
   r.addr % 2 ^ 64, r.cmdTag % 2 ^ 32 + r.aux0 % 2 ^ 32 * 2 ^ 32, r.aux1 % 2 ^ 64, r.aux2 % 2 ^ 64]

/-- Interrupt the control cores of IRQ_MASK (R570). -/
def Block.faultIrq (b : Block) : Block :=
  b.each ((List.range 8).filter (fun h => bit (b.rd FLT_CTRL.IRQ_MASK) h)) (fun b h => b.irq h 0)

/-- A record overflows (R569): the first one is kept and interrupts at once; each counts by class and level. -/
def Block.overflow (b : Block) (r : FaultRec) (ws : List Nat) : Block :=
  let b := if b.on FLT_STATUS.OVERFLOW then b
    else (b.each ((List.range 8).zip ws) (fun b x => b.wr FLT_OVF_REC.WORD x.2 0 x.1)).wr FLT_STATUS.OVERFLOW 1 |>.faultIrq
  (b.inc FLT_OVF_CLASS.COUNT 1 0 (r.cls % 32)).inc FLT_OVF_LEVEL.COUNT 1 0 (r.level % 8)

/-- Write a record into the ring (R565), or let it overflow (R569). -/
def Block.ringPut (b : Block) (r : FaultRec) (ws : List Nat) : Block :=
  let prod := b.rd FLT_RING_IDX.PROD
  if b.on FLT_STATUS.OVERFLOW ∨ !b.on FLT_CTRL.ENABLE ∨ (prod + 2 ^ 32 - b.rd FLT_RING_IDX.CONS) % 2 ^ 32 ≥ 4096
  then b.overflow r ws
  else
    match b.mwrite 0xFFF (b.rd FLT_RING.BASE * 2 ^ 18 + 64 * (prod % 4096)) (plain (bytesOf ws)) with
    | (.ok, b) => { b.addWrap FLT_RING_IDX.PROD with irqOwed := true }
    | _ => b.overflow r ws

/-- Does a record fire the snapshot source FAULT (R649)? -/
def Block.faultSnaps (b : Block) (r : FaultRec) : Bool :=
  bit (b.rd SN_FAULT.CLASS_MASK) r.cls && r.severity ≥ b.rd SN_FAULT.MIN_SEV

/-- While it runs, Lichen sends a PLDM event message for a record of class 19, 20 or 21 (R621); its content is the model's
choice (assumption log 57). -/
def Block.pldmEvent (b : Block) (r : FaultRec) (seq : Nat) : Block :=
  b.whenB (decide (19 ≤ r.cls) && decide (r.cls ≤ 21) && b.rd LC_STATUS.RUN == 1) (fun b =>
    b.emit (.reply 7 10 [0, r.cls, r.cause, r.level, seq]))

/-- FAULT_RECORD (R565, R566, R569, R570, R621, R649): the next record reaches the collector. -/
def Block.doFaultRecord (b : Block) : Block :=
  match b.faultQ with
  | [] => b
  | r :: rest =>
    let seq := b.rd FLT_SEQ.NEXT
    let ws := b.recWords r seq (b.rd FLT_RING_IDX.PROD)
    let b := { b with faultQ := rest }.wr FLT_SEQ.NEXT (seq + 1)
    let b := (b.ringPut r ws).pldmEvent r seq
    b.whenB (b.faultSnaps r) (fun b => b.snapTrigger 1 seq)

/-- FAULT_IRQ (R570): the coalescing interval of a record that entered the ring expires. -/
def Block.doFaultIrq (b : Block) : Block := if b.irqOwed then { b with irqOwed := false }.faultIrq else b

/-- OVERFLOW_CLEAR (R569). -/
def Block.doOverflowClear (b : Block) : Block :=
  let b := b.wr FLT_STATUS.OVERFLOW 0
  b.clearRegs (fun f _ _ => f.id == FLT_OVF_REC.WORD.id || f.id == FLT_OVF_CLASS.COUNT.id || f.id == FLT_OVF_LEVEL.COUNT.id)

/-- SWREC_GO (R576): a class 22 record. -/
def Block.doSwrecGo (b : Block) (cause : BitVec 8) (level : BitVec 3) (aux : BitVec 31) : Block :=
  let b := ((b.wr FLT_SWREC.CAUSE cause.toNat).wr FLT_SWREC.LEVEL level.toNat).wr FLT_SWREC.AUX aux.toNat
  b.report { cls := 22, cause := cause.toNat, level := level.toNat, aux0 := aux.toNat }

/-! ### Context reset -/

/-- CONTEXT_CLEAR (R561, R609, R610): termination of a context ends and its class C fields clear; no register of R83
carries class C. -/
def Block.doContextClear (b : Block) (ctx : BitVec 12) : Block :=
  let b := b.wr FLT_CTX.CTX ctx.toNat
  { b with terminated := NSet.del b.terminated ctx.toNat, termSeq := SMap.erase b.termSeq ctx.toNat }.recContext

/-! ### Availability -/

/-- Count the gap before tick `m` (R573). -/
def Block.gapCount (b : Block) (m : Nat) : Block :=
  let last := b.rd FLT_AV_LAST.TICK
  let n := m - (last + 1)
  if n = 0 then b
  else if b.on FLT_AV_LAST.IN_SVC then b.inc FLT_AV_LOST.COUNT n else b.inc FLT_AV_EXCL.COUNT n

/-- Count the first condition that makes a tick SHORT (R572). -/
def Block.shortCause (b : Block) (f : TickFacts) : Block :=
  if f.unaligned then b.inc FLT_AV_CAUSE.UNALIGNED
  else if f.overrun then b.inc FLT_AV_CAUSE.OVERRUN
  else if f.abort then b.inc FLT_AV_CAUSE.ABORT
  else b.inc FLT_AV_CAUSE.LATE

/-- Classify tick `n`, which the module began and ended at boundaries it generated (R51, R572). -/
def Block.classify (b : Block) (n : Nat) : Block :=
  let f := b.tick.facts
  if !f.begun then b
  else
    let b := b.gapCount n
    let b := if !f.inSvc then b.inc FLT_AV_EXCL.COUNT
      else if f.unaligned || f.overrun || f.abort || f.late then (b.inc FLT_AV_SHORT.COUNT).shortCause f
      else b.inc FLT_AV_FULL.COUNT
    (b.wr FLT_AV_LAST.TICK n).wr FLT_AV_LAST.IN_SVC (b.rd GRP_SVC.IN_SERVICE)

end Sys2Proof.Machine
end

