-- ==== Sys2Proof/Machine/Roce.lean ====
section
/-! DEFINITION. Machine/Roce.lean: ingress windows (R426 to R430) and the RoCEv2 engine as target and requester (R480 to
R487). -/

namespace Sys2Proof.Machine
open Reg

/-! ### Ingress windows -/

/-- An entry of the ingress window table (R426), as read from HBM. -/
def winEntry (die index : Nat) (ws : List Nat) : Option WinE :=
  let w := fun k => ws.getD k 0
  if bit (w 0) 0 then
    some { die := die, index := index, rd := bit (w 0) 1, wr := bit (w 0) 2, atom := bit (w 0) 3, phys := bit (w 0) 4,
           ctx := bits (w 0) 12 12, pd := bits (w 0) 24 12, keychk := bits (w 0) 36 19, start := w 1,
           length := w 2 % 2 ^ 49, vaBase := w 3 % 2 ^ 48 }
  else none

/-- The window a key names (R426, R430): from the cache of the port's N-die, or read and kept there, at most 512 of a die. -/
def Block.window (b : Block) (die key : Nat) : Option WinE × Block :=
  let i := key % 2 ^ 13
  match b.wins.find? (fun w => w.die == die && w.index == i) with
  | some w => (some w, b)
  | none =>
    let (ws, bad, b) := b.tableWords (b.rd XL_WIN.BASE * 2 ^ 18 + 32 * i) 4
    if bad then (none, b)
    else
      match winEntry die i ws with
      | none => (none, b)
      | some w =>
        let (mine, b) := b.room 512 (b.wins.filter (fun x => x.die == die))
        (some w, { b with wins := b.wins.filter (fun x => x.die != die) ++ mine ++ [w] })

/-- A failure at the window (R427). -/
def Block.winFail (b : Block) (addr : Nat) : Block :=
  (b.inc XL_FAULT_CNT.XLAT).report { cls := 2, cause := cWindow, level := 4, addr := addr }

/-- What a request through a window reaches: its context and the start of its range, a virtual address or a local offset. -/
structure WinAt where
  ctx : Nat
  phys : Bool
  base : Nat
  deriving DecidableEq, Repr

/-- Admit a request of `n` bytes (R427). -/
def Block.admitTo (b : Block) (die pd : Nat) (t : RoceTarget) (n : Nat) (perm : WinE → Bool) : Option WinAt × Block :=
  let x := t.addr.toNat
  match b.window die t.key.toNat with
  | (none, b) => (none, b.winFail x)
  | (some w, b) =>
    let off := (x + 2 ^ 64 - w.start) % 2 ^ 64
    if w.keychk ≠ t.key.toNat / 2 ^ 13 ∨ w.pd ≠ pd ∨ !perm w ∨ n = 0 ∨ off + n > w.length ∨ (w.phys ∧ off + n > 2 ^ 46)
    then (none, b.winFail x)
    else if w.phys then (some ⟨w.ctx, true, off⟩, b)
    else
      let va := (sext48 w.vaBase + off) % 2 ^ 64
      if canonical va ∧ canonical ((va + n - 1) % 2 ^ 64) then (some ⟨w.ctx, false, va⟩, b)
      else (none, b.xlFail cNoncanonical w.ctx va)

/-- May a port touch a local offset (R483)? The register space and lock windows are absent to it. -/
def Block.portMay (b : Block) (a : Nat) : Bool :=
  match b.place a with
  | .hbm _ _ => true
  | .peat _ => true
  | .store _ _ => true
  | _ => false

/-- The local offset of one piece of a request (R427, R428). -/
def Block.winLocal (b : Block) (w : WinAt) (a : Nat) (write : Bool) : Option Nat × Block :=
  if w.phys then (some a, b)
  else
    let (x, b) := b.xlate w.ctx a write
    if x.cause ≠ 0 then (none, b)
    else if nodeOf x.pa ≠ b.rd XL_NODE.SELF then (none, b.xlFail cRemoteDenied w.ctx a)
    else (some (offOf x.pa), b)

/-- Write one piece of a request: true where it was performed. -/
def Block.winWriteAt (b : Block) (w : WinAt) (a : Nat) (bs : List Byte) : Bool × Block :=
  match b.winLocal w a true with
  | (none, b) => (false, b)
  | (some o, b) =>
    if !b.portMay o then (false, b.absentRec 2 w.ctx o 0)
    else match b.mwrite w.ctx o (plain bs) with
      | (.ok, b) => (true, b)
      | (_, b) => (false, b)

/-- Write a request's bytes, piece by piece in order of address. -/
def Block.winWrite (b : Block) (w : WinAt) (bs : List Byte) : Bool × Block :=
  (linePieces w.base bs.length).foldl (fun (acc : Bool × Block) pc =>
    if !acc.1 then acc else acc.2.winWriteAt w pc.1 ((bs.drop (pc.1 - w.base)).take pc.2)) (true, b)

/-- Read one piece of a request: none where it failed. -/
def Block.winReadAt (b : Block) (w : WinAt) (a n : Nat) : Option MBytes × Block :=
  match b.winLocal w a false with
  | (none, b) => (none, b)
  | (some o, b) =>
    if !b.portMay o then (none, b.absentRec 1 w.ctx o 0)
    else
      let (r, b) := b.mread w.ctx o n
      if r.tagFail then (none, b) else (some r.data, b)

/-- Read a request's bytes. -/
def Block.winRead (b : Block) (w : WinAt) (n : Nat) : Option MBytes × Block :=
  (linePieces w.base n).foldl (fun (acc : Option MBytes × Block) pc =>
    match acc.1 with
    | none => acc
    | some ms =>
      match acc.2.winReadAt w pc.1 pc.2 with
      | (none, b) => (none, b)
      | (some x, b) => (some (ms ++ x), b)) (some [], b)

/-! ### Queue pairs -/

/-- Update one queue pair. -/
def Block.onQp (b : Block) (i : Nat) (f : Qp → Qp) : Block :=
  { b with qps := b.qps.map (fun (q : Qp) => if q.i == i then f q else q) }

/-- The queue pair with index `i`. -/
def Block.qp (b : Block) (i : Nat) : Option Qp := b.qps.find? (fun (q : Qp) => q.i == i)

/-- Gb/s of the sub-port of the queue pair with index `i`, by its port's MODE (R474). -/
def Block.portRate (b : Block) (i : Nat) : Rat :=
  let m := b.rd DM_PCTRL.MODE (b.qpSub i / 4)
  if m < 2 then 1600 else if m < 4 then 800 else 400

/-- Does a QP table entry keep R481? -/
def qpOk (ws : List Nat) : Bool :=
  let w := fun k => ws.getD k 0
  bit (w 0) 0 && bits (w 0) 1 2 != 3 && bits (w 0) 5 7 == 0 && bits (w 0) 48 16 == 0 && bits (w 1) 59 5 != 0
    && bits (w 4) 0 12 == 0 && bits (w 4) 48 4 ≤ 11 && bits (w 4) 52 3 ≤ 5 && bits (w 4) 55 9 == 0 && bits (w 5) 12 52 == 0
    && w 6 == 0 && w 7 == 0

/-- A queue pair from its entry (R481): words 2 and 3 hold the client's address in network order. -/
def Block.qpFrom (b : Block) (i : Nat) (ws : List Nat) : Qp :=
  let w := fun k => ws.getD k 0
  { i := i, st := 1, pmtu := 2 ^ (10 + bits (w 0) 1 2), cls := bits (w 0) 3 1, rqEn := bit (w 0) 4, pd := bits (w 0) 12 12,
    destQpn := bits (w 0) 24 24, epsn := bits (w 1) 0 24, spsn := bits (w 1) 24 24, retryCnt := bits (w 1) 48 3,
    rnrRetry := bits (w 1) 51 3, rnrTimer := bits (w 1) 54 5, ackTimeout := bits (w 1) 59 5, addr := beNat (leBytes 8 (w 2) ++ leBytes 8 (w 3)),
    rqVa := bits (w 4) 0 48, rqLog2 := bits (w 4) 48 4, rqSlot := bits (w 4) 52 3, rqCtx := bits (w 5) 0 12, rqProd := 0,
    lastErr := 0, nakSent := false, replay := [], rate := b.portRate i, cnpSent := false, cnpGot := false, reqs := [] }

/-- A queue pair operation as written to DM_QPCMD. -/
def Block.qpcmd (b : Block) (i op : Nat) : Block := (b.wr DM_QPCMD.QP i).wr DM_QPCMD.OP op

/-- QP_ENABLE (R482). -/
def Block.doQpEnable (b : Block) (i : BitVec 12) : Block :=
  let b := b.qpcmd i.toNat 1
  if (b.qp i.toNat).elim false (fun q => q.st != 0) then b.wr DM_STATUS.CFG_ERR 1
  else
    let (ws, bad, b) := b.tableWords (b.rd DM_QPT.BASE * 2 ^ 16 + 64 * i.toNat) 8
    if bad || !qpOk ws then b.wr DM_STATUS.CFG_ERR 1
    else
      let q := b.qpFrom i.toNat ws
      { b with qps := b.qps.filter (fun (x : Qp) => x.i != i.toNat) ++ [q] }

/-- The requester operations of a queue pair end: the records they carry are diverted (R466, R487). -/
def Block.qpFail (b : Block) (q : Qp) (cause : Nat) : Block :=
  b.each q.reqs (fun b r => b.recFailed r.2.1 cause)

/-- QP_DISABLE (R482): the queue pair's state is dropped. -/
def Block.doQpDisable (b : Block) (i : BitVec 12) : Block :=
  let b := b.qpcmd i.toNat 0
  match b.qp i.toNat with
  | none => b
  | some q => ({ b with qps := b.qps.filter (fun (x : Qp) => x.i != i.toNat) }).qpFail q 5

/-- A queue pair moves to ERROR (R482, R487): requester use of it ends. -/
def Block.qpError (b : Block) (q : Qp) (cause : Nat) : Block :=
  let b := (b.onQp q.i (fun (x : Qp) => { x with st := 2, reqs := [] })).inc DM_ROCE_CNT.QP_ERR
  b.qpFail q cause

/-! ### Answers of the target -/

/-- Syndromes of negative answers in the InfiniBand encoding: PSN sequence error, invalid request, remote access error,
remote operational error. -/
def nakPsn : Nat := 0x60
/-- Invalid request. -/
def nakInvalid : Nat := 0x61
/-- Remote access error. -/
def nakAccess : Nat := 0x62
/-- Remote operational error. -/
def nakOper : Nat := 0x63
/-- RNR NAK with a timer. -/
def nakRnr (t : Nat) : Nat := 0x20 + t

/-- Send a negative answer (R485). `own`: no translation, tag or absent record stands for it, so one of class NETWORK does. -/
def Block.nak (b : Block) (q : Qp) (psn syndrome : Nat) (own : Bool) : Block :=
  let b := (b.onQp q.i (fun (x : Qp) => { x with lastErr := syndrome })).inc DM_ROCE_CNT.NAK_SENT
  let b := b.whenB own (fun b => b.report { cls := 16, cause := 2, level := 4 })
  b.roceTx q 3 [psn, syndrome] []

/-- A negative answer that moves the queue pair to ERROR. -/
def Block.nakError (b : Block) (q : Qp) (psn syndrome : Nat) (own : Bool) : Block :=
  (b.nak q psn syndrome own).qpError q 5


/-- The sub-port takes RoCEv2 and Damask packets: it is in service and the engines run (R477, R517). -/
def Block.netTakes (b : Block) (sub : Nat) : Bool := b.on DM_CTRL.ENABLE && NSet.mem b.ports.up sub

/-- Packets of a message of `n` bytes. -/
def Qp.packets (q : Qp) (n : Nat) : Nat := max 1 ((n + q.pmtu - 1) / q.pmtu)

/-- A positive answer to a message of `n` bytes whose first packet has PSN `psn`: it names the PSN of the last one
(PRESUMED, assumption log 59). -/
def Block.rack (b : Block) (q : Qp) (psn n : Nat) : Block := b.roceTx q 2 [(psn + q.packets n - 1) % 2 ^ 24] []

/-- Where the PSN of a request lies: 0 expected, 1 beyond, 2 a duplicate. -/
def Qp.psnAt (q : Qp) (psn : Nat) : Nat :=
  let d := (psn + 2 ^ 24 - q.epsn) % 2 ^ 24
  if d = 0 then 0 else if d < 2 ^ 23 then 1 else 2

/-- A packet marked CE (R486): one CNP in each gap. -/
def Block.notify (b : Block) (q : Qp) : Block :=
  if q.cnpSent then b
  else ((b.onQp q.i (fun (x : Qp) => { x with cnpSent := true })).inc DM_ROCE_CNT.CNP_SENT).roceTx q 6 [] []

/-- Take a request of `n` PSNs (R483, R485): dropped, answered as out of sequence or a duplicate, or performed. -/
def Block.request (b : Block) (p : RocePkt) (n : Qp → Nat) (dup : Block → Qp → Block) (perf : Block → Qp → Block) : Block :=
  if !b.netTakes p.sub.val then b
  else
    let drop := b.inc DM_PERR_CNT.FILTER_DROP 1 (p.sub.val / 4)
    if !p.icrc || p.qpn.toNat < 0x1000 || p.qpn.toNat ≥ 0x2000 then drop
    else match b.qp (p.qpn.toNat - 0x1000) with
      | none => drop
      | some q =>
        if q.st ≠ 1 then drop
        else
          let b := b.whenB p.ce (fun b => b.notify q)
          let at_ := q.psnAt p.psn.toNat
          if at_ = 2 then dup b q
          else if at_ = 1 then
            if q.nakSent then b
            else (b.onQp q.i (fun (x : Qp) => { x with nakSent := true })).nak q q.epsn nakPsn true
          else
            let b := b.onQp q.i (fun (x : Qp) => { x with nakSent := false, epsn := (x.epsn + n q) % 2 ^ 24 })
            if p.malformed then b.nakError q p.psn.toNat nakInvalid true else perf b q

/-- The N-die of a sub-port: ports 0 to 7 lie on N-die 0. -/
def dieOfSub (sub : Nat) : Nat := sub / 32

/-- RDMA_WRITE (R483). -/
def Block.doRdmaWrite (b : Block) (p : RocePkt) (t : RoceTarget) (data : List Byte) : Block :=
  b.request p (fun q => q.packets data.length) (fun b q => b.rack q p.psn.toNat data.length) fun b q =>
    match b.admitTo (dieOfSub p.sub.val) q.pd t data.length (·.wr) with
    | (none, b) => b.nakError q p.psn.toNat nakAccess false
    | (some w, b) =>
      match b.winWrite w data with
      | (true, b) => b.rack q p.psn.toNat data.length
      | (false, b) => b.nakError q p.psn.toNat nakAccess false

/-- Slots of a receive ring, and their size (R481). -/
def Qp.slots (q : Qp) : Nat := 2 ^ (q.rqLog2 + 4)
/-- Bytes of a receive slot. -/
def Qp.slotSize (q : Qp) : Nat := 2 ^ (q.rqSlot + 8)

/-- Is a receive slot free (R484)? -/
def Block.slotFree (b : Block) (q : Qp) : Bool :=
  decide ((q.rqProd + 2 ^ 32 - b.rd DM_RQ_IDX.CONS 0 q.i) % 2 ^ 32 < q.slots)

/-- Write a receive slot (R484): the payload of a Send at byte 32, then the header. False: a write failed. -/
def Block.fillSlot (b : Block) (q : Qp) (payload : List Byte) (len kind : Nat) (imm : Option Nat) (psn : Nat) : Bool × Block :=
  let va := (q.rqVa + q.slotSize * (q.rqProd % q.slots)) % 2 ^ 48
  let hdr := [phaseOf q.rqProd q.slots + kind * 2 ^ 8 + imm.isSome.toNat * 2 ^ 9, len, imm.getD 0, psn]
  let (r, b) := if payload.isEmpty then (⟨0, 0, 0, []⟩, b)
    else b.bwrite q.cls 521 q.rqCtx (sext48 (va + 32)) (plain payload) 0 none
  if r.fail ≠ 0 then (false, b)
  else
    let (r, b) := b.bwrite q.cls 521 q.rqCtx (sext48 va) (plain (bytesOf hdr)) 2 none
    if r.fail ≠ 0 then (false, b) else (true, b.onQp q.i (fun (x : Qp) => { x with rqProd := (x.rqProd + 1) % 2 ^ 32 }))

/-- A slot is filled and the request acknowledged, or the queue pair errs. -/
def Block.fillAck (b : Block) (q : Qp) (payload : List Byte) (len kind : Nat) (imm : Option Nat) (psn : Nat) : Block :=
  match b.fillSlot q payload len kind imm psn with
  | (true, b) => b.rack q psn len
  | (false, b) => b.nakError q psn nakAccess false

/-- RNR NAK (R485): the request will come again. -/
def Block.rnr (b : Block) (q : Qp) (psn : Nat) : Block :=
  (b.onQp q.i (fun (x : Qp) => { x with epsn := psn })).nak q psn (nakRnr q.rnrTimer) true

/-- WRITE_WITH_IMMEDIATE (R483, R484). -/
def Block.doWriteWithImmediate (b : Block) (p : RocePkt) (t : RoceTarget) (data : List Byte) (imm : BitVec 32) : Block :=
  let psn := p.psn.toNat
  b.request p (fun q => q.packets data.length) (fun b q => b.rack q psn data.length) fun b q =>
    if !q.rqEn then b.nakError q psn nakInvalid true
    else if !b.slotFree q then b.rnr q psn
    else match b.admitTo (dieOfSub p.sub.val) q.pd t data.length (·.wr) with
      | (none, b) => b.nakError q psn nakAccess false
      | (some w, b) =>
        match b.winWrite w data with
        | (true, b) => b.fillAck q [] data.length 1 (some imm.toNat) psn
        | (false, b) => b.nakError q psn nakAccess false

/-- SEND, with or without immediate (R484). -/
def Block.doSend (b : Block) (p : RocePkt) (data : List Byte) (imm : Option (BitVec 32)) : Block :=
  let psn := p.psn.toNat
  b.request p (fun q => q.packets data.length) (fun b q => b.rack q psn data.length) fun b q =>
    if !q.rqEn ∨ data.length > q.slotSize - 32 then b.nakError q psn nakInvalid true
    else if !b.slotFree q then b.rnr q psn
    else b.fillAck q data data.length 0 (imm.map (·.toNat)) psn

/-- The bytes of a read leave in packets (R485): a packet with a poisoned word is replaced by a NAK. -/
def Block.readPackets (q : Qp) (psn0 : Nat) : Nat → Block → MBytes → Nat → Block
  | 0, b, _, _ => b
  | n + 1, b, ms, k =>
    let part : MBytes := ms.take q.pmtu
    if part.pois then b.nakError q ((psn0 + k) % 2 ^ 24) nakOper true
    else Block.readPackets q psn0 n (b.roceTx q 4 [(psn0 + k) % 2 ^ 24] (MBytes.bytes part)) (ms.drop q.pmtu) (k + 1)

/-- Perform a read for a queue pair. -/
def Block.readFor (b : Block) (p : RocePkt) (t : RoceTarget) (n : Nat) (q : Qp) : Block :=
  match b.admitTo (dieOfSub p.sub.val) q.pd t n (·.rd) with
  | (none, b) => b.nakError q p.psn.toNat nakAccess false
  | (some w, b) =>
    match b.winRead w n with
    | (none, b) => b.nakError q p.psn.toNat nakAccess false
    | (some ms, b) => Block.readPackets q p.psn.toNat (q.packets n) b ms 0

/-- RDMA_READ (R483, R485). `full`: 16 reads and atomics of the queue pair are outstanding already. -/
def Block.doRdmaRead (b : Block) (p : RocePkt) (t : RoceTarget) (len : BitVec 32) (full : Bool) : Block :=
  b.request p (fun q => q.packets len.toNat) (fun b q => b.readFor p t len.toNat q) fun b q =>
    if full then b.nakError q p.psn.toNat nakInvalid true else b.readFor p t len.toNat q

/-- A duplicate atomic (R485): answered from the replay store. -/
def Block.atomicDup (b : Block) (q : Qp) (psn : Nat) : Block :=
  match q.replay.find? (fun x => x.1 == psn) with
  | some x => b.roceTx q 5 [psn, x.2] []
  | none => b.nakError q psn nakInvalid true

/-- Perform an atomic of 8 bytes for a queue pair (R143, R480, R485). -/
def Block.atomicFor (b : Block) (p : RocePkt) (t : RoceTarget) (op v cmp : Nat) (q : Qp) : Block :=
  let psn := p.psn.toNat
  let bad := fun (b : Block) => b.nakError q psn nakAccess false
  if t.addr.toNat % 8 ≠ 0 then b.nakError q psn nakInvalid true
  else match b.admitTo (dieOfSub p.sub.val) q.pd t 8 (·.atom) with
    | (none, b) => bad b
    | (some w, b) =>
      if w.base % 8 ≠ 0 then b.nakError q psn nakInvalid true
      else match b.winLocal w w.base true with
        | (none, b) => bad b
        | (some o, b) =>
          if !b.portMay o then bad (b.absentRec 2 w.ctx o 0)
          else match b.matomic w.ctx o 8 op v cmp with
            | (old, pois, .ok, b) =>
              if pois then b.nakError q psn nakOper true
              else (b.onQp q.i (fun (x : Qp) => { x with replay := (x.replay ++ [(psn, old)]).drop (x.replay.length - 15) })).roceTx
                q 5 [psn, old] []
            | (_, _, _, b) => bad b

/-- FETCH_AND_ADD (R480). -/
def Block.doFetchAndAdd (b : Block) (p : RocePkt) (t : RoceTarget) (v : W64) (full : Bool) : Block :=
  b.request p (fun _ => 1) (fun b q => b.atomicDup q p.psn.toNat) fun b q =>
    if full then b.nakError q p.psn.toNat nakInvalid true else b.atomicFor p t 0 v.toNat 0 q

/-- COMPARE_AND_SWAP (R480). -/
def Block.doCompareAndSwap (b : Block) (p : RocePkt) (t : RoceTarget) (v cmp : W64) (full : Bool) : Block :=
  b.request p (fun _ => 1) (fun b q => b.atomicDup q p.psn.toNat) fun b q =>
    if full then b.nakError q p.psn.toNat nakInvalid true else b.atomicFor p t 1 v.toNat cmp.toNat q

/-! ### Congestion -/

/-- The queue pair of an answer or CNP that reaches the module, where it is READY. -/
def Block.qpOf (b : Block) (p : RocePkt) : Option Qp :=
  if b.netTakes p.sub.val && p.icrc && 0x1000 ≤ p.qpn.toNat then
    match b.qp (p.qpn.toNat - 0x1000) with
    | none => none
    | some q => if q.st = 1 then some q else none
  else none

/-- Take an answer or a CNP for its queue pair, where it is READY. One marked CE causes a CNP as a request does (R486). -/
def Block.qpTake (b : Block) (p : RocePkt) (f : Block → Qp → Block) : Block :=
  match b.qpOf p with
  | none => b
  | some q => f (b.whenB p.ce (fun b => b.notify q)) q

/-- CNP (R486): the send rate halves, to no less than 1 Gb/s. -/
def Block.doCnp (b : Block) (p : RocePkt) : Block :=
  b.qpTake p fun b q =>
    (b.inc DM_ROCE_CNT.CNP_RCVD).onQp q.i (fun (x : Qp) => { x with rate := max 1 (x.rate / 2), cnpGot := true })

/-- CNP_GAP_TIMER (R486): CNP_GAP_US have passed for a queue pair. -/
def Block.doCnpGapTimer (b : Block) (i : BitVec 12) : Block :=
  b.onQp i.toNat (fun (x : Qp) =>
    { x with rate := if x.cnpGot then x.rate else min (x.rate + 1) (b.portRate i.toNat), cnpGot := false, cnpSent := false })

/-! ### The requester -/

/-- ROCE_ACK (R464, R487): every operation up to a PSN has completed for release. -/
def Block.doRoceAck (b : Block) (p : RocePkt) : Block :=
  b.qpTake p fun b q =>
    let got := fun (r : Nat × Nat × Bool × Nat × Nat) => decide ((p.psn.toNat + 2 ^ 24 - r.1) % 2 ^ 24 < 2 ^ 23)
    let b := b.onQp q.i (fun (x : Qp) => { x with reqs := x.reqs.filter (fun r => !got r) })
    b.each (q.reqs.filter got) (fun b r => b.recAcked r.2.1)

/-- ROCE_NAK (R487): any syndrome but RNR diverts the record and moves the queue pair to ERROR; after an RNR NAK the
operation waits for ROCE_RNR_RETRY. -/
def Block.doRoceNak (b : Block) (p : RocePkt) (syndrome : BitVec 8) : Block :=
  b.qpTake p fun b q =>
    let s := syndrome.toNat
    let b := b.onQp q.i (fun (x : Qp) => { x with lastErr := s })
    if s / 32 = 1 ∨ q.reqs.isEmpty then b
    else (b.qpError q 5).report { cls := 16, cause := 3, level := 4 }

/-- Send a requester operation again from the record it carries. -/
def Block.resend (b : Block) (q : Qp) (r : Nat × Nat × Bool × Nat × Nat) : Block :=
  match b.bk.recs.find? (fun x => x.cmd.tag == r.2.1 && x.phase ≥ 1) with
  | none => b
  | some x =>
    if r.2.2.1 then b.roceTx q 1 [r.1, x.cmd.rkey, x.cmd.incVa] (leBytes 8 x.cmd.incVal)
    else b.roceTx q 0 [r.1, x.cmd.rkey, x.cmd.complVa] (bytesOf x.words)

/-- A requester operation that is out of retries moves the queue pair to ERROR (R487). -/
def Block.outOfRetries (b : Block) (q : Qp) (cause : Nat) : Block :=
  (b.qpError q cause).report { cls := 16, cause := 3, level := 4 }

/-- ROCE_ACK_TIMEOUT (R487): the oldest operation's timeout expires. -/
def Block.doRoceAckTimeout (b : Block) (i : BitVec 12) : Block :=
  match b.qp i.toNat with
  | none => b
  | some q =>
    match q.st, q.reqs with
    | 1, r :: _ =>
      if r.2.2.2.1 ≥ q.retryCnt then b.outOfRetries q 6
      else
        let reqs := q.reqs.map (fun r => (r.1, r.2.1, r.2.2.1, r.2.2.2.1 + 1, r.2.2.2.2))
        (b.onQp q.i (fun (x : Qp) => { x with reqs := reqs })).each reqs (fun b r => b.resend q r)
    | _, _ => b

/-- ROCE_RNR_RETRY (R487): the RNR timer expires. RNR_RETRY 7 retries without limit. -/
def Block.doRoceRnrRetry (b : Block) (i : BitVec 12) : Block :=
  match b.qp i.toNat with
  | none => b
  | some q =>
    match q.st, q.reqs with
    | 1, r :: _ =>
      if q.rnrRetry ≠ 7 ∧ r.2.2.2.2 ≥ q.rnrRetry then b.outOfRetries q 5
      else
        let reqs := q.reqs.map (fun r => (r.1, r.2.1, r.2.2.1, r.2.2.2.1, r.2.2.2.2 + 1))
        (b.onQp q.i (fun (x : Qp) => { x with reqs := reqs })).each reqs (fun b r => b.resend q r)
    | _, _ => b

end Sys2Proof.Machine
end

