-- ==== Sys2Proof/Machine/Network.lean ====
section
/-! DEFINITION. Machine/Network.lean: the receiving side of the Damask transport, acknowledgement, retransmission and path
failure (R488 to R505). -/

namespace Sys2Proof.Machine
open Reg

/-! ### Held writes and atomics (R502) -/

/-- The issuer of an access, while its step still runs on its tile. -/
def Block.ownerRuns (b : Block) (o : Option Issuer) : Option Issuer :=
  o.filter (fun o => (b.site o.site).run.elim false (fun r => r.d.cmdTag == o.tag && r.tick == o.tick && r.d.index == o.index))

/-- An exception that a message brings on the running step that issued an access, at its instruction (R124, R490). -/
def Block.raiseLate (b : Block) (o : Option Issuer) (code : Nat) : Block :=
  match b.ownerRuns o with
  | none => b
  | some o => b.raise o.site code o.eng o.pc o.va

/-- The value a scalar load or an atomic waits for has come. -/
def Block.loadGot (b : Block) (p v : Nat) (pois : Bool) (exc : Nat) : Block :=
  b.onSite p (fun s => { s with pend := s.pend.map (fun (x : PendLoad) =>
    { x with value := v, poison := pois, exc := exc, ready := true }) })

/-- An access has been performed, or has ended: what waited for it waits for it no more (R499). -/
def Block.heldDone (b : Block) (uid : Nat) : Block :=
  b.onDm (fun d => { d with holds := d.holds.map (fun (h : RelHold) => { h with waits := NSet.del h.waits uid }) })

/-- A held write at this module's memory. Whole words of the tile's own local store move with their codes (R161). -/
def Block.heldWrite (b : Block) (h : RelHold) : Block :=
  match b.place (offOf h.pa), h.codes with
  | .store l off, w :: ws => b.lsPutWords (b.siteOf l) off (w :: ws)
  | _, _ =>
    match b.twrite (regionOfSite (b.siteOf h.src)) h.ctx (offOf h.pa) h.data false with
    | (.ok, b) => b
    | (.tag, b) => b.raiseLate h.owner xTag
    | (.absent, b) => b.raiseLate h.owner xAbsentWrite

/-- A held read at this module's memory: its value reaches the load. -/
def Block.heldLoad (b : Block) (h : RelHold) : Block :=
  let (r, b) := b.tread (regionOfSite (b.siteOf h.src)) h.ctx (offOf h.pa) h.width false
  match h.site with
  | none => b
  | some p => if r.tagFail then b.loadGot p 0 false xTag else b.loadGot p (leNat r.bytes) r.pois 0

/-- A held atomic at this module's memory. -/
def Block.heldAtomic (b : Block) (h : RelHold) : Block :=
  let (old, pois, r, b) := b.matomic h.ctx (offOf h.pa) h.width (h.kind - 1) (leNat h.data.bytes) h.cmpv
  match h.site with
  | none => b
  | some p =>
    match r with
    | .ok => (b.logEffect p 0 [old]).loadGot p old pois 0
    | .tag => b.loadGot p 0 false xTag
    | .absent => b.loadGot p 0 false xAbsentWrite

/-- Perform a held access at this module's memory; at a held tile it waits on (R62, R605). -/
def Block.heldLocal (b : Block) (h : RelHold) : Block :=
  b.orHold (offOf h.pa) (.access h) fun b =>
    (if h.kind = 0 then b.heldWrite h else if h.kind = 4 then b.heldLoad h else b.heldAtomic h).heldDone h.uid

/-- Send a held access to its node, with path release (R502). Without a path it is one to an absent address (R425). -/
def Block.heldRemote (b : Block) (h : RelHold) : Block :=
  let node := nodeOf h.pa
  let off := offOf h.pa
  if !b.hasPath node h.cls h.src then
    let b := (b.absentRec (if h.kind = 4 then 1 else 2) h.ctx off 0).heldDone h.uid
    match h.site with
    | some p => if h.kind = 4 then b.loadGot p 0 true 0 else b.loadGot p 0 false xAbsentWrite
    | none => b.raiseLate h.owner xAbsentWrite
  else if h.kind = 0 then
    (b.dmSend node h.cls h.src 0x10 1 h.ctx off [h.data.length] h.data h.owner none (some h.uid) h.ent).2
  else
    let who := h.site.elim Waiter.bracken Waiter.load
    if h.kind = 4 then b.dmAsk node h.cls h.src 0x11 0 h.ctx off h.width [h.width] who h.owner none (some h.uid) h.ent
    else b.dmAsk node h.cls h.src 0x13 1 h.ctx off 8 [h.kind - 1, (h.width == 8).toNat, leNat h.data.bytes, h.cmpv] who h.owner none
      (some h.uid) h.ent

/-- A write of a running or ended step has been abandoned: its command's record learns of it (R505). -/
def Block.loseOwner (b : Block) (o : Option Issuer) : Block :=
  match o with
  | none => b
  | some o => b.onCmd o.tag (fun c => { c with lost := true })

/-- Later releases of a source learn that an earlier write was abandoned (R502, R505). -/
def Block.loseWrite (b : Block) (uid src : Nat) (o : Option Issuer) : Block :=
  let b := b.onDm (fun d => { d with holds := d.holds.map (fun (h : RelHold) =>
    if h.waits.any (· == uid) then { h with bad := true, waits := NSet.del h.waits uid } else h) })
  let b := b.onBk (fun k => { k with recs := k.recs.map (fun (r : CRec) =>
    if r.phase = 0 ∧ b.recSrc r = src ∧ uid < r.uid then { r with bad := true } else r) })
  b.loseOwner o

/-- Carry out a held access that waits for nothing any more, or abandon it where a write it waited for was (R502). A FENCE is
answered (R503). -/
def Block.releaseOne (b : Block) (h : RelHold) : Block :=
  if h.kind = 3 then b.emit (.data h.src h.pa 0 [])
  else if h.bad then
    let b := b.loseWrite h.uid h.src h.owner
    match h.site with
    | some p => b.loadGot p 0 true 0
    | none => b
  else if nodeOf h.pa = b.rd XL_NODE.SELF then b.heldLocal h
  else b.heldRemote h

/-- Carry out, or abandon, the held accesses that wait for nothing any more. -/
def Block.releaseN : Nat → Block → Block
  | 0, b => b
  | n + 1, b =>
    match b.dm.holds.find? (fun h => h.waits.isEmpty) with
    | none => b
    | some h =>
      let b := (b.onDm (fun d => { d with holds := d.holds.erase h })).releaseOne h
      Block.releaseN n (match h.owner with
        | some o => b.tryEnd o.site
        | none => b)

/-- Carry out what waits for nothing any more. -/
def Block.release (b : Block) : Block := Block.releaseN (b.dm.holds.length + 1) b

/-- A message is acknowledged (R494, R499). -/
def Block.msgAcked (b : Block) (m : DmMsg) : Block :=
  let b := match m.record with
    | some tag => b.recAcked tag
    | none => b
  (b.omapAcked m.uid).heldDone m.uid

/-! ### Answers to reads and atomics -/

/-- Poisoned bytes, as an access that brings no data returns them. -/
def poisonedBytes (n : Nat) : MBytes := List.replicate n (0, true)

/-- The instruction of a site's DMA engine that waits for data: its index. -/
def Block.dmaPc (b : Block) (p : Nat) : Nat := ((b.site p).runs.find? (fun r => r.ins.eng == 2)).elim (b.pcOf p) (fun r => r.ins.pc)

/-- The answer to a read or atomic reaches whoever waits for it (R490): `st` 0 OK, 1 ABSENT, 2 TAG_MISMATCH, 3 DENIED. The
answer to a memory-value wait that has timed out has no effect but that it has come (R112, R115). -/
def Block.answer (b : Block) (t : DmTag) (st : Nat) (ms : MBytes) : Block :=
  let b := b.onDm (fun d => { d with tags := d.tags.filter (fun x => x.tag != t.tag) })
  let ms := if st = 0 then ms else poisonedBytes t.len
  let v := leNat ms.bytes
  match t.who with
  | .load p => if st = 2 then b.loadGot p 0 false xTag else b.loadGot p v ms.pois 0
  | .engine p va => if st = 2 then b.raise p xTag 2 (b.dmaPc p) (va % 2 ^ 48) else b.farPut p va ms
  | .bracken => b
  | .core h pa => b.emit (.data (513 + h) pa (if st = 3 then 1 else st) (if st = 2 then [] else ms))
  | .wait p =>
    match (b.site p).wait with
    | none => b.tryEnd p
    | some w =>
      if w.tag ≠ t.tag ∨ w.off.isSome then b.tryEnd p
      else if st = 2 then b.raise p xTag 1 w.pc (w.va % 2 ^ 48)
      else b.waitGot p v ms.pois
  | .watch q => b.watchGot q v (ms.pois || st == 2)

/-- An atomic's answer logs its effect (R550) before it reaches the tile; one that the memory discarded raises ABSENT_WRITE
(R144). -/
def Block.atomicAnswer (b : Block) (t : DmTag) (st : Nat) (ms : MBytes) : Block :=
  match t.who with
  | .load p =>
    if st = 1 ∨ st = 3 then
      (b.onDm (fun d => { d with tags := d.tags.filter (fun x => x.tag != t.tag) })).loadGot p 0 false xAbsentWrite
    else (b.whenB (st == 0) (fun b => b.logEffect p 0 [leNat ms.bytes])).answer t st ms
  | _ => b.answer t st ms

/-! ### Path failure -/

/-- A message of a failed path ends (R495): a read or atomic returns poisoned words, a write is abandoned. -/
def Block.msgFailed (b : Block) (m : DmMsg) : Block :=
  let b := match b.dm.tags.find? (fun t => t.uid == m.uid) with
    | some t => b.answer t 0 (poisonedBytes t.len)
    | none => b
  let b := match m.record with
    | some tag => b.recFailed tag 7
    | none => b
  let b := b.omapAcked m.uid
  if m.type = 0x10 ∨ m.type = 0x13 then b.loseWrite m.uid m.src m.owner else b

/-- A send path fails (R492, R495): every unacknowledged message of it ends, with one fault record. -/
def Block.pathFail (b : Block) (p : SendPath) : Block :=
  let b := b.onDm (fun d => { d with send := d.send.filter (fun x => x.id != p.id) })
  let b := (b.inc DM_PATH_CNT.FAILED).report { cls := 16, cause := 1, level := 4, node := some p.node }
  (b.each (p.unacked ++ p.queue) Block.msgFailed).release

/-- Send an unacknowledged message again (R495, R496), or fail its path beyond RETRY_MAX. -/
def Block.retransmit (b : Block) (p : SendPath) (m : DmMsg) : Block :=
  if b.tick.fatal then b
  else if m.sends > b.rd DM_CTRL.RETRY_MAX then b.pathFail p
  else
    let m' := { m with sends := m.sends + 1, port := b.subPort p.id p.cls (some m.port) }
    let b := b.onDm (fun d => d.onSend p.id (fun x => { x with unacked := x.unacked.map (fun y => if y.uid == m.uid then m' else y) }))
    (b.inc DM_RETX_CNT.RETX).dmWire p.node p.id p.cls m'

/-- DAMASK_RETRANSMIT_TIMER (R495): the timer of an unacknowledged message expires. -/
def Block.doDamaskRetransmitTimer (b : Block) (path : BitVec 12) (seq : BitVec 32) : Block :=
  match b.dm.send.find? (fun p => p.id == path.toNat) with
  | none => b
  | some p =>
    match p.unacked.find? (fun m => m.seq == seq.toNat) with
    | none => b
    | some m => b.retransmit p m

/-- PATH_IDLE_CLOSE (R492): a path with nothing outstanding for IDLE_MS is closed with CLOSE. -/
def Block.doPathIdleClose (b : Block) (path : BitVec 12) : Block :=
  match b.dm.send.find? (fun p => p.id == path.toNat) with
  | none => b
  | some p =>
    if p.closing ∨ !p.unacked.isEmpty ∨ !p.queue.isEmpty then b
    else
      (b.onDm (fun d => { d with uid := d.uid + 1 }.onSend p.id (fun x => { x with
        queue := [b.ownMsg 0x02], closing := true }))).dmPump p.id

/-! ### Acknowledgement at the sender -/

/-- Is SEQ `s` at or below CUM `c`, modulo 2^32 (R492)? -/
def seqLe (s c : Nat) : Bool := decide ((c + 2 ^ 32 - s) % 2 ^ 32 < 2 ^ 31)

/-- The congestion window after an ACK that acknowledges `n` messages (R497). -/
def Block.window497 (b : Block) (p : SendPath) (n : Nat) (ece : Bool) : SendPath :=
  let p := { p with halved := p.halved + n }
  if ece then
    if p.halved ≥ p.cwnd then { p with cwnd := max 4 (p.cwnd / 2), halved := 0, grown := 0 } else p
  else
    let g := p.grown + n
    { p with cwnd := if g ≥ p.cwnd then min (p.cwnd + g / p.cwnd) (b.rd DM_CTRL.WINDOW) else p.cwnd, grown := g % p.cwnd }

/-- Messages of a path that the SACK passes by: DUP_THRESH or more higher ones show in it (R495). One that has been sent
again already waits for its timer (DESIGN CHOICE, assumption log 55). -/
def Block.passedBy (b : Block) (p : SendPath) (cum sack : Nat) : List DmMsg :=
  let shown := fun (m : DmMsg) => bit sack ((m.seq + 2 ^ 32 - cum - 1) % 2 ^ 32 % 64) && (m.seq + 2 ^ 32 - cum - 1) % 2 ^ 32 < 64
  p.unacked.filter (fun m => m.sends == 1 && !shown m &&
    (p.unacked.filter (fun x => shown x && !seqLe x.seq m.seq)).length ≥ b.rd DM_CTRL.DUP_THRESH)

/-- A path has been acknowledged up to CUM with a SACK. -/
def Block.pathAcked (b : Block) (p : SendPath) (cum sack : Nat) (ece : Bool) : Block :=
  let got := p.unacked.filter (fun m => seqLe m.seq cum)
  let mine := got.filterMap (fun m => if m.type == 0x10 then m.owner.map (fun o => (m.seq, o)) else none)
  let q := b.window497 p got.length ece
  let all := q.acked ++ mine
  let q := { q with unacked := q.unacked.filter (fun m => !seqLe m.seq cum), acked := all.drop (all.length - 1024) }
  let done := got.any (fun m => m.type == 0x02)
  let b := b.onDm (fun d => if done then { d with send := d.send.filter (fun x => x.id != p.id) } else d.onSend p.id (fun _ => q))
  let b := (b.each got Block.msgAcked).release
  let b := b.each (b.passedBy q cum sack) (fun b m =>
    match b.dm.send.find? (fun x => x.id == p.id) with
    | some x => b.retransmit x m
    | none => b)
  b.dmPump p.id

/-! ### Receiving -/

/-- Does the receiver take a packet (R488)? One refused for its node or address counts in BAD_NODE. -/
def Block.dmTake (b : Block) (h : DmHdr) (f : Block → Block) : Block :=
  if !b.netTakes h.sub.val || h.ver.toNat != 1 then b
  else if h.dst.toNat ≠ b.rd XL_NODE.SELF ∨ b.nodeAddr h.node.toNat ≠ some h.addr.toNat then b.inc DM_RETX_CNT.BAD_NODE
  else f (b.inc DM_MSG_CNT.RX)

/-- ACK at the sender (R494, R495, R497). FULL tells it of a full reorder store; no rule makes a sender act on it. -/
def Block.doDmAck (b : Block) (h : DmHdr) (sack : W64) (ece : Bool) : Block :=
  b.dmTake h fun b =>
    match b.dm.send.find? (fun p => p.id == h.path.toNat && p.node == h.node.toNat) with
    | none => b
    | some p => b.pathAcked p h.seq.toNat sack.toNat ece

/-- RESET at the sender (R492): the receiver does not know the path. -/
def Block.doDmReset (b : Block) (h : DmHdr) : Block :=
  b.dmTake h fun b =>
    match b.dm.send.find? (fun p => p.id == h.path.toNat && p.node == h.node.toNat) with
    | none => b
    | some p => b.pathFail p

/-- The receive path of a packet. -/
def Block.recvOf (b : Block) (node path : Nat) : Option RecvPath :=
  b.dm.recv.find? (fun r => r.node == node && r.path == path)

/-- Update a receive path. -/
def Block.onRecv (b : Block) (node path : Nat) (f : RecvPath → RecvPath) : Block :=
  b.onDm (fun d => { d with recv := d.recv.map (fun r => if r.node == node && r.path == path then f r else r) })

/-- SACK of a receive path (R494). -/
def RecvPath.sack (r : RecvPath) : Nat :=
  ((List.range 64).map (fun i => if r.got.any (· == (r.cum + 1 + i) % 2 ^ 32) then 2 ^ i else 0)).sum

/-- Send an ACK for a receive path (R494). -/
def Block.sendAck (b : Block) (r : RecvPath) : Block :=
  if b.tick.fatal then b
  else
    let sub := b.subPort r.path 0 none
    let (ok, b) := (b.inc DM_MSG_CNT.TX).txFrame sub
    let b := if ok then b.emit (.damask r.node 0x03 (b.dmHeader r.node r.path 0 0 0 0x03 r.cum 0xFFF 16 0)
      ([r.path, r.cum, r.sack, r.ece.toNat, r.full.toNat, sub, dmPort r.path r.cum, b.gateway sub] ++ b.marks 0) []) else b
    b.onRecv r.node r.path (fun r => { r with dirty := false, ece := false, full := false })

/-- ACK_DELAY_TIMER (R494). -/
def Block.doAckDelayTimer (b : Block) (node : BitVec 10) (path : BitVec 12) : Block :=
  match b.recvOf node.toNat path.toNat with
  | none => b
  | some r => if r.dirty then b.sendAck r else b

/-- Answer RESET for a message on an unknown path (R492, R571). -/
def Block.sendReset (b : Block) (node path seq : Nat) : Block :=
  let sub := b.subPort path 0 none
  let (ok, b) := (b.inc DM_MSG_CNT.TX).txFrame sub
  if ok then b.emit (.damask node 0x04 (b.dmHeader node path 0 0 0 0x04 seq 0xFFF 0 0)
    ([path, seq, sub, dmPort path seq, b.gateway sub] ++ b.marks 0) []) else b

/-- The status of an access that a port may not make or that failed at its target (R425, R490). -/
def Block.rxStatus (b : Block) (off : Nat) (r : WrRes) : Nat :=
  if !b.portMay off then (match b.place off with
    | .absent => 1
    | _ => 3)
  else match r with
    | .ok => 0
    | .absent => 1
    | .tag => 2

/-- Perform a WRITE (R423, R425, R490). -/
def Block.rxWrite (b : Block) (node path : Nat) (m : RxMsg) : Block :=
  let (r, b) := if b.portMay m.off then b.mwrite m.ctx m.off m.data else (.absent, b.absentRec 2 m.ctx m.off 0)
  let st := b.rxStatus m.off r
  if st = 0 then b else (b.dmSend node m.bulk.toNat 521 0x15 0 m.ctx 0 [m.seq, st, path] [] none none).2

/-- Perform a READ: the answer holds the 128-bit words that cover the range. -/
def Block.rxRead (b : Block) (node : Nat) (m : RxMsg) : Block :=
  let tag := m.args.getD 0 0
  let len := m.args.getD 1 0
  let send := fun (b : Block) (st : Nat) (d : MBytes) => (b.dmSend node m.bulk.toNat 521 0x12 0 m.ctx 0 [tag, st] d none none).2
  let lo := m.off / 16 * 16
  let n := (m.off + len + 15) / 16 * 16 - lo
  if !b.portMay m.off then
    let st := b.rxStatus m.off .absent
    send (b.absentRec 1 m.ctx m.off 0) st (if st = 1 then (leBytes n 0).map (fun x => (x, true)) else [])
  else
    let (r, b) := b.mread m.ctx lo n
    if r.tagFail then send b 2 [] else send b 0 r.data

/-- Perform an ATOMIC. -/
def Block.rxAtomic (b : Block) (node : Nat) (m : RxMsg) : Block :=
  let g := fun k => m.args.getD k 0
  let w := if g 2 = 1 then 8 else 4
  let send := fun (b : Block) (st old : Nat) (pois : Bool) =>
    (b.dmSend node m.bulk.toNat 521 0x14 0 m.ctx 0 [g 0, st] ((leBytes 8 old).map (fun x => (x, pois))) none none).2
  if !b.portMay m.off then
    let st := b.rxStatus m.off .absent
    send (b.absentRec 2 m.ctx m.off 0) st 0 false
  else
    let (old, pois, r, b) := b.matomic m.ctx m.off w (g 1) (g 3) (g 4)
    send b (wrStatus r) old pois

/-- Perform a memory message or CLOSE (R492, R493): the receiver frees the path once CLOSE is performed, after its ACK. -/
def Block.rxPerform (b : Block) (node path : Nat) (m : RxMsg) : Block :=
  if m.type = 0x10 then b.rxWrite node path m
  else if m.type = 0x11 then b.rxRead node m
  else if m.type = 0x13 then b.rxAtomic node m
  else
    match b.recvOf node path with
    | none => b
    | some r => (b.sendAck { r with cum := m.seq }).onDm (fun d => { d with
        recv := d.recv.filter (fun x => !(x.node == node && x.path == path)) })

/-- Move CUM over what has been performed. -/
def RecvPath.settleN : Nat → RecvPath → RecvPath
  | 0, r => r
  | n + 1, r =>
    let c := (r.cum + 1) % 2 ^ 32
    if r.perf.any (· == c) then
      RecvPath.settleN n { r with cum := c, got := NSet.del r.got c, perf := NSet.del r.perf c }
    else r

/-- A SEQ has been performed. -/
def Block.rxDone (b : Block) (node path seq : Nat) : Block :=
  b.onRecv node path (fun r =>
    let r := { r with perf := NSet.add r.perf seq, dirty := true }
    RecvPath.settleN (r.perf.length + 1) r)

/-- Perform a message now, or, where its access goes to a held tile, once that delivers it (R62, R605). -/
def Block.rxNow (b : Block) (node path : Nat) (m : RxMsg) (perf : Block → Block) : Block :=
  let now := fun (b : Block) => (perf b).rxDone node path m.seq
  if memType m.type then
    (b.onRecv node path (fun r => { r with dirty := true })).orHold m.off (.net node path m) now
  else now b

/-- Perform held messages whose turn has come (R493). -/
def Block.rxHeldN : Nat → Block → Nat → Nat → Block
  | 0, b, _, _ => b
  | n + 1, b, node, path =>
    match b.recvOf node path with
    | none => b
    | some r =>
      match r.held.find? (fun m => m.seq == (r.cum + 1) % 2 ^ 32) with
      | none => b
      | some m =>
        let b := b.onRecv node path (fun r => { r with held := r.held.filter (fun x => x.seq != m.seq) })
        Block.rxHeldN n (b.rxNow node path m (fun b => b.rxPerform node path m)) node path

/-- Receive a sequenced message (R492 to R494): on an unknown path it is answered with RESET; a duplicate is acknowledged
again; a memory message with a release and CLOSE wait their turn in the reorder store; anything else is performed. `parts`:
units that the Moss parts of a message take there until their engines accept them (R296). -/
def Block.rx (b : Block) (h : DmHdr) (m : RxMsg) (parts : Nat) (perf : Block → Block) : Block :=
  b.dmTake h fun b =>
    let node := h.node.toNat
    let path := h.path.toNat
    let seq := h.seq.toNat
    match b.recvOf node path with
    | none => b.sendReset node path seq
    | some r =>
      let b := b.onRecv node path (fun r => { r with port := h.sub.val, ece := r.ece || h.ce })
      if seqLe seq r.cum || r.got.any (· == seq) then b.sendAck { r with ece := r.ece || h.ce }
      else
        let waits := (m.rel ≥ 1 || m.type == 0x02) && seq != (r.cum + 1) % 2 ^ 32
        let need := if waits then m.units else parts
        if need > 0 && decide (b.storeUse m.at_ + need > 65536) then
          (b.inc DM_RETX_CNT.STORE_DROPS).onRecv node path (fun r => { r with full := true })
        else if waits then
          b.onRecv node path (fun r => { r with held := r.held ++ [m], got := NSet.add r.got seq, dirty := true })
        else
          let b := b.onRecv node path (fun r => { r with got := NSet.add r.got seq })
          Block.rxHeldN (r.held.length + 1) (b.rxNow node path m perf) node path

/-- A message that a held tile has delivered is performed, and what waited for it on its path follows. -/
def Block.rxDeliver (b : Block) (node path : Nat) (m : RxMsg) : Block :=
  let n := (b.recvOf node path).elim 0 (fun r => r.held.length)
  Block.rxHeldN (n + 1) ((b.rxPerform node path m).rxDone node path m.seq) node path

/-- The message of a packet. -/
def rxMsg (h : DmHdr) (type : Nat) (args : List Nat) (data : MBytes) : RxMsg :=
  { seq := h.seq.toNat, type := type, rel := if memType type then h.rel.toNat else 0, ctx := h.ctx.toNat, off := h.off.toNat,
    args := args, data := data, bulk := h.bulk, at_ := h.sub.val / 4 }

/-- Receive a memory message or CLOSE. -/
def Block.rxMem (b : Block) (h : DmHdr) (type : Nat) (args : List Nat) (data : MBytes) : Block :=
  let m := rxMsg h type args data
  b.rx h m 0 (fun b => b.rxPerform h.node.toNat h.path.toNat m)

/-- Receive any other sequenced message: it is handed to its consumer. -/
def Block.rxOther (b : Block) (h : DmHdr) (type : Nat) (f : Block → Block) (parts : Nat := 0) : Block :=
  b.rx h (rxMsg h type [] []) parts f

/-- OPEN (R492): a receive path opens; without a free one the message is dropped. -/
def Block.doDmOpen (b : Block) (h : DmHdr) : Block :=
  b.dmTake h fun b =>
    match b.recvOf h.node.toNat h.path.toNat with
    | some r => b.sendAck { r with ece := r.ece || h.ce }
    | none =>
      if h.seq ≠ 0 ∨ b.dm.recv.length ≥ 4096 then b
      else b.onDm (fun d => { d with recv := d.recv ++
        [({ node := h.node.toNat, path := h.path.toNat, cum := 0, got := [], perf := [], held := [], port := h.sub.val,
            dirty := true, ece := h.ce, full := false } : RecvPath)] })

/-- CLOSE (R492, R493). -/
def Block.doDmClose (b : Block) (h : DmHdr) : Block := b.rxMem h 0x02 [] []

/-- WRITE (R493). -/
def Block.doDmWrite (b : Block) (h : DmHdr) (data : MBytes) : Block := b.rxMem h 0x10 [data.length] data

/-- READ (R490). -/
def Block.doDmRead (b : Block) (h : DmHdr) (tag : BitVec 32) (len : BitVec 14) : Block :=
  b.rxMem h 0x11 [tag.toNat, len.toNat] []

/-- ATOMIC (R490). -/
def Block.doDmAtomic (b : Block) (h : DmHdr) (tag : BitVec 32) (cas wide : Bool) (v cmp : W64) : Block :=
  b.rxMem h 0x13 [tag.toNat, cas.toNat, wide.toNat, v.toNat, cmp.toNat] []

/-- READ_RESP (R490): the words that cover the range, from which the requester takes its bytes. -/
def Block.doDmReadResp (b : Block) (h : DmHdr) (tag : BitVec 32) (status : BitVec 8) (data : MBytes) : Block :=
  b.rxOther h 0x12 fun b =>
    match b.dm.tags.find? (fun t => t.tag == tag.toNat) with
    | none => b
    | some t =>
      b.answer t status.toNat ((data.drop (t.off % 16)).take t.len)

/-- ATOMIC_RESP (R490). -/
def Block.doDmAtomicResp (b : Block) (h : DmHdr) (tag : BitVec 32) (status : BitVec 8) (old : W64) (pois : Bool) : Block :=
  b.rxOther h 0x14 fun b =>
    match b.dm.tags.find? (fun t => t.tag == tag.toNat) with
    | none => b
    | some t => b.atomicAnswer t status.toNat ((leBytes 8 old.toNat).map (fun x => (x, pois)))

/-- The step that issued a write a WRITE_ERR names (R490). -/
def SendPath.writer (p : SendPath) (seq : Nat) : Option Issuer :=
  match p.unacked.find? (fun m => m.seq == seq && m.type == 0x10) with
  | some m => m.owner
  | none => (p.acked.find? (fun x => x.1 == seq)).map (fun x => x.2)

/-- WRITE_ERR (R490). -/
def Block.doDmWriteErr (b : Block) (h : DmHdr) (seq : BitVec 32) (status : BitVec 8) (path : BitVec 12) : Block :=
  b.rxOther h 0x15 fun b =>
    match b.dm.send.find? (fun p => p.id == path.toNat && p.node == h.node.toNat) with
    | none => b
    | some p => b.raiseLate (p.writer seq.toNat) (if status.toNat = 2 then xTag else xAbsentWrite)

/-- REMOTE_BAG (R320): its parts wait for their engines in the reorder store of the port they arrived on (R296, R493). -/
def Block.doDmRemoteBag (b : Block) (h : DmHdr) (g : BagHdr) (raw : Bool) (parts : List PartItem) : Block :=
  b.rxOther h 0x20 (fun b => b.ownRemoteBag h.node.toNat h.bulk.toNat (h.sub.val / 4) g raw parts)
    (if raw then 0 else (parts.map (fun q => partUnits q.rows.length)).sum)

/-- POOLED_RETURN (R321). -/
def Block.doDmPooledReturn (b : Block) (h : DmHdr) (l : LTile) (items : List RetItem) : Block :=
  b.rxOther h 0x21 (fun b => b.ownPooledReturn l.val items)

/-- UPDATE (R354). -/
def Block.doDmUpdate (b : Block) (h : DmHdr) (g : BagHdr) (cs : List ContribItem) : Block :=
  b.rxOther h 0x22 (fun b => b.ownUpdate h.node.toNat h.bulk.toNat g cs)

/-- UPDATE_ACK (R355). -/
def Block.doDmUpdateAck (b : Block) (h : DmHdr) (l : LTile) (acks : List (BitVec 32 × BitVec 8)) : Block :=
  b.rxOther h 0x23 (fun b => b.ownUpdateAck l.val (acks.map (fun a => (a.1.toNat, a.2.toNat))))

/-! ### Group control messages -/

/-- HEARTBEAT (R526). -/
def Block.doHeartbeat (b : Block) (h : DmHdr) (g : GrpHdr) (m : HbMsg) : Block := b.rxOther h 0x30 (fun b => b.grpHeartbeat g m)
/-- EPOCH (R529). -/
def Block.doEpoch (b : Block) (h : DmHdr) (g : GrpHdr) (e : EpochFields) : Block := b.rxOther h 0x31 (fun b => b.grpEpoch g e)
/-- TAKEOVER (R526). -/
def Block.doTakeover (b : Block) (h : DmHdr) (g : GrpHdr) (l : GrpLead) : Block := b.rxOther h 0x32 (fun b => b.grpTakeover g l)
/-- SERVICE (R530). -/
def Block.doService (b : Block) (h : DmHdr) (g : GrpHdr) (inSvc : Bool) (cause : BitVec 8) : Block :=
  b.rxOther h 0x33 (fun b => b.grpService g inSvc cause)
/-- PLACEMENT (R536). -/
def Block.doPlacement (b : Block) (h : DmHdr) (g : GrpHdr) (at_ : W64) (es : List OmapEntry) : Block :=
  b.rxOther h 0x34 (fun b => b.grpPlacement g at_ es)
/-- DIGEST_REPORT (R539). -/
def Block.doDigestReport (b : Block) (h : DmHdr) (g : GrpHdr) (items : List DigestItem) : Block :=
  b.rxOther h 0x35 (fun b => b.grpDigestReport g items)
/-- MAINT_REQ (R541). -/
def Block.doMaintReq (b : Block) (h : DmHdr) (g : GrpHdr) (kind : BitVec 2) (arg : BitVec 12) : Block :=
  b.rxOther h 0x36 (fun b => b.grpMaintReq g kind arg)
/-- MAINT_GRANT (R541). -/
def Block.doMaintGrant (b : Block) (h : DmHdr) (g : GrpHdr) (kind : BitVec 2) (arg : BitVec 12) (tick : W64) : Block :=
  b.rxOther h 0x37 (fun b => b.grpMaintGrant g kind arg tick)
/-- MAINT_DONE (R541). -/
def Block.doMaintDone (b : Block) (h : DmHdr) (g : GrpHdr) (kind : BitVec 2) (arg : BitVec 12) (unplanned : Bool) : Block :=
  b.rxOther h 0x38 (fun b => b.grpMaintDone g kind arg unplanned)
/-- SNAP_AT (R651). -/
def Block.doSnapAt (b : Block) (h : DmHdr) (g : GrpHdr) (at_ : W64) (tag : BitVec 16) : Block :=
  b.rxOther h 0x39 (fun b => b.grpSnapAt g at_ tag)

end Sys2Proof.Machine
end

