-- ==== Sys2Proof/Machine/Ports.lean ====
section
/-! DEFINITION. Machine/Ports.lean: frames, links, FEC and MACsec of the ports (R474 to R479, R513 to R515), and the clock
service's frames, rings and pins (R508 to R511). -/

namespace Sys2Proof.Machine
open Reg

/-! ### Links -/

/-- Lanes of sub-port `k` in a port's MODE (R474). -/
def lanesOf (mode k : Nat) : List Nat :=
  if mode < 2 then (if k = 0 then List.range 8 else [])
  else if mode < 4 then (if k < 2 then (List.range 4).map (· + 4 * k) else [])
  else if mode < 6 then [2 * k, 2 * k + 1]
  else []

/-- Lanes that HALF_DIS takes out of service (R475). -/
def Block.laneOff (b : Block) (port lane : Nat) : Bool :=
  2 ≤ b.rd DM_PCTRL.MODE port && bit (b.rd DM_PCTRL.HALF_DIS port) (lane / 4)

/-- May a sub-port's link come up (R474, R475)? -/
def Block.subExists (b : Block) (sub : Nat) : Bool :=
  let ls := lanesOf (b.rd DM_PCTRL.MODE (sub / 4)) (sub % 4)
  b.on DM_PCTRL.ENABLE (sub / 4) && !ls.isEmpty && !ls.any (fun l => b.laneOff (sub / 4) l)

/-- DM_PSTATUS.LINK of a port shows the sub-ports in service. -/
def Block.showLinks (b : Block) (port : Nat) : Block :=
  b.wr DM_PSTATUS.LINK (((List.range 4).map (fun k => if NSet.mem b.ports.up (4 * port + k) then 2 ^ k else 0)).sum) port

/-- LINK_UP (R475): training has succeeded on every lane of a sub-port. -/
def Block.doLinkUp (b : Block) (sub : Fin 64) : Block :=
  if !b.subExists sub.val then b
  else
    let port := sub.val / 4
    let fail := (lanesOf (b.rd DM_PCTRL.MODE port) (sub.val % 4)).foldl (fun v l => setBits v l 1 0) (b.rd DM_PSTATUS.LANE_FAIL port)
    ((b.onPorts (fun p => { p with up := NSet.add p.up sub.val })).wr DM_PSTATUS.LANE_FAIL fail port).showLinks port

/-- LINK_DOWN (R518): a sub-port leaves service; `lanes` have failed training or lost lock. Damask messages queued on it are
retransmitted on others, and queue pairs move, by R482 and R496. -/
def Block.doLinkDown (b : Block) (sub : Fin 64) (lanes : BitVec 8) : Block :=
  let port := sub.val / 4
  let mine := (lanesOf (b.rd DM_PCTRL.MODE port) (sub.val % 4)).filter (fun l => lanes.getLsbD l)
  let fail := mine.foldl (fun v l => setBits v l 1 1) (b.rd DM_PSTATUS.LANE_FAIL port)
  ((b.onPorts (fun p => { p with up := NSet.del p.up sub.val, paused := SMap.erase p.paused sub.val })).wr DM_PSTATUS.LANE_FAIL
    fail port).showLinks port

/-- A port that does not run has no sub-port in service (R475, R513). -/
def Block.portOff (b : Block) (port : Nat) : Block :=
  let out := fun (s : Nat) => s / 4 == port
  (b.onPorts (fun p => { p with up := p.up.filter (fun s => !out s), paused := p.paused.filter (fun x => !out x.1) })).showLinks
    port

/-- FEC_DEG_WINDOW (R514): a window of 100 ms ends with the bits in error that decoding corrected, the bits received, and
the uncorrectable codewords. The next window starts with FEC_DEG_PPM as it stands. -/
def Block.doFecDegWindow (b : Block) (sub : Fin 64) (errors bitsIn : W64) (uncorr : BitVec 16) : Block :=
  let port := sub.val / 4
  let k := sub.val % 4
  let lim := SMap.get DM_PCTRL.FEC_DEG_PPM.reset b.ports.fecLim sub.val * bitsIn.toNat
  let v := b.rd DM_PSTATUS.FEC_DEG port
  let v := if errors.toNat * 1000000 > lim then setBits v k 1 1
    else if errors.toNat * 10000000 < 9 * lim then setBits v k 1 0 else v
  let next := b.rd DM_PCTRL.FEC_DEG_PPM port
  let b := b.onPorts (fun p => { p with fecLim := SMap.set DM_PCTRL.FEC_DEG_PPM.reset p.fecLim sub.val next })
  (b.wr DM_PSTATUS.FEC_DEG v port).inc DM_PERR_CNT.FEC_UNCORR uncorr.toNat port

/-! ### Frames -/

/-- DM_ADDR_HI and DM_ADDR_LO: the node address (R478). -/
def Block.nodeAddress (b : Block) : Nat := b.rd DM_ADDR_HI.ADDR_HI * 2 ^ 64 + b.rd DM_ADDR_LO.ADDR_LO

/-- A frame refused by R477. -/
def Block.refuse (b : Block) (sub : Nat) : Block := b.inc DM_PERR_CNT.FILTER_DROP 1 (sub / 4)

/-- Answer a solicitation (kind 0, with the sub-port's own MAC address, R478) or an echo request (kind 1). -/
def Block.answerFrame (b : Block) (sub kind : Nat) (data : List Byte) : Block :=
  match b.txFrame sub with
  | (true, b) => b.emit (.frame sub kind [b.nodeAddress, b.gateway sub, b.rd LC_INV1.MAC_BASE + sub] data)
  | (false, b) => b

/-- Take what a frame holds (R477). The messages and packets of an accepted frame are commands of their own. -/
def Block.takeInner (b : Block) (sub : Nat) (i : Inner) : Block :=
  let here := fun (d : BitVec 128) => d.toNat == b.nodeAddress
  match i with
  | .damask d => if here d && b.on DM_CTRL.ENABLE then b else b.refuse sub
  | .roce d => if here d && b.on DM_CTRL.ENABLE then b else b.refuse sub
  | .ptpUdp d => if here d then b else b.refuse sub
  | .ptpEth => b
  | .pfc => b
  | .solicit d => if here d then b.answerFrame sub 0 [] else b.refuse sub
  | .echo d data => if here d then b.answerFrame sub 1 data else b.refuse sub
  | .other => b.refuse sub

/-- Does an unprotected frame pass while MSEC_EN is 1 (R477)? -/
def Block.clearFrame (b : Block) (sub : Nat) (i : Inner) : Bool :=
  match i with
  | .pfc => true
  | .ptpEth => b.on DM_PCTRL.PTP_CLEAR (sub / 4)
  | _ => false

/-- FRAME_RECEIVE (R476, R477): a sub-port receives a frame and accepts, answers or drops it. A frame larger than R476
supports is one of the others. -/
def Block.doFrameReceive (b : Block) (sub : Fin 64) (f : Frame) : Block :=
  let s := sub.val
  if !NSet.mem b.ports.up s then b
  else
    let b := b.inc DM_PFRM_CNT.RX 1 (s / 4)
    match f with
    | .bad => b.inc DM_PERR_CNT.FCS 1 (s / 4)
    | .bare i => if b.on DM_PCTRL.MSEC_EN (s / 4) && !b.clearFrame s i then b.refuse s else b.takeInner s i
    | .msec an pn ok i =>
      match b.ports.assocs.find? (fun a => !a.tx && a.sub == s && a.an == an.toNat) with
      | none => b.inc DM_PERR_CNT.MSEC_DROP 1 (s / 4)
      | some a =>
        if !ok ∨ pn.toNat < a.pn then b.inc DM_PERR_CNT.MSEC_DROP 1 (s / 4)
        else
          let b := b.onPorts (fun p => { p with assocs := p.assocs.map (fun (x : Assoc) => if x = a then { x with pn := pn.toNat + 1 } else x) })
          b.takeInner s i

/-- PFC_FRAME (R476): a received PFC frame pauses or resumes the priorities it names, of those PFC_EN selects. -/
def Block.doPfcFrame (b : Block) (sub : Fin 64) (pause resume : BitVec 8) : Block :=
  if !NSet.mem b.ports.up sub.val then b
  else
    let en := b.rd DM_PCTRL.PFC_EN (sub.val / 4)
    let old := SMap.get 0 b.ports.paused sub.val
    let v := (old &&& (255 - (resume.toNat &&& en))) ||| (pause.toNat &&& en)
    b.onPorts (fun p => { p with paused := SMap.set 0 p.paused sub.val v })

/-! ### MACsec -/

/-- The association registers select and stage (R513). -/
def Block.msecSel (b : Block) (p : Nat) (k : Nat) (rx : Bool) (an op : Nat) : Block :=
  (((b.wr DM_MSEC_SEL.SUB k p).wr DM_MSEC_SEL.DIR rx.toNat p).wr DM_MSEC_SEL.AN an p).wr DM_MSEC_SEL.OP op p

/-- Clear the staging registers of a port (R515). -/
def Block.unstage (b : Block) (p : Nat) : Block :=
  b.clearRegs (fun f i _ => i == p && [DM_MSEC_KEY.KEY.id, DM_MSEC_SALT0.SALT_LO.id, DM_MSEC_SALT1.SALT_HI.id,
    DM_MSEC_SALT1.SSCI.id, DM_MSEC_PN.PN.id].any (· == f.id))

/-- The association that the staging registers of a port describe (R513). -/
def Block.staged (b : Block) (p k : Nat) (rx : Bool) (an : Nat) : Assoc :=
  { sub := 4 * p + k, tx := !rx, an := an, key := (List.range 4).map (fun i => b.rd DM_MSEC_KEY.KEY p i),
    salt := b.rd DM_MSEC_SALT0.SALT_LO p + b.rd DM_MSEC_SALT1.SALT_HI p * 2 ^ 64, ssci := b.rd DM_MSEC_SALT1.SSCI p,
    pn := b.rd DM_MSEC_PN.PN p }

/-- Remove an association. -/
def Block.dropAssoc (b : Block) (sub : Nat) (tx : Bool) (an : Nat) : Block :=
  b.onPorts (fun p => { p with assocs := p.assocs.filter (fun a => !(a.sub == sub && a.tx == tx && a.an == an)) })

/-- MSEC_INSTALL (R515): the staged key, salt, SSCI and PN go into an association. While the vault is locked the install is
ignored and sets CFG_ERR (R635). -/
def Block.doMsecInstall (b : Block) (p : Fin 16) (k : Fin 4) (rx : Bool) (an : BitVec 2) : Block :=
  let b := b.msecSel p k rx an.toNat 0
  if b.on SV_STATUS.LOCKED then b.wr DM_PSTATUS.CFG_ERR 1 p
  else
    let a := b.staged p k rx an.toNat
    ((b.dropAssoc a.sub a.tx a.an).onPorts (fun x => { x with assocs := x.assocs ++ [a] })).unstage p

/-- MSEC_DELETE (R515). -/
def Block.doMsecDelete (b : Block) (p : Fin 16) (k : Fin 4) (rx : Bool) (an : BitVec 2) : Block :=
  ((b.msecSel p k rx an.toNat 1).dropAssoc (4 * p.val + k.val) (!rx) an.toNat)

/-- MSEC_ACTIVATE (R515): a transmit association becomes the one in use. -/
def Block.doMsecActivate (b : Block) (p : Fin 16) (k : Fin 4) (rx : Bool) (an : BitVec 2) : Block :=
  let b := b.msecSel p k rx an.toNat 2
  let sub := 4 * p.val + k.val
  if rx || !b.ports.assocs.any (fun a => a.tx && a.sub == sub && a.an == an.toNat) then b.wr DM_PSTATUS.CFG_ERR 1 p
  else b.onPorts (fun x => { x with active := SMap.set 4 x.active sub an.toNat })

/-! ### The clock service -/

/-- Put an entry into a PTP ring (R509): its header and frame. -/
def ptpEntry (phase sub : Nat) (t : ClockTime) (frame : List Byte) : List Byte :=
  bytesOf [phase + sub * 2 ^ 8 + frame.length % 2 ^ 14 * 2 ^ 16, t.sec.toNat, t.ns.toNat, 0] ++ frame.take 224

/-- PTP_FRAME_RECEIVE (R508 to R510): a PTP message is timestamped and written to the receive ring. A full ring takes no
entry. -/
def Block.doPtpFrameReceive (b : Block) (sub : Fin 64) (t : ClockTime) (frame : List Byte) : Block :=
  if !b.on DM_PTP_CTRL.ENABLE || !NSet.mem b.ports.up sub.val then b
  else
    let size := 2 ^ (b.rd DM_PTP_RX.LOG2_SIZE + 4)
    let prod := b.rd DM_PTP_IDX.RX_PROD
    if (prod + 2 ^ 16 - b.rd DM_PTP_IDX.RX_CONS) % 2 ^ 16 ≥ size then b
    else
      let bs := ptpEntry (phaseOf prod size) sub.val t frame
      let (_, b) := b.mwrite 0xFFF (b.rd DM_PTP_RX.BASE * 2 ^ 12 + 256 * (prod % size)) (plain bs)
      b.addWrap DM_PTP_IDX.RX_PROD

/-- Send one entry of the transmit ring at its time (R508, R509). -/
def Block.ptpSend (b : Block) (cons size : Nat) (t : ClockTime) : Block :=
  let a := b.rd DM_PTP_TX.BASE * 2 ^ 12 + 256 * (cons % size)
  let (ws, _, b) := b.tableWords a 4
  let sub := bits (ws.getD 0 0) 8 6
  let (r, b) := b.mread 0xFFF (a + 32) (min 224 (bits (ws.getD 0 0) 16 14))
  let (ok, b) := b.txFrame sub
  let b := if ok then b.emit (.frame sub 2 [b.rd DM_PTP_CTRL.ONE_STEP, t.sec.toNat, t.ns.toNat] r.bytes) else b
  let b := if b.on DM_PTP_CTRL.ONE_STEP then b
    else (b.mwrite 0xFFF (a + 8) (plain (bytesOf [t.sec.toNat, t.ns.toNat]))).2
  b.addWrap DM_PTP_IDX.TX_CONS

/-- Send the entries up to TX_PROD whose phase is current, each at its time. -/
def Block.ptpSendN : List ClockTime → Block → Block
  | [], b => b
  | t :: ts, b =>
    let size := 2 ^ (b.rd DM_PTP_TX.LOG2_SIZE + 4)
    let cons := b.rd DM_PTP_IDX.TX_CONS
    if cons = b.rd DM_PTP_IDX.TX_PROD then b
    else
      let (ws, bad, b) := b.tableWords (b.rd DM_PTP_TX.BASE * 2 ^ 12 + 256 * (cons % size)) 1
      if bad ∨ bits (ws.getD 0 0) 0 8 ≠ phaseOf cons size then b else Block.ptpSendN ts (b.ptpSend cons size t)

/-- PTP_TRANSMIT (R509): a write of TX_PROD; the entries leave at the times given, in order. -/
def Block.doPtpTransmit (b : Block) (prod : BitVec 16) (times : List ClockTime) : Block :=
  let b := b.wr DM_PTP_IDX.TX_PROD prod.toNat
  if b.on DM_PTP_CTRL.ENABLE then Block.ptpSendN times b else b

/-- PTP_TIME_STEP (R508): a write of DM_PTP_TIME steps the module clock. -/
def Block.doPtpTimeStep (b : Block) (t : ClockTime) : Block :=
  let b := { b with tick := { b.tick with stepped := true } }
  (b.wr DM_PTP_TIME.NS t.ns.toNat).wr DM_PTP_TIME.SEC t.sec.toNat

/-- PPS_IN_EDGE (R511): a rising edge of the 1PPS input is timestamped. -/
def Block.doPpsInEdge (b : Block) (t : ClockTime) : Block := (b.wr DM_PPS_IN.NS t.ns.toNat).wr DM_PPS_IN.SEC t.sec.toNat

/-- PPS_OUT (R511): the 1PPS output rises at a whole TAI second. -/
def Block.doPpsOut (b : Block) : Block := b.emit (.pin pinPps true)

end Sys2Proof.Machine
end

