-- ==== Sys2Proof/Machine/Resets.lean ====
section
/-! DEFINITION. Machine/Resets.lean: what each clearing event clears (R84, R370, R394, R422, R596, R597, R600), tile and
region resets, sleep and wake (R604 to R607), the start of a module reset (R601, R602, R608) and their record (R610). -/

namespace Sys2Proof.Machine
open Reg

/-! ### Clearing sites and regions -/

/-- Update what holds of the reset commands of PW_RST_CMD. -/
def Block.setRst (b : Block) (r : Option RstRun) : Block := { b with rst := r }

/-- A site clears (R84, R596, R597, R605): its registers are undefined, its semaphores 0, its pages invalid, its local store
undefined under valid codes, its planes invalid, its TLB empty, the T fields of its window cleared. TW_REPAIR takes effect
and TW_LAT is recomputed (R212). The plan banks stay. -/
def Block.clearSite (b : Block) (p : Nat) : Block :=
  let (s1, b) := b.freshSeed
  let (s2, b) := b.freshSeed
  let (s3, b) := b.freshSeed
  let o := b.site p
  let b := b.setSite p { Site.fresh with
    sreg := Arr.undef s1, dreg := Arr.undef s2, treg := Arr.undef s3, bank0 := o.bank0, bank1 := o.bank1,
    packLast := o.packLast, overAdd := o.overAdd }
  let b := b.undefMem (16 + p)
  let b := b.clearRegs (fun f i _ => f.cls == .t && f.blk.perTile && i == p)
  let b := (b.wr TW_REPAIR.EFF_EN (b.rd TW_REPAIR.REQ_EN p) p).wr TW_REPAIR.EFF_ROW (b.rd TW_REPAIR.REQ_ROW p) p
  let b := b.wr TW_LAT.LAT (0x88 + b.rd TW_REPAIR.EFF_EN p) p
  { b with samples := b.samples.filter (fun s => s.spare != p) }

/-- What Bracken knows of the pages of a logical tile is gone. -/
def Block.clearPages (b : Block) (l : Nat) : Block :=
  b.onBk (fun k => { k with
    resident := k.resident.filter (fun x => x.1 / 16 != l)
    loads := k.loads.filter (fun x => x.l != l)
    seedReads := k.seedReads.filter (fun x => x.site != b.siteOf l) })

/-- Count an aborted step of a slot's mode (R25); it makes the tick that ends SHORT (R37, R51). -/
def Block.countAbort (b : Block) (soft : Bool) : Block :=
  let b := if soft then b.inc TK_ABORT_CNT.SOFT_ABORTS else b.inc TK_ABORT_CNT.HARD_ABORTS
  b.onFacts (fun (f : TickFacts) => { f with abort := true })

/-- Abort the running step of a site, counted (R38). A pack step counts in FLT_TP_CNT.DISCARDED alone (R563). -/
def Block.abortStep (b : Block) (p : Nat) : Block :=
  match (b.site p).run with
  | none => b
  | some r => (if r.d.pack then b.inc FLT_TP_CNT.DISCARDED else b.countAbort r.d.soft).abortRun p

/-- Abort a step of a site's list that has not started. -/
def Block.abortTodo (b : Block) (p : Nat) (r : StepRun) : Block :=
  if r.d.pack then b.inc FLT_TP_CNT.DISCARDED
  else
    let l := b.tileOf p
    (b.countAbort r.d.soft).stepFailed l r.tick r.d.index stAborted
      { cause := 1, ltile := l, site := p, pc := r.d.entry, ctx := r.d.ctx } none

/-- Abort everything a site runs or has yet to run. -/
def Block.abortAll (b : Block) (p : Nat) : Block :=
  let b := b.abortStep p
  let todo := (b.site p).todo
  (b.onSite p (fun s => { s with todo := [] })).each todo (fun b r => b.abortTodo p r)

/-- The steps of a list that no boundary has started yet are aborted with the site's others where a reset takes effect at
the boundary that would start them (R605). -/
def Block.abortList (b : Block) (p : Nat) : Block :=
  let b := b.abortAll p
  let k := b.nextBank p
  if k.complete && k.tick == b.now then
    (b.each k.steps (fun b d => b.abortTodo p ⟨d, k.tick, false, none, false⟩)).onNextBank p (fun k => { k with steps := [] })
  else b

/-- The region cache writes back its modified lines and is invalid, locked lines included; LOCK_MASK stays and LOCK_LOST is
set (R394, R597). The T fields of its RC_ instance clear. -/
def Block.clearCache (b : Block) (r : Nat) : Block :=
  let b := (b.rcFlush r (fun _ => true) true).wr RC_STATUS.LOCK_LOST 1 r
  let b := { b with misses := b.misses.filter (fun m => m.region != r), pre := b.pre.filter (fun x => x.region != r) }
  b.clearRegs (fun f i _ => f.cls == .t && f.blk == .rc && i == r)

/-- The sites of a region. -/
def sitesOfRegion (r : Nat) : List Nat := (List.range 18).map (fun k => 18 * r + k)

/-- The logical tiles of a region. -/
def tilesOfRegion (r : Nat) : List Nat := (List.range 16).map (fun k => 16 * r + k)

/-- A region clears: its cache and every site. -/
def Block.clearRegion (b : Block) (r : Nat) : Block :=
  let b := (b.clearCache r).each (tilesOfRegion r) Block.clearPages
  b.each (sitesOfRegion r) Block.clearSite

/-! ### Tile and region resets, sleep and wake -/

/-- Set or clear a region's bit in PW_RST_STATUS.SLEEPING. -/
def Block.setAsleep (b : Block) (r : Nat) (v : Bool) : Block :=
  b.wr PW_RST_STATUS.SLEEPING (setBits (b.rd PW_RST_STATUS.SLEEPING) r 1 v.toNat)

/-- An invalidation no longer waits for the sites of a region that goes to sleep: their TLBs are empty (R417). -/
def Block.forgetSites (b : Block) (r : Nat) : Block :=
  { b with inval := b.inval.map (fun (i : Inval) => { i with
      toArrive := i.toArrive.filter (fun p => p / 18 != r), toReport := i.toReport.filter (fun p => p / 18 != r) }) }

/-- RESET_REQUEST_APPLY (R605, R606, R610): a tile reset, region reset or region sleep takes effect. Steps still on its
tiles are aborted. -/
def Block.rstApply (b : Block) (r : RstRun) : Block :=
  let b := b.setRst (some { r with begun := true })
  if r.op = 0 then
    let p := b.siteOf r.target
    (((b.abortList p).clearPages r.target).clearSite p).recTile r.target
  else
    let b := (b.each (sitesOfRegion r.target) Block.abortList).clearRegion r.target
    let b := if r.op = 2 then (b.setAsleep r.target true).forgetSites r.target else b
    b.recRegion r.target

/-- The region a request is for. -/
def RstRun.region (r : RstRun) : Nat := if r.op = 0 then r.target / 16 else r.target

/-- Apply a waiting request whose tick has come, or at once while no boundary comes (R604). A retirement pending in its
region goes first. -/
def Block.rstDue (b : Block) : Block :=
  match b.rst with
  | some r =>
    if !r.begun && (decide (r.at_ ≤ b.now) || !b.on TK_CTRL.ENABLE) && !bit (b.rd TL_MAP_STATUS.PENDING) r.region
    then b.rstApply r else b
  | none => b

/-- OP 3 (R607, R610): a sleeping region powers up and clears; it is ready later. -/
def Block.wake (b : Block) (r : Nat) : Block :=
  let b := b.setRst (some { op := 3, target := r, flush := false, at_ := 0, begun := true })
  (b.clearRegion r).recRegion r

/-! ### The start of a module reset -/

/-- A module reset in the middle of a snapshot copy leaves a partial copy (R647). -/
def Block.cutSnap (b : Block) : Block :=
  if b.on SN_STATUS.COPY_BUSY then
    let (sd, b) := b.freshSeed
    let b := { b with snap := { b.snap with cut := sd } }
    ((b.wr SN_STATUS.PARTIAL 1).wr SN_STATUS.VALID 1).wr SN_STATUS.COPY_BUSY 0
  else b

/-- The values a preset of MS_CTRL gives BAG_SHARE and QDEPTH (R331). -/
def presetOf (p : Nat) : Nat × Nat := if p = 0 then (90, 128) else if p = 1 then (75, 96) else (50, 64)

/-- BAG_SHARE and QDEPTH of Moss engine `m` read as the values of the preset held, and EXPERT_EN is 0 (R12, R600). -/
def Block.loadPresetOf (b : Block) (m : Nat) : Block :=
  let v := presetOf (b.rd MS_CTRL.PRESET m)
  ((b.wr MS_CTRL.BAG_SHARE v.1 m).wr MS_CTRL.QDEPTH v.2 m).wr MS_CTRL.EXPERT_EN 0 m

/-- Every Moss engine holds its preset's values (R12, R600). -/
def Block.loadPreset (b : Block) : Block := b.each (List.range 12) Block.loadPresetOf

/-- EFFECTIVE takes PENDING (R370, R375, R399). A stack whose map changes, or that was migrating
(R402), is undefined after the reset, and so is the peat tier where its map changes. -/
def Block.applyMaps (b : Block) (chs pkgs mig : List Nat) : Block :=
  let b := b.each (List.range 12) (fun b m =>
    let v := b.rd MEM_CHMAP.PENDING m
    (b.wr MEM_CHMAP.EFFECTIVE v m).whenB (v != chs.getD m 0 || NSet.mem mig m) (fun b => b.undefMem m))
  let now := (List.range 4).map (fun c => b.rd MEM_PKGMAP.PENDING (12 + c))
  (b.each (List.range 4) (fun b c => b.wr MEM_PKGMAP.EFFECTIVE (now.getD c 0) (12 + c))).whenB (now != pkgs)
    (fun b => b.undefMem 12)

/-- What every Moss engine holds in its merge buffer is discarded at a module reset, with one record per engine (R360,
R567). -/
def Block.discardMerges (b : Block) : Block :=
  let n := fun (m : Nat) => (b.moss.merge.filter (fun x => x.eng == m)).length
  let ms := (List.range 12).filter (fun m => n m > 0)
  (b.onMoss (fun k => { k with merge := [] })).each ms (fun b m =>
    b.report { cls := 15, cause := 6, level := 4, unit := 0x1000 + m, aux0 := n m })

/-- The state no register holds after a module reset or the loss of the main rails (R597, R608), beside memory. -/
def Block.clearParts (b : Block) : Block :=
  { b with
    tags := [], retires := [], rst := none, heldQ := [], migCh := [], moss := { Moss.empty with merge := b.moss.merge }, grp := GrpSt.empty, mcasts := [], sigs := [],
    samples := [], bk := Bracken.empty, rc := [], sf := [], misses := [], pre := [], plru := [], isolated := [],
    pkgSeen := [], stlb := [], wcache := [], cctx := [], wins := [], inval := none, tagSet := none,
    terminated := [], termSeq := [], irqOwed := false, dm := { Damask.empty with uid := b.dm.uid, tag := b.dm.tag },
    qps := [], ports := Ports.empty, regQ := [],
    tick := { b.tick with facts := TickFacts.none, stopping := false, holdover := 0, fatal := false, epNs := 0, epTick := 0 } }

/-- Every site clears (R597). -/
def Block.clearSites (b : Block) : Block :=
  (b.each (List.range 576) Block.clearSite).each (List.range 576) (fun b p =>
    b.onSite p (fun s => { s with bank0 := PlanBank.empty, bank1 := PlanBank.empty, packLast := none, overAdd := 0 }))

/-- Every block stops and M, T and C fields take their reset values (R596, R597, R600, R602, R608). What was on its way to
the fault collector is lost. -/
def Block.clearModule (b : Block) : Block :=
  let chs := (List.range 12).map (fun m => b.rd MEM_CHMAP.EFFECTIVE m)
  let pkgs := (List.range 4).map (fun c => b.rd MEM_PKGMAP.EFFECTIVE (12 + c))
  let mig := (List.range 12).filter (fun m => b.rd MEM_STATUS.STATE m == 2)
  let b := { b.cutSnap with faultQ := [], lc := { b.cutSnap.lc with pack := 0 } }
  let b := b.clearParts.clearRegs (fun f _ _ => f.cls == .m || f.cls == .t || f.cls == .c)
  (((b.discardMerges).applyMaps chs pkgs mig).loadPreset).clearSites

/-! ### Warnings and steps -/

/-- ALERT_N is low: one of the warnings of R580 is 1. -/
def Block.alert (b : Block) : Bool :=
  b.on PW_STATUS.UV_WARN || b.on PW_STATUS.OPEN_PAIR || b.on PW_STATUS.CAP_ACTIVE || b.on PW_STATUS.COOL_WARN
    || b.on PW_STATUS.THERM_WARN

/-- A change of steps and warnings (R585): every region that enters step 1 or above counts in THROTTLES, and ALERT_N
follows (R580). -/
def Block.stepping (b : Block) (f : Block → Block) : Block :=
  let a := f b
  let n := ((List.range 32).filter (fun r => b.stepOf r == 0 && decide (a.stepOf r > 0))).length
  let a := a.whenB (decide (n > 0)) (fun a => a.inc PW_EVT_CNT.THROTTLES n)
  a.whenB (a.alert != b.alert) (fun a => a.emit (.pin pinAlert (!a.alert)))

/-! ### Causes -/

/-- Record a module reset cause (R601, R610): its bit, and LAST the lowest code of the reset. -/
def Block.recCause (b : Block) (code : Nat) : Block :=
  let b := { b with mrst := { b.mrst with causes := NSet.add b.mrst.causes code } }
  let b := b.wr PW_RST_CAUSE.CAUSE (setBits (b.rd PW_RST_CAUSE.CAUSE) (code - 1) 1 1)
  b.wr PW_RST_CAUSE.LAST (b.mrst.causes.foldl min code)

/-- Begin a module reset for a cause (R601, R602, R610), or add the cause to the one that runs. It does not touch the
memory's content beyond what `flush` writes back. -/
def Block.beginReset (b : Block) (code : Nat) (flush : Bool) : Block :=
  if b.mrst.on then b.recCause code
  else
    let b := { b with mrst := { on := true, causes := [], pending := none, ended := [] } }
    let b := if flush then b.each (List.range 32) (fun b r => b.rcFlush r (fun _ => true) true) else b
    let b := (((b.recCause code).wr PW_RST_TICK.TICK b.now).inc PW_RST_CNT.MODULE).rstEvent
    b.stepping Block.clearModule

/-- A module reset cause arises (R601). While the main rails are off there is nothing to reset. -/
def Block.moduleReset (b : Block) (code : Nat) (flush : Bool) : Block :=
  if b.pw.switch then b.beginReset code flush else b

/-! ### Commands of PW_RST_CMD (R604) -/

/-- May a request be accepted (R604)? -/
def Block.rstOk (b : Block) (op target : Nat) : Bool :=
  let r := if op = 0 then target / 16 else target
  let at_ := b.rd PW_RST_AT.AT_TICK
  !b.on PW_RST_STATUS.BUSY && decide (op ≤ 4)
    && (op == 0 || op == 4 || decide (target ≤ 31))
    && (op != 0 || b.on TL_LMAP.VALID 0 target)
    && (op > 2 || !b.asleep r) && (op != 3 || b.asleep r)
    && (at_ == 0 || decide (b.now + 1 ≤ at_))

/-- A write of PW_RST_CMD with GO: a rejected request changes nothing else. -/
def Block.rstCmd (b : Block) (op target : Nat) (flush : Bool) : Block :=
  if !b.rstOk op target then b.wr PW_RST_STATUS.CFG_ERR 1
  else
    let b := ((b.wr PW_RST_CMD.OP op).wr PW_RST_CMD.FLUSH flush.toNat).wr PW_RST_CMD.TARGET target
    let at_ := if b.rd PW_RST_AT.AT_TICK = 0 then b.now + 1 else b.rd PW_RST_AT.AT_TICK
    let b := b.wr PW_RST_STATUS.BUSY 1
    if op = 3 then b.wake target
    else if op = 4 then
      if b.on TK_CTRL.ENABLE then { b with mrst := { b.mrst with pending := some (at_, flush) } } else b.moduleReset 8 flush
    else (b.setRst (some { op := op, target := target, flush := flush, at_ := at_, begun := false })).rstDue

/-- At a boundary (R602): a software module reset whose tick has come, or at once once no boundary comes. -/
def Block.softReset (b : Block) : Block :=
  match b.mrst.pending with
  | some (at_, flush) => if at_ ≤ b.now ∨ !b.on TK_CTRL.ENABLE then b.moduleReset 8 flush else b
  | none => b

/-- TILE_RESET (R604, R605). -/
def Block.doTileReset (b : Block) (target : BitVec 9) : Block := b.rstCmd 0 target.toNat false
/-- REGION_RESET (R604, R605). -/
def Block.doRegionReset (b : Block) (target : BitVec 9) : Block := b.rstCmd 1 target.toNat false
/-- REGION_SLEEP (R604, R606). -/
def Block.doRegionSleep (b : Block) (target : BitVec 9) : Block := b.rstCmd 2 target.toNat false
/-- REGION_WAKE (R604, R607). -/
def Block.doRegionWake (b : Block) (target : BitVec 9) : Block := b.rstCmd 3 target.toNat false
/-- MODULE_RESET_CMD (R601, R602, R604). -/
def Block.doModuleResetCmd (b : Block) (flush : Bool) : Block := b.rstCmd 4 0 flush

/-- Deliver one held request (R62, R605) to logical tile `l`; one whose tile is held again waits on. -/
def Block.deliverOne (b : Block) (l : Nat) (q : HeldReq) : Block :=
  if b.held l then b.holdReq l q
  else
    match q with
    | .store _ _ off bs => b.lsWrite (b.siteOf l) off bs.bytes bs.pois
    | .reg ctx off n v => b.regPost ctx off n v
    | .signal s kind => b.arrive s kind false
    | .request src ctx a op => b.perform src ctx a op
    | .access h => (b.heldLocal h).release
    | .net node path m => b.rxDeliver node path m

/-- Is a held request the write of a register of a tile that is held no longer? -/
def Block.dueReg (b : Block) (l : Nat) (q : HeldReq) : Bool :=
  match q with
  | .reg _ _ _ _ => !b.held l
  | _ => false

/-- Deliver a list of held requests in order, up to the first write of a register: the command carries that out (R82) before
the rest follows. -/
def Block.deliverN : List (Nat × HeldReq) → Block → Block
  | [], b => b
  | x :: xs, b =>
    let c := b.deliverOne x.1 x.2
    if b.dueReg x.1 x.2 then { c with heldQ := c.heldQ ++ xs } else Block.deliverN xs c

/-- Deliver what was held for tiles no longer held (R62, R605), in arrival order. -/
def Block.deliver (b : Block) : Block := Block.deliverN b.heldQ { b with heldQ := [] }

/-- RESET_READY (R605, R606, R607): the site or region of the request in progress is ready, or its sleep entry ends. -/
def Block.doResetReady (b : Block) : Block :=
  match b.rst with
  | none => b
  | some r =>
    if !r.begun then b
    else
      let b := (b.setRst none).wr PW_RST_STATUS.BUSY 0
      let b := if r.op = 3 then b.setAsleep r.target false else b
      b.deliver

/-- RESET_PIN (R601): RESET_IN_N has been low for 1 µs. -/
def Block.doResetPin (b : Block) : Block := b.moduleReset 6 false

/-- MODULE_RESET (R601, R602): a cause of the table arises that no command of its own raises: LICHEN, or a cause whose
condition has come about. -/
def Block.doModuleReset (b : Block) (code : BitVec 4) : Block :=
  if 3 ≤ code.toNat ∧ code.toNat ≤ 8 then b.moduleReset code.toNat false else b

end Sys2Proof.Machine
end

