-- ==== Sys2Proof/Machine/Power.lean ====
section
/-! DEFINITION. Machine/Power.lean: power input, protections, undervoltage, throttle steps, base clock, power capping and
thermal limits (R579 to R594), and the isolation of a C-die (R68). -/

namespace Sys2Proof.Machine
open Reg

/-- Update what power and protection hold. -/
def Block.onPw (b : Block) (f : Power → Power) : Block := { b with pw := f b.pw }

/-! ### Records and pins -/

/-- A fault record of class 19 (R591): of the module as a whole. -/
def pwRec (cause : Nat) (aux0 : Nat := 0) (aux1 : Nat := 0) : FaultRec :=
  { cls := 19, cause := cause, level := 4, aux0 := aux0, aux1 := aux1 }

/-- A fault record of class 19 about a C-die. -/
def dieRec (cause die : Nat) (aux0 : Nat := 0) (aux1 : Nat := 0) : FaultRec :=
  { cls := 19, cause := cause, level := 3, unit := die, aux0 := aux0, aux1 := aux1 }

/-- A record Lichen writes at the next module reset, because the collector has no power (R581). -/
def Block.owe (b : Block) (r : FaultRec) : Block := b.onPw (fun p => { p with owed := p.owed ++ [r] })

/-- Assert or deassert PWR_GOOD (R580). -/
def Block.setGood (b : Block) (v : Bool) : Block :=
  if b.pw.good = v then b else (b.onPw (fun p => { p with good := v })).emit (.pin pinGood v)

/-- Drive THERM_TRIP_N low, or release it (R580, R589). -/
def Block.setTrip (b : Block) (v : Bool) : Block :=
  if b.pw.trip = v then b else (b.onPw (fun p => { p with trip := v })).emit (.pin pinTherm (!v))

/-! ### The main rails -/

/-- HBM and peat lose their contents (R597). -/
def Block.loseMemory (b : Block) : Block :=
  { b.each (List.range 13) (fun b d => b.undefMem d) with rc := [] }

/-- The hot-plug switch opens (R580, R581, R595 to R597): main power is lost. A protection has a module reset cause of its
own. The module is held in reset until the rails return. The event is logged also where a module reset runs already (R10,
R610). -/
def Block.mainOff (b : Block) (code : Option Nat) : Block :=
  if !b.pw.switch then b
  else
    let b := (b.setGood false).onPw (fun p => { p with switch := false })
    let b := match code with
      | some c => if b.mrst.on then (b.recCause c).rstEvent else b.beginReset c false
      | none => (if b.mrst.on then b else
          { b with mrst := { on := true, causes := [], pending := none, ended := [] } }).rstEvent
    let b := b.stepping Block.clearModule
    b.loseMemory

/-- May the hot-plug switch close (R580, R581): PWR_EN asserted, no latched response, no overvoltage, the standby domain
up? -/
def Block.mayClose (b : Block) : Bool :=
  b.pw.input && b.pw.pwrEn && !b.pw.latched && !b.pw.overVolt && !b.pw.switch && b.rd LC_STATUS.RUN != 0

/-- The switch closes and the main rails start (R580, R601, R654 stage 1): MAIN_POWER, unless this is the start after power
removal, which is POWER_ON and was recorded as the standby domain started. -/
def Block.railsStart (b : Block) : Block :=
  let b := b.onPw (fun p => { p with switch := true })
  let b := if NSet.mem b.mrst.causes 1 then b
    else if b.mrst.causes.isEmpty then
      (((b.recCause 2).wr PW_RST_TICK.TICK b.now).inc PW_RST_CNT.MODULE).rstEvent
    else b.recCause 2
  b.wr SN_BRINGUP.STAGE 1

/-- PWR_EN_ASSERT (R580): `inRange`: the input lies in the operating range. -/
def Block.doPwrEnAssert (b : Block) (inRange : Bool) : Block :=
  let b := b.onPw (fun p => { p with pwrEn := true, latched := false })
  if inRange && b.mayClose then b.railsStart else b

/-- PWR_EN_DEASSERT (R580, R589, R608): the switch opens; a latched response and THERM_TRIP_N are released. -/
def Block.doPwrEnDeassert (b : Block) : Block :=
  let b := (b.onPw (fun p => { p with pwrEn := false, latched := false })).setTrip false
  b.mainOff none

/-- RAILS_IN_REGULATION (R580, R654): PWR_GOOD is asserted and bring-up goes on to its clocks. -/
def Block.doRailsInRegulation (b : Block) : Block :=
  if b.pw.switch && !b.pw.good then (b.setGood true).wr SN_BRINGUP.STAGE 2 else b

/-- A protection opens the switch (R581): latched where `latch`; the record is written at the next module reset. -/
def Block.protectOff (b : Block) (code : Nat) (latch : Bool) (r : FaultRec) : Block :=
  if !b.pw.switch then b
  else ((b.mainOff (some code)).onPw (fun p => { p with latched := p.latched || latch })).owe r

/-- OVERVOLTAGE (R581): the switch stays open until the input recovers. -/
def Block.doOvervoltage (b : Block) : Block :=
  (b.protectOff 4 false (pwRec 4)).onPw (fun p => { p with overVolt := true })

/-- OVERVOLTAGE_RECOVERY (R581, R601): the switch closes again. -/
def Block.doOvervoltageRecovery (b : Block) : Block :=
  if !b.pw.overVolt then b
  else
    let b := b.onPw (fun p => { p with overVolt := false })
    if b.mayClose then b.railsStart else b

/-- SHORT (R581). -/
def Block.doShort (b : Block) : Block := b.protectOff 5 true (pwRec 5)
/-- OVERCURRENT (R581). -/
def Block.doOvercurrent (b : Block) : Block := b.protectOff 5 true (pwRec 6)
/-- RAIL_FAULT (R580, R581): main rail `rail`, not a C-die's. -/
def Block.doRailFault (b : Block) (rail : BitVec 8) : Block := b.protectOff 5 true (pwRec 7 2 rail.toNat)

/-- OPEN_PAIR (R581). -/
def Block.doOpenPair (b : Block) : Block :=
  if b.on PW_STATUS.OPEN_PAIR then b
  else
    let b := b.stepping (fun b => b.wr PW_STATUS.OPEN_PAIR 1)
    if b.pw.switch then b.report (pwRec 7 1) else b.owe (pwRec 7 1)

/-- OPEN_PAIR_RECOVER (R581). -/
def Block.doOpenPairRecover (b : Block) : Block := b.stepping (fun b => b.wr PW_STATUS.OPEN_PAIR 0)

/-! ### Die isolation -/

/-- The tiles of a die stop at once (R68): whatever they run is lost, with nothing completed or counted. -/
def Block.stopSite (b : Block) (p : Nat) : Block :=
  let b := ((b.stopStep p).dropRun p).onSite p (fun s => { s with todo := [], passes := [], replay := none, draining := false })
  (b.wr TL_STATUS.RUN 0 p).wr TL_RPL.STATE 0 p

/-- The regions of a C-die. -/
def regionsOfDie (d : Nat) : List Nat := (List.range 4).map (fun k => 4 * d + k)

/-- DIE_ISOLATE (R68, R594): the die's tiles stop, its region caches' lines are lost, a retirement of its regions is
abandoned, and the module-fatal fault is raised. -/
def Block.isolate (b : Block) (d : Nat) : Block :=
  if NSet.mem b.isolated d then b
  else
    let b := b.each (regionsOfDie d) (fun b r => b.each (sitesOfRegion r) Block.stopSite)
    let b := b.each (b.rc.filter (fun x => x.region / 4 == d)) (fun b x => (b.rcDrop x.region x.line).sfLeave x.region x.line)
    let b := b.each (regionsOfDie d) Block.forgetSites
    let pend := (List.range 32).foldl (fun v r => if r / 4 = d then setBits v r 1 0 else v) (b.rd TL_MAP_STATUS.PENDING)
    let b := { b with
      isolated := NSet.add b.isolated d
      misses := b.misses.filter (fun m => m.region / 4 != d), pre := b.pre.filter (fun x => x.region / 4 != d)
      retires := b.retires.filter (fun r => r.region / 4 != d)
      heldQ := b.heldQ.filter (fun x => x.1 / 64 != d)
      sigs := b.sigs.filter (fun s => s.src / 64 != d) }
    (b.wr TL_MAP_STATUS.PENDING pend).moduleFatal 1 3 d

/-- C_DIE_RAIL_FAULT (R68, R581). -/
def Block.doCDieRailFault (b : Block) (die : Fin 8) : Block :=
  if NSet.mem b.isolated die.val then b else (b.report (dieRec 7 die.val 2 die.val)).isolate die.val

/-! ### Undervoltage -/

/-- Lichen commits the class L fields that hardware changes (R598); software writes not yet committed stay held. -/
def Block.commitHw (b : Block) : Block :=
  let start := b.lc.store.filter (fun c => NSet.mem b.lc.held c.1)
  let st := b.regs.foldl (fun st c =>
    match fieldOfKey c.1 with
    | some f =>
      let i := c.1 / 2 ^ 20 % 2 ^ 20
      let j := c.1 % 2 ^ 20
      if f.cls == .l && !NSet.mem b.lc.held c.1 then SMap.set (f.resetAt i j) st c.1 (b.rd f i j) else st
    | none => st) start
  b.onLc (fun l => { l with store := st })

/-- UV_WARN (R582, R583, R598, R649): the input crosses the warning level. -/
def Block.doUvWarn (b : Block) : Block :=
  if b.pw.below || !b.pw.input then b
  else
    let b := (b.onPw (fun p => { p with below := true, above := false })).stepping (fun b =>
      (b.wr PW_STATUS.UV_STEP (max 1 (b.rd PW_STATUS.UV_STEP))).wr PW_STATUS.UV_WARN 1)
    (((b.inc PW_EVT_CNT.UV_WARNS).report (pwRec 1)).snapTrigger 5 0).commitHw

/-- UV_DWELL_TIMER (R583): a further DWELL_US below the warning level. -/
def Block.doUvDwellTimer (b : Block) : Block :=
  if b.pw.below then b.stepping (fun b => b.wr PW_STATUS.UV_STEP (min 3 (b.rd PW_STATUS.UV_STEP + 1))) else b

/-- RECOVERY_LEVEL_REACHED (R583): the input rises above the warning level, or above the recovery level. -/
def Block.doRecoveryLevelReached (b : Block) (recovery : Bool) : Block :=
  b.onPw (fun p => { p with below := false, above := recovery })

/-- UV_RECOVER_TIMER (R583, R594): RECOVER_US above the recovery level. -/
def Block.doUvRecoverTimer (b : Block) : Block :=
  let s := b.rd PW_STATUS.UV_STEP
  if !b.pw.above || s == 0 then b
  else
    let b := b.stepping (fun b => (b.wr PW_STATUS.UV_STEP (s - 1)).whenB (s == 1) (fun b => b.wr PW_STATUS.UV_WARN 0))
    b.whenB (s == 1) (fun b => b.report (pwRec 2))

/-- UV_RESET (R584, R658): the undervoltage reset. During bring-up it starts again from stage 1. -/
def Block.doUvReset (b : Block) : Block :=
  if !b.pw.switch then b
  else
    let up := b.mrst.on && b.rd SN_BRINGUP.STAGE ≥ 1
    let b := (b.moduleReset 3 false).owe (pwRec 3)
    if up then (b.setGood false).wr SN_BRINGUP.STAGE 1 else b

/-! ### Base clock and power capping -/

/-- PW_CLK_WRITE (R3, R587, R593): a new base clock takes effect at the next boundary. -/
def Block.doPwClkWrite (b : Block) (mhz : BitVec 12) : Block :=
  if mhz.toNat < 500 then b.wr PW_STATUS.CFG_ERR 1
  else
    let b := b.wr PW_CLK.REQ_MHZ mhz.toNat
    let b := b.onLc (fun l => { l with held := NSet.add l.held (PW_CLK.REQ_MHZ.key 0 0) })
    let b := b.onPw (fun p => { p with base := some (min mhz.toNat Config.maxMhz / 25 * 25) })
    if mhz.toNat > Config.maxMhz then (b.wr PW_CLK.CLAMPED 1).lcEvent 4 mhz.toNat 0 else b

/-- The base clock REQ_MHZ gives takes effect (R587). -/
def Block.applyBase (b : Block) : Block :=
  match b.pw.base with
  | some v => (b.wr PW_CLK.BASE_MHZ v).onPw (fun p => { p with base := none })
  | none => b

/-- CAP_WINDOW (R581, R588, R593, R594): a window ends with the average power `avg` in watts, which caps nothing while EN
is 0. -/
def Block.doCapWindow (b : Block) (avg : BitVec 16) : Block :=
  let b := b.wr PW_POWER.AVG_W avg.toNat
  if !b.on PW_CAP.EN then b
  else
    let lim := if b.on PW_STATUS.OPEN_PAIR then min b.pw.limit 1800 else b.pw.limit
    let s := b.rd PW_STATUS.CAP_STEP
    let high := decide (avg.toNat > lim)
    let runs := if high && s == 3 then b.pw.capRuns + 1 else 0
    let rise := high && !b.on PW_STATUS.CAP_ACTIVE
    let b := b.onPw (fun p => { p with capRuns := runs, limit := b.rd PW_CAP.LIMIT_W })
    let b := b.stepping (fun b =>
      if high then (b.wr PW_STATUS.CAP_STEP (min 3 (s + 1))).wr PW_STATUS.CAP_ACTIVE 1
      else if avg.toNat * 100 < 95 * lim then
        (b.wr PW_STATUS.CAP_STEP (s - 1)).whenB (decide (s ≤ 1)) (fun b => b.wr PW_STATUS.CAP_ACTIVE 0)
      else b)
    let b := b.whenB rise (fun b => (b.inc PW_EVT_CNT.CAP_EVENTS).report (pwRec 13))
    b.whenB (runs == 10) (fun b => b.report (pwRec 14))

/-! ### Thermal limits and cooling -/

/-- THERM_WARN as R590 gives it; its set counts in THERM_WARNS. -/
def Block.showTherm (b : Block) : Block :=
  let v := b.rd PW_STATUS.DIE_STEP != 0 || !b.pw.hot.isEmpty
  let b := b.whenB (v && !b.on PW_STATUS.THERM_WARN) (fun b => b.inc PW_EVT_CNT.THERM_WARNS)
  b.wr PW_STATUS.THERM_WARN v.toNat

/-- DIE_STEP of a C-die. -/
def Block.dieStep (b : Block) (d : Nat) : Nat := bits (b.rd PW_STATUS.DIE_STEP) (2 * d) 2

/-- Set DIE_STEP of a C-die. -/
def Block.setDieStep (b : Block) (d v : Nat) : Block :=
  b.wr PW_STATUS.DIE_STEP (setBits (b.rd PW_STATUS.DIE_STEP) (2 * d) 2 v)

/-- The step a junction temperature calls for (R590). -/
def stepFor (tj t : Nat) : Nat := if t < tj then 0 else min 3 (1 + (t - tj) / 3)

/-- DIE_TEMP_WARN (R589, R590): a C-die reaches temperature `t`. -/
def Block.doDieTempWarn (b : Block) (die : Fin 8) (t : BitVec 8) : Block :=
  let s := b.dieStep die.val
  let n := max s (stepFor (b.rd PW_CTRL.TJ_WARN_C) t.toNat)
  let b := b.stepping (fun b => (b.setDieStep die.val n).showTherm)
  b.whenB (s == 0 && decide (n > 0)) (fun b => b.report (dieRec 8 die.val))

/-- DIE_STEP_RECOVER (R590): RECOVER_US below the threshold of the current step minus 3 °C. -/
def Block.doDieStepRecover (b : Block) (die : Fin 8) : Block :=
  let s := b.dieStep die.val
  if s = 0 then b else b.stepping (fun b => (b.setDieStep die.val (s - 1)).showTherm)

/-- THERM_DIE_TRIP (R68, R589, R591). -/
def Block.doThermDieTrip (b : Block) (die : Fin 8) : Block :=
  if NSet.mem b.isolated die.val then b
  else ((b.setTrip true).report (dieRec 9 die.val)).isolate die.val

/-- A point of R589 that is no C-die: an N-die or a stack. Its number among `hot`, and its record's UNIT (R566). -/
def hotPoint : Fin 2 ⊕ Fin 12 → Nat × Nat
  | .inl n => (n.val, 0)
  | .inr m => (16 + m.val, 0x1000 + m.val)

/-- THERM_MODULE_TRIP (R580, R589): an N-die or a stack reaches its trip. -/
def Block.doThermModuleTrip (b : Block) (pt : Fin 2 ⊕ Fin 12) : Block :=
  if !b.pw.switch then b
  else (b.protectOff 5 true { pwRec 10 with unit := (hotPoint pt).2 }).setTrip true

/-- STACK_OR_N_DIE_TEMP_WARN (R589, R590): an N-die or a stack reaches its warning level or leaves it. A stack at its
warning level refreshes twice as often, which no state shows. -/
def Block.doStackOrNDieTempWarn (b : Block) (pt : Fin 2 ⊕ Fin 12) (hot : Bool) : Block :=
  let k := (hotPoint pt).1
  let new := hot && !NSet.mem b.pw.hot k
  let b := b.stepping (fun b =>
    (b.onPw (fun p => { p with hot := if hot then NSet.add p.hot k else NSet.del p.hot k })).showTherm)
  b.whenB new (fun b => b.report { pwRec 8 with unit := (hotPoint pt).2 })

/-- COOLANT_CONDITION (R589, R590): a coolant condition begins or ends: 0 the inlet above the part's maximum, 1 the flow
below 2.0 L/min, 2 below 1.0 L/min. -/
def Block.doCoolantCondition (b : Block) (c : Fin 3) (holds : Bool) : Block :=
  let new := holds && !NSet.mem b.pw.cool c.val
  let b := b.stepping (fun b =>
    let b := b.onPw (fun p => { p with cool := if holds then NSet.add p.cool c.val else NSet.del p.cool c.val })
    let b := b.whenB holds (fun b =>
      b.wr PW_STATUS.COOL_STEP (max (if c.val = 2 then 3 else 1) (b.rd PW_STATUS.COOL_STEP)))
    b.wr PW_STATUS.COOL_WARN (!b.pw.cool.isEmpty).toNat)
  b.whenB new (fun b => b.report (pwRec (if c.val = 0 then 11 else 12)))

/-- COOLANT_RECOVER (R590): no coolant condition has held for 1 s. -/
def Block.doCoolantRecover (b : Block) : Block :=
  if b.pw.cool.isEmpty then b.stepping (fun b => b.wr PW_STATUS.COOL_STEP 0) else b

end Sys2Proof.Machine
end

