-- ==== Sys2Proof/Machine/Lichen.lean ====
section
/-! DEFINITION. Machine/Lichen.lean: Lichen's store (R598, R614, R615), sensors (R616, R617), firmware activation (R625 to
R631), the security vault (R634 to R639) and the management interfaces (R621 to R624). -/

namespace Sys2Proof.Machine
open Reg

/-- Does Lichen run (R642)? -/
def Block.lcRuns (b : Block) : Bool := b.rd LC_STATUS.RUN == 1

/-! ### The store -/

/-- Put the current value of a field into the store at once. -/
def Block.commitField (b : Block) (f : Field) (i : Nat := 0) (j : Nat := 0) : Block :=
  b.onLc (fun l => { l with store := SMap.set (f.resetAt i j) l.store (f.key i j) (b.rd f i j), held := NSet.del l.held (f.key i j) })

/-- Commit every software write that is held (R598). -/
def Block.commitSw (b : Block) : Block :=
  let st := b.lc.held.foldl (fun st k =>
    match fieldOfKey k with
    | some f =>
      let i := k / 2 ^ 20 % 2 ^ 20
      let j := k % 2 ^ 20
      SMap.set (f.resetAt i j) st k (b.rd f i j)
    | none => st) b.lc.store
  b.onLc (fun l => { l with store := st, held := [] })

/-- Lichen commits, unless its store is degraded (R598, R615). -/
def Block.commitAll (b : Block) : Block := if b.on LC_STATUS.STORE_DEGRADED then b else b.commitSw.commitHw

/-- LICHEN_COMMIT (R598): held and hardware-changed class L fields are committed. -/
def Block.doLichenCommit (b : Block) : Block := if b.lcRuns then b.commitAll else b

/-- STORE_WRITE_FAIL (R615): a store write has failed three times. -/
def Block.doStoreWriteFail (b : Block) : Block :=
  if b.on LC_STATUS.STORE_DEGRADED then b else (b.wr LC_STATUS.STORE_DEGRADED 1).lcEvent 16 0 9

/-- Class L fields read as the store holds them (R596, R598). -/
def Block.fromStore (b : Block) : Block :=
  let rest := b.regs.filter (fun c => match fieldOfKey c.1 with
    | some f => f.cls != .l
    | none => true)
  { b with regs := b.lc.store.foldl (fun m c => match fieldOfKey c.1 with
      | some f =>
        let d := f.resetAt (c.1 / 2 ^ 20 % 2 ^ 20) (c.1 % 2 ^ 20)
        SMap.set d m c.1 (SMap.get d b.lc.store c.1)
      | none => m) rest }

/-- Lichen's explicit erase of class L (R10, R59): every field of the class reads its reset value, TL_LMAP and TL_SITE the
default map. No command of the table asks Lichen for it (assumption log 57). -/
def Block.eraseStore (b : Block) : Block := (b.onLc (fun l => { l with store := [], held := [] })).fromStore

/-- The local offset of the register of a field key. -/
def Block.offsetOf (b : Block) (k : Nat) : Nat :=
  match fieldOfKey k with
  | some f =>
    let i := k / 2 ^ 20 % 2 ^ 20
    regBase + blkBase f.blk (if f.blk.perTile then b.tileOf i else i) + f.off + 8 * (k % 2 ^ 20)
  | none => 0

/-! ### Sensors -/

/-- The identifiers of the numeric sensors (R616). -/
def isSensor (s : Nat) : Bool :=
  (1 ≤ s && s ≤ 6) || (16 ≤ s && s ≤ 25) || (32 ≤ s && s ≤ 43) || (48 ≤ s && s ≤ 65) || (80 ≤ s && s ≤ 103)
    || (112 ≤ s && s ≤ 113)

/-- SENSOR_POLL (R616, R617): Lichen polls a sensor, which gives a reading or none. -/
def Block.doSensorPoll (b : Block) (s : BitVec 16) (reading : Option W32) : Block :=
  let k := s.toNat
  if !isSensor k || !b.lcRuns then b
  else
    let n := SMap.get 0 b.lc.polls k
    match reading with
    | some v =>
      let b := b.onLc (fun l => { l with polls := SMap.set 0 l.polls k 0, reading := SMap.set 0 l.reading k (v.toNat + 1) })
      b.whenB (decide (n ≥ 10)) (fun b => b.lcEvent 15 (k + 2 ^ 16) 11)
    | none =>
      let b := b.onLc (fun l => { l with polls := SMap.set 0 l.polls k (min 10 (n + 1)) })
      b.whenB (n == 9) (fun b => b.lcEvent 15 k 11)

/-! ### Images and activation -/

/-- The active slot of a component. -/
def Block.slotOn (b : Block) (c : Nat) : Nat := bits (b.rd LC_FW_STATUS.ACTIVE) c 1

/-- Does a slot hold a verified image? -/
def Block.slotOk (b : Block) (c s : Nat) : Bool := bit (b.rd LC_FW_STATUS.SLOT_VALID) (2 * c + s)

/-- The version in a slot. -/
def Block.fwVer (b : Block) (c s : Nat) : Nat := if s = 0 then b.rd LC_FW_VER.VER_A 0 c else b.rd LC_FW_VER.VER_B 0 c

/-- The ARG of an event about an image (R620, code 6). -/
def Block.fwArg (b : Block) (c s : Nat) : Nat := c + s * 2 ^ 3 + b.fwVer c s * 2 ^ 32

/-- The interface version of the image in a slot. -/
def Block.fwIface (b : Block) (c s : Nat) : Nat := SMap.get 0 b.lc.iface (2 * c + s)

/-- A bit of LC_FW_STATUS.PENDING. -/
def Block.setActPend (b : Block) (c : Nat) (v : Bool) : Block :=
  b.wr LC_FW_STATUS.PENDING (setBits (b.rd LC_FW_STATUS.PENDING) c 1 v.toNat)

/-- Set SLOT_VALID of a slot, and commit it. -/
def Block.setSlot (b : Block) (c s : Nat) (v : Bool) : Block :=
  (b.wr LC_FW_STATUS.SLOT_VALID (setBits (b.rd LC_FW_STATUS.SLOT_VALID) (2 * c + s) 1 v.toNat)).commitField LC_FW_STATUS.SLOT_VALID

/-- Make a slot the active one, and commit it. -/
def Block.setActive (b : Block) (c s : Nat) : Block :=
  (b.wr LC_FW_STATUS.ACTIVE (setBits (b.rd LC_FW_STATUS.ACTIVE) c 1 s)).commitField LC_FW_STATUS.ACTIVE

/-- An activation ends: no longer pending. -/
def Block.dropAct (b : Block) (c : Nat) : Block :=
  (b.onLc (fun l => { l with acts := l.acts.filter (fun a => a.comp != c) })).setActPend c false

/-- An activation is committed (R627 to R630): its slot becomes active, and the event is logged. -/
def Block.fwCommit (b : Block) (c : Nat) : Block :=
  let s := b.slotOn c
  let b := (b.dropAct c).onLc (fun l => { l with before := SMap.set 0 l.before c (s + 1) })
  let b := (b.setActive c (1 - s)).inc LC_FW_STATUS.ACTIVATIONS
  b.lcEvent 7 (b.fwArg c (1 - s)) 4

/-- An activation is taken back (R628, R629): the old slot stays, and the image that goes is logged. -/
def Block.fwTakeBack (b : Block) (c : Nat) : Block :=
  let b := (b.dropAct c).inc LC_FW_STATUS.REVERTS
  b.lcEvent 8 (b.fwArg c (1 - b.slotOn c)) 5

/-- May an activation be accepted (R627)? The slot it names is the inactive one, or for a revert the one active before the
last activation. -/
def Block.fwOk (b : Block) (c : Nat) (revert : Bool) (at_ : Nat) : Bool :=
  let s := 1 - b.slotOn c
  b.slotOk c s && (c == 0 || c == 3 || decide (b.now + 2 ≤ at_)) && !b.lc.acts.any (fun a => a.comp == c)
    && !b.on SV_STATUS.LOCKED && (!revert || SMap.get 0 b.lc.before c == s + 1)

/-- Interrupt every control core for a runtime activation (R629). -/
def Block.irqAll (b : Block) (why : Nat) : Block := b.each (List.range 8) (fun b h => b.irq h why)

/-- Lichen places the runtime image of the inactive slot at LC_RT_IMAGE.BASE (R629). -/
def Block.placeRt (b : Block) : Block :=
  (b.mwrite 0xFFF (b.rd LC_RT_IMAGE.BASE * 2 ^ 12) (plain (Config.image 2 (b.fwVer 2 (1 - b.slotOn 2))))).2

/-- An activation takes effect at its boundary (R628 to R630): Bracken restarts, the control cores take the activation
interrupt with the image in place, or Lichen restarts. -/
def Block.fwBegin (b : Block) (c : Nat) : Block :=
  let b := b.onLc (fun l => { l with acts := l.acts.map (fun a => if a.comp == c then { a with begun := some b.now } else a) })
  if c = 2 then b.placeRt.irqAll 3
  else if c = 0 then (b.wr LC_STATUS.RUN 2).onLc (fun l => { l with why := 0 })
  else b

/-- A request for an activation or a revert (R627). -/
def Block.fwReq (b : Block) (c : Nat) (revert : Bool) (at_ : Nat) : Bool × Block :=
  if !b.fwOk c revert at_ then (false, b.wr LC_FW_STATUS.CFG_ERR 1)
  else
    let s := b.slotOn c
    let wait := c == 3 || ((c == 1 || c == 2) && b.fwIface c s != b.fwIface c (1 - s))
    let a : Act := { comp := c, at_ := if wait then none else some at_, revert := revert, begun := none }
    let b := (b.onLc (fun l => { l with acts := l.acts ++ [a] })).setActPend c true
    (true, if c = 0 ∧ at_ ≤ b.now then b.fwBegin 0 else b)

/-- FW_ACTIVATE (R627): LC_FW_CTRL with OP 0. -/
def Block.doFwActivate (b : Block) (c : BitVec 2) : Block :=
  (((b.wr LC_FW_CTRL.COMP c.toNat).wr LC_FW_CTRL.OP 0).fwReq c.toNat false (b.rd LC_FW_AT.AT_TICK)).2

/-- FW_REVERT (R627): LC_FW_CTRL with OP 1. -/
def Block.doFwRevert (b : Block) (c : BitVec 2) : Block :=
  (((b.wr LC_FW_CTRL.COMP c.toNat).wr LC_FW_CTRL.OP 1).fwReq c.toNat true (b.rd LC_FW_AT.AT_TICK)).2

/-- BRACKEN_ACTIVATION_RESTART and RUNTIME_ACTIVATION_INTERRUPT (R628, R629, R645): at the first boundary for a tick at or
after AT. -/
def Block.fwBoundary (b : Block) : Block :=
  let due := b.lc.acts.filter (fun a => a.begun.isNone && a.at_.any (fun t => decide (t ≤ b.now)))
  b.each due (fun b a => b.fwBegin a.comp)

/-- Has an activation of a component taken effect and not ended? -/
def Block.fwBegun (b : Block) (c : Nat) : Bool := b.lc.acts.any (fun a => a.comp == c && a.begun.isSome)

/-- FW_READY_BRACKEN (R628): LC_FW_READY.BRACKEN is written; Bracken runs on the new firmware. -/
def Block.doFwReadyBracken (b : Block) : Block := if b.fwBegun 1 then (b.fwCommit 1).bkResume else b

/-- BRACKEN_READY_TIMEOUT (R628): Bracken runs on the old firmware again. -/
def Block.doBrackenReadyTimeout (b : Block) : Block := if b.fwBegun 1 then (b.fwTakeBack 1).bkResume else b

/-- FW_READY_RT (R629): LC_FW_READY.RT is written. -/
def Block.doFwReadyRt (b : Block) : Block := if b.fwBegun 2 then b.fwCommit 2 else b

/-- RUNTIME_READY_TIMEOUT (R629): the cores are interrupted again into the old image. -/
def Block.doRuntimeReadyTimeout (b : Block) : Block := if b.fwBegun 2 then (b.irqAll 3).fwTakeBack 2 else b

/-- Lichen runs again after a restart (R620, R630, R645): an image of its own is committed, held writes are committed, and
what waited is logged. -/
def Block.lichenUp (b : Block) (why : Nat) : Block :=
  let b := b.wr LC_STATUS.RUN 1
  let b := if b.fwBegun 0 then b.fwCommit 0 else b
  (b.commitAll.logOwed).lcEvent 17 why 0

/-- LICHEN_RESTART (R630): a restart ends, or Lichen restarts after a self-check. -/
def Block.doLichenRestart (b : Block) : Block :=
  if b.rd LC_STATUS.RUN = 2 then b.lichenUp b.lc.why
  else if b.lcRuns then b.lichenUp 2
  else b

/-- Starts at a module reset or power-up (R627, R631): pending activations that waited for it take effect, others are gone;
a component that fails three starts in a row starts from its other slot. Bit c of `fails`: component c failed. -/
def Block.fwStart (b : Block) (fails : Nat) : Block :=
  let wait := b.lc.acts.filter (fun a => a.at_.isNone)
  let b := b.each wait (fun b a => if b.slotOk a.comp (1 - b.slotOn a.comp) then b.fwCommit a.comp else b)
  let b := (b.onLc (fun l => { l with acts := [] })).wr LC_FW_STATUS.PENDING 0
  b.each (List.range 4) (fun b c =>
    if !bit fails c then b.onLc (fun l => { l with bad := SMap.set 0 l.bad c 0 })
    else
      let n := SMap.get 0 b.lc.bad c + 1
      if n < 3 then b.onLc (fun l => { l with bad := SMap.set 0 l.bad c n })
      else
        let s := b.slotOn c
        let b := (b.onLc (fun l => { l with bad := SMap.set 0 l.bad c 0 })).inc LC_FW_STATUS.REVERTS
        (b.setActive c (1 - s)).lcEvent 8 (b.fwArg c s) 5)

/-! ### The security vault -/

/-- The policy of a source (R635, R644). -/
def Block.policyOf (b : Block) (s : Nat) : Nat :=
  if s = 0 then b.rd SV_POLICY.P_LID_MESH else if s = 1 then b.rd SV_POLICY.P_LID_REMOVE
  else if s = 2 then b.rd SV_POLICY.P_VOLT else if s = 3 then b.rd SV_POLICY.P_CLOCK
  else if s = 4 then b.rd SV_POLICY.P_TEMP else b.rd SV_POLICY.P_TEST

/-- The identity key's state changes (R620, R635, R638); the key store keeps it (R639). -/
def Block.setIdKey (b : Block) (v : Nat) : Block :=
  if b.rd SV_STATUS.ID_KEY = v then b
  else
    let b := (b.wr SV_STATUS.ID_KEY v).onLc (fun l => { l with idKey := v })
    b.lcEvent 12 v (if v = 1 then 2 else if v = 2 then 3 else 0)

/-- The lock, which power removal keeps (R639). -/
def Block.setLock (b : Block) (v : Bool) : Block := (b.wr SV_STATUS.LOCKED v.toNat).commitField SV_STATUS.LOCKED

/-- The effects of LOCK (R635, R645): activations that have not begun are cancelled. -/
def Block.lock (b : Block) : Block :=
  let b := b.setLock true
  let b := if b.rd SV_STATUS.ID_KEY = 2 then b else b.setIdKey 1
  b.each (b.lc.acts.filter (fun a => a.begun.isNone)) (fun b a => b.dropAct a.comp)

/-- The effects of ERASE beside those of LOCK (R635). -/
def Block.erase (b : Block) : Block :=
  let b := { b.onPorts (fun p => { p with assocs := [], active := [] }) with wins := [] }
  let qs := b.qps
  let b := { b with qps := [] }.each qs (fun b q => b.qpFail q 5)
  let b := b.onLc (fun l => { l with hands := [], sess := [] })
  if b.on LC_INV1.FUSE_ERASE then b.setIdKey 2 else b

/-- One alarm of a cycle (R635, R636), acted on with policy `p`. -/
def Block.alarmOne (b : Block) (s p : Nat) : Block :=
  let b := if b.rd SV_ALARM.LATCH = 0 then (b.wr SV_ALARM.FIRST s).wr SV_ALARM_TICK.TICK b.now else b
  let b := (b.wr SV_ALARM.LATCH (setBits (b.rd SV_ALARM.LATCH) s 1 1)).inc SV_CNT.ALARMS
  let b := b.whenB (decide (p ≥ 1)) (fun b => b.inc SV_CNT.LOCKS)
  let b := b.whenB (decide (p ≥ 2)) (fun b => b.inc SV_CNT.ERASES)
  b.lcEvent 11 (s + p * 2 ^ 3) 1

/-- Alarms of sources that arise in one cycle (R635, R636): the strongest policy applies. -/
def Block.alarms (b : Block) (ss : List Nat) : Block :=
  if ss.isEmpty then b
  else
    let p := (ss.map b.policyOf).foldl max 0
    let b := (b.each ss (fun b s => b.alarmOne s p)).onLc (fun l => { l with alarmed := true })
    let b := b.whenB (decide (p ≥ 1)) Block.lock
    b.whenB (decide (p ≥ 2)) Block.erase

/-- TAMPER_ALARM (R634 to R636): the sources active from now on; those that become active raise alarms. -/
def Block.doTamperAlarm (b : Block) (active : BitVec 5) : Block :=
  let new := (List.range 5).filter (fun s => bit active.toNat s && !bit (b.rd SV_STATUS.ACTIVE) s)
  (b.wr SV_STATUS.ACTIVE active.toNat).alarms new

/-- SV_TEST_TRIGGER (R634, R635): SV_TEST.TRIGGER raises source 5. -/
def Block.doSvTestTrigger (b : Block) : Block := b.alarms [5]

/-- A write of SV_ALARM.LATCH (R636): a bit whose source is active stays. -/
def Block.clearLatch (b : Block) (v : Nat) : Block :=
  let l := b.rd SV_ALARM.LATCH
  b.wr SV_ALARM.LATCH (((List.range 6).map (fun s =>
    if bit l s && (!bit v s || bit (b.rd SV_STATUS.ACTIVE) s) then 2 ^ s else 0)).sum)

/-- Re-attestation begins: Lichen restarts itself (R638). -/
def Block.attestStart (b : Block) : Block :=
  if b.rd LC_STATUS.RUN = 0 then b
  else (b.wr LC_STATUS.RUN 2).onLc (fun l => { l with why := 1, attest := true })

/-- REATTEST (R638): re-attestation runs to its result. `fail`: the first component whose image does not verify or whose
measurement differs. -/
def Block.doReattest (b : Block) (fail : Option (Fin 4)) : Block :=
  if b.rd LC_STATUS.RUN = 0 then b
  else
    let b := if b.lc.attest then (if b.rd LC_STATUS.RUN = 2 then b.lichenUp b.lc.why else b) else (b.attestStart).lichenUp 1
    let b := b.onLc (fun l => { l with attest := false, alarmed := false })
    if fail.isNone ∧ b.rd SV_STATUS.ACTIVE = 0 then
      let b := b.setLock false
      (if b.rd SV_STATUS.ID_KEY = 2 then b else b.setIdKey 0).lcEvent 13 1 0
    else b.lcEvent 13 (2 * (fail.elim 0 (·.val))) 10

/-! ### Management requests -/

/-- Interfaces of replies: 6 MCTP control, 7 PLDM, 8 SPDM, 9 I3C, 10 the management link, 11 the test port. A reply's first
argument is 0 for success and 1 for an error. -/
def Block.reply (b : Block) (iface cmd : Nat) (args : List Nat) : Block := b.emit (.reply iface cmd args)

/-- Answer a management request, if Lichen runs (R630). -/
def Block.mgmt (b : Block) (f : Block → Block) : Block := if b.lcRuns then f b else b

/-- A reply whose content the spec does not give: a free value of 64 bits. -/
def Block.replyFree (b : Block) (iface cmd : Nat) : Block :=
  let (v, b) := b.draw 64
  b.reply iface cmd [0, v]

/-- SET_ENDPOINT_ID (R621): identifiers 0 and 255 are no endpoint's. -/
def Block.doSetEndpointId (b : Block) (eid : BitVec 8) : Block :=
  b.mgmt (fun b =>
    if eid.toNat = 0 ∨ eid.toNat = 255 then b.reply 6 1 [1]
    else (b.onLc (fun l => { l with eid := eid.toNat })).reply 6 1 [0, eid.toNat])

/-- GET_ENDPOINT_ID (R621). -/
def Block.doGetEndpointId (b : Block) : Block := b.mgmt (fun b => b.reply 6 2 [0, b.lc.eid])

/-- GET_MCTP_VERSION_SUPPORT (R621). -/
def Block.doGetMctpVersionSupport (b : Block) : Block := b.mgmt (fun b => b.replyFree 6 4)

/-- GET_MESSAGE_TYPE_SUPPORT (R621): control 0, PLDM 1, SPDM 5, secured messages 6. -/
def Block.doGetMessageTypeSupport (b : Block) : Block := b.mgmt (fun b => b.reply 6 5 [0, 0, 1, 5, 6])

/-- PLDM_BASE_COMMAND (R621): SetTID 1, GetTID 2, GetPLDMTypes 4 (types 0, 2 and 5); GetPLDMVersion 3 and GetPLDMCommands 5
answer what the spec does not give. -/
def Block.doPldmBaseCommand (b : Block) (cmd arg : BitVec 8) : Block :=
  b.mgmt (fun b =>
    if cmd.toNat = 1 then (b.onLc (fun l => { l with tid := arg.toNat })).reply 7 1 [0]
    else if cmd.toNat = 2 then b.reply 7 2 [0, b.lc.tid]
    else if cmd.toNat = 4 then b.reply 7 4 [0, 0x25]
    else if cmd.toNat = 3 ∨ cmd.toNat = 5 then b.replyFree 7 cmd.toNat
    else b.reply 7 cmd.toNat [1])

/-- PLDM_SENSOR_READ (R616, R617, R621): a reading, a state, or unavailable. -/
def Block.doPldmSensorRead (b : Block) (s : PldmSensor) : Block :=
  b.mgmt (fun b =>
    match s with
    | .numeric id =>
      let v := SMap.get 0 b.lc.reading id.toNat
      if !isSensor id.toNat ∨ v = 0 ∨ SMap.get 0 b.lc.polls id.toNat ≥ 10 then b.reply 7 17 [1, id.toNat]
      else b.reply 7 17 [0, id.toNat, v - 1]
    | .idKey => b.reply 7 33 [0, 0, b.rd SV_STATUS.ID_KEY]
    | .alarms => b.reply 7 33 [0, 1, b.rd SV_ALARM.LATCH]
    | .slot c => b.reply 7 33 [0, 2 + c.val, b.slotOn c.val])

/-- Does a signature verify (R626): with the operator's where the co-signature fuse is blown? -/
def Block.verified (b : Block) (sig cosig : Bool) : Bool := sig && (!b.on LC_INV1.FUSE_COSIGN || cosig)

/-- PLDM_FIRMWARE_TRANSFER (R626, R633, R635): an image into the inactive slot, or a fleet test pack. -/
def Block.doPldmFirmwareTransfer (b : Block) (x : FwItem) : Block :=
  b.mgmt (fun b =>
    if b.on SV_STATUS.LOCKED then b.reply 7 21 [1]
    else
      match x with
      | .image c ver iface sig cosig =>
        let s := 1 - b.slotOn c.val
        let b := b.setSlot c.val s false
        let f := if s = 0 then LC_FW_VER.VER_A else LC_FW_VER.VER_B
        let b := ((b.wr f ver.toNat 0 c.val).commitField f 0 c.val).onLc (fun l => { l with
          iface := SMap.set 0 l.iface (2 * c.val + s) iface.toNat })
        if b.verified sig cosig then ((b.setSlot c.val s true).lcEvent 6 (b.fwArg c.val s) 0).reply 7 21 [0]
        else (b.lcEvent 9 (b.fwArg c.val s) 6).reply 7 21 [1]
      | .pack at_ head places sig cosig =>
        let id := ((head.map BitVec.toNat).getD 0 0) % 2 ^ 32
        if b.verified sig cosig then
          let b := b.each places (fun b w => (b.mwrite 0xFFF w.1.toNat (plain w.2)).2)
          let b := (b.mwrite 0xFFF (at_.toNat * 2 ^ 6) (plain (bytesOf ((List.range 8).map (fun k => (head.map BitVec.toNat).getD k 0))))).2
          let b := (b.wr FLT_TP_BASE.BASE at_.toNat).onLc (fun l => { l with pack := id + 1 })
          (b.lcEvent 10 id 0).reply 7 21 [0]
        else (b.lcEvent 9 (4 + id * 2 ^ 32) 7).reply 7 21 [1])

/-- ACTIVATE_FIRMWARE (R627): a PLDM request, with AT = TK_COUNT + 4. -/
def Block.doActivateFirmware (b : Block) (c : Fin 4) : Block :=
  b.mgmt (fun b =>
    let r := b.fwReq c.val false (b.now + 4)
    r.2.reply 7 26 [(!r.1).toNat])

/-- Is an SPDM session established? -/
def Block.inSession (b : Block) (sid : BitVec 16) : Bool := NSet.mem b.lc.sess sid.toNat

/-- May a policy value be written (R637, R644): no reserved code, none lowered for a latched source? -/
def Block.policyOk (b : Block) (v : Nat) : Bool :=
  (List.range 6).all (fun s => decide (bits v (2 * s) 2 ≤ 2)
    && !(bit (b.rd SV_ALARM.LATCH) s && decide (bits v (2 * s) 2 < b.policyOf s)))

/-- Write the six policies, and commit them. -/
def Block.setPolicy (b : Block) (v : Nat) : Block :=
  b.each [(SV_POLICY.P_LID_MESH, 0), (SV_POLICY.P_LID_REMOVE, 2), (SV_POLICY.P_VOLT, 4), (SV_POLICY.P_CLOCK, 6),
    (SV_POLICY.P_TEMP, 8), (SV_POLICY.P_TEST, 10)] (fun b f => (b.wr f.1 (bits v f.2 2)).commitField f.1)

/-- SV_POLICY_WRITE (R637): a PLDM request in an SPDM session. -/
def Block.doSvPolicyWrite (b : Block) (sid : BitVec 16) (v : BitVec 12) : Block :=
  b.mgmt (fun b =>
    if b.inSession sid && b.policyOk v.toNat then (b.setPolicy v.toNat).reply 7 57 [0] else b.reply 7 57 [1])

/-! ### SPDM -/

/-- A request of SPDM that needs the connection negotiated up to `n`. -/
def Block.spdmReq (b : Block) (n cmd : Nat) (f : Block → Block) : Block :=
  b.mgmt (fun b => if b.lc.spdm < n then b.reply 8 cmd [1] else f b)

/-- A request that needs a signature: an ERROR response while the identity key is locked or erased (R635). -/
def Block.spdmSig (b : Block) (cmd : Nat) (f : Block → Block) : Block :=
  if b.on SV_STATUS.LOCKED || b.rd SV_STATUS.ID_KEY != 0 then b.reply 8 cmd [1] else f b

/-- GET_VERSION (R621): SPDM 1.3. -/
def Block.doGetVersion (b : Block) : Block :=
  b.mgmt (fun b => (b.onLc (fun l => { l with spdm := 1, hands := [], sess := [] })).reply 8 4 [0, 0x13])

/-- GET_CAPABILITIES (R621). -/
def Block.doGetCapabilities (b : Block) : Block :=
  b.spdmReq 1 97 (fun b => (b.onLc (fun l => { l with spdm := max 2 l.spdm })).replyFree 8 97)

/-- NEGOTIATE_ALGORITHMS (R621). -/
def Block.doNegotiateAlgorithms (b : Block) : Block :=
  b.spdmReq 2 99 (fun b => (b.onLc (fun l => { l with spdm := 3 })).replyFree 8 99)

/-- GET_DIGESTS (R621): the digest of the one certificate chain. -/
def Block.doGetDigests (b : Block) : Block := b.spdmReq 3 1 (fun b => b.replyFree 8 1)

/-- GET_CERTIFICATE (R621): slot 0 holds the device identity chain. -/
def Block.doGetCertificate (b : Block) (slot : BitVec 4) : Block :=
  b.spdmReq 3 2 (fun b => if slot.toNat = 0 then b.replyFree 8 2 else b.reply 8 2 [1])

/-- CHALLENGE (R621, R635). -/
def Block.doChallenge (b : Block) (slot : BitVec 4) : Block :=
  b.spdmReq 3 3 (fun b => if slot.toNat = 0 then b.spdmSig 3 (fun b => b.replyFree 8 3) else b.reply 8 3 [1])

/-- The item a measurement is over (R624). -/
def Block.measured (b : Block) (ix : Nat) : Option (List Byte) :=
  if 1 ≤ ix ∧ ix ≤ 4 then some (Config.image (ix - 1) (b.fwVer (ix - 1) (b.slotOn (ix - 1))))
  else if ix = 5 then some (leBytes 8 b.digest)
  else if ix = 6 then some (Config.policyBytes (((List.range 6).map (fun s => b.policyOf s * 4 ^ s)).sum)
    (b.rd LC_INV1.FUSE_ERASE + 2 * b.rd LC_INV1.FUSE_COSIGN))
  else if ix = 7 then
    some (if b.lc.pack = 0 then List.replicate 64 0 else bytesOf (b.tableWords (b.rd FLT_TP_BASE.BASE * 2 ^ 6) 8).1)
  else none

/-- GET_MEASUREMENTS (R621, R624, R635): one measurement by its index; `signed` asks for a signature. -/
def Block.doGetMeasurements (b : Block) (ix : BitVec 8) (signed : Bool) : Block :=
  b.spdmReq 3 96 (fun b =>
    let answer := fun (b : Block) =>
      match b.measured ix.toNat with
      | some m => b.reply 8 96 [0, ix.toNat, Config.sha384 m]
      | none => b.reply 8 96 [1]
    if signed then b.spdmSig 96 answer else answer b)

/-- KEY_EXCHANGE (R621, R635): a session's handshake begins. -/
def Block.doKeyExchange (b : Block) : Block :=
  b.spdmReq 3 100 (fun b => b.spdmSig 100 (fun b =>
    let sid := b.lc.nextSess % 2 ^ 16
    (b.onLc (fun l => { l with hands := NSet.add l.hands sid, nextSess := l.nextSess + 1 })).reply 8 100 [0, sid]))

/-- FINISH (R621): the requester's MAC verifies or not. -/
def Block.doFinish (b : Block) (sid : BitVec 16) (ok : Bool) : Block :=
  b.spdmReq 3 101 (fun b =>
    if !NSet.mem b.lc.hands sid.toNat then b.reply 8 101 [1]
    else
      let b := b.onLc (fun l => { l with hands := NSet.del l.hands sid.toNat })
      if ok then (b.onLc (fun l => { l with sess := NSet.add l.sess sid.toNat })).reply 8 101 [0] else b.reply 8 101 [1])

/-- END_SESSION (R621). -/
def Block.doEndSession (b : Block) (sid : BitVec 16) : Block :=
  b.spdmReq 3 108 (fun b =>
    if b.inSession sid then (b.onLc (fun l => { l with sess := NSet.del l.sess sid.toNat })).reply 8 108 [0]
    else b.reply 8 108 [1])

/-! ### Carrier links -/

/-- I3C_DYNAMIC_ADDRESS (R621, R623): the controller assigns a dynamic address; the static one is 0x10 + SLOT_ID. -/
def Block.doI3cDynamicAddress (b : Block) (a : BitVec 7) : Block :=
  b.mgmt (fun b => (b.onLc (fun l => { l with dyn := a.toNat })).reply 9 0 [0, 0x10 + Config.slotId.toNat, a.toNat])

/-- Lichen's link-local address (R622): modified EUI-64 of the MAC base plus 64. -/
def Block.linkLocal (b : Block) : Nat :=
  let mac := (b.rd LC_INV1.MAC_BASE + 64) % 2 ^ 48
  let hi := mac / 2 ^ 24 ^^^ 0x02_0000
  0xFE80 * 2 ^ 112 + hi * 2 ^ 40 + 0xFFFE * 2 ^ 24 + mac % 2 ^ 24

/-- MGMT_NEIGHBOUR_SOLICITATION (R622): a solicitation for an address, or another frame that is no MCTP packet, which is
dropped. -/
def Block.doMgmtNeighbourSolicitation (b : Block) (target : Option (BitVec 128)) : Block :=
  b.mgmt (fun b =>
    match target with
    | some t => if t.toNat = b.linkLocal then b.reply 10 136 [0, t.toNat] else b
    | none => b)

end Sys2Proof.Machine
end

