-- ==== Sys2Proof/Machine/Bringup.lean ====
section
/-! DEFINITION. Machine/Bringup.lean: power-up, power removal and bring-up (R595 to R600, R654 to R658), the release of a
module reset (R602), snapshot commands (R646 to R650) and the test access port (R659, R660). -/

namespace Sys2Proof.Machine
open Reg

/-! ### Power-up and power removal -/

/-- The vault's check before Lichen leaves reset (R639): the sources found active raise alarms at the last tick recorded. -/
def Block.vaultCheck (b : Block) (ss : List Nat) : Block :=
  if ss.isEmpty then b
  else
    let b := b.wr SV_STATUS.ACTIVE ((ss.map (fun s => 2 ^ s)).sum)
    (b.alarms ss).wr SV_ALARM_TICK.TICK (b.rd FLT_AV_LAST.TICK)

/-- Writes of class L lost with the power are logged (R598, R620). -/
def Block.logLost (b : Block) : Block :=
  let ks := b.lc.held
  (b.onLc (fun l => { l with held := [] })).each ks (fun b k => b.lcEvent 3 (b.offsetOf k) 8)

/-- INPUT_POWER_PRESENT (R598, R638, R639, R654 stage 0): the input reaches 40.0 V; the vault finds the lid mesh or the
lid switch faulty, or not; Lichen starts. The module reset of cause POWER_ON, which PW_RST_CAUSE and LAST hold from the power
removal on (R601, R610), is logged. -/
def Block.doInputPowerPresent (b : Block) (mesh lid : Bool) : Block :=
  if b.pw.input then b
  else
    let b := b.onPw (fun p => { p with input := true })
    let b := (b.wr LC_STATUS.RUN 1).wr SV_STATUS.ID_KEY b.lc.idKey
    let b := b.logOwed.logLost.rstEvent
    let b := b.vaultCheck ((if mesh then [0] else []) ++ (if lid then [1] else []))
    b.attestStart

/-- What Lichen loses with its power (R639, R645): everything but its store and its key store. -/
def Lichen.unpowered (l : Lichen) : Lichen :=
  { l with polls := [], reading := [], acts := [], why := 0, alarmed := false, attest := false, tid := 0, eid := 0, dyn := 0,
           spdm := 0, hands := [], sess := [], pack := 0 }

/-- POWER_REMOVAL (R595 to R598): the input falls below 40.0 V. -/
def Block.doPowerRemoval (b : Block) : Block :=
  if !b.pw.input then b
  else
    let last := SMap.get 0 b.lc.store (FLT_AV_LAST.TICK.key 0 0)
    let b := (b.wr LC_STATUS.RUN 0).lcEvent 2 last 0
    let b := ((b.setGood false).setTrip false).stepping (fun b =>
      let b := b.fromStore.clearModule.loseMemory
      b.clearRegs (fun f _ _ => f.cls == .a))
    { b with
      lc := b.lc.unpowered, snap := Snap.empty
      pw := { input := false, pwrEn := b.pw.pwrEn, switch := false, good := false, latched := false, overVolt := false, trip := false,
              below := false, above := false, capRuns := 0, limit := b.rd PW_CAP.LIMIT_W, hot := [], cool := [], base := none,
              owed := [] }
      mrst := { on := true, causes := [1], pending := none, ended := [] }
      tap := { ir := 1, bsr := 0 } }

/-! ### Bring-up -/

/-- Update what a module reset holds. -/
def Block.onMrst (b : Block) (f : ModRst → ModRst) : Block := { b with mrst := f b.mrst }

/-- Do the parallel steps run (R654 stages 4 to 6)? -/
def Block.inParallel (b : Block) : Bool :=
  b.mrst.on && decide (4 ≤ b.rd SN_BRINGUP.STAGE) && decide (b.rd SN_BRINGUP.STAGE ≤ 6)

/-- The lowest step of R654 that has not ended. -/
def ModRst.stage (r : ModRst) : Nat :=
  if !(List.range 13).all (fun k => NSet.mem r.ended k) then 4
  else if !NSet.mem r.ended 13 then 5
  else if !NSet.mem r.ended 14 then 6
  else 7

/-- A parallel step ends: SN_BRINGUP.STAGE names the lowest step still in progress. -/
def Block.stepDone (b : Block) (k : Nat) : Block :=
  let b := b.onMrst (fun r => { r with ended := NSet.add r.ended k })
  b.wr SN_BRINGUP.STAGE b.mrst.stage

/-- A part of storage holds zero with valid codes (R655 to R657). -/
def Block.zeroMem (b : Block) (dom : Nat) : Block := { b with mem := b.mem.undef dom 0 }

/-- PLLS_LOCKED (R654 stage 2). -/
def Block.doPllsLocked (b : Block) : Block :=
  if b.pw.good && b.rd SN_BRINGUP.STAGE == 2 then (b.onMrst (fun r => { r with ended := [] })).wr SN_BRINGUP.STAGE 3 else b

/-- Lichen has restored every class L field (R598, R600); the base clock follows REQ_MHZ (R587). -/
def Block.restoreL (b : Block) : Block :=
  let b := b.whenB (!b.on LC_STATUS.STORE_DEGRADED) Block.commitSw
  b.loadPreset.wr PW_CLK.BASE_MHZ (min (b.rd PW_CLK.REQ_MHZ) Config.maxMhz / 25 * 25)

/-- A stack controller enters service with the map in force (R370, R373): SERVING, or FAILED with more than 4 channels
mapped out. -/
def Block.stackUp (b : Block) (m : Nat) : Block :=
  let b := b.wr MEM_STATUS.OUT (b.chOut m) m
  b.wr MEM_STATUS.STATE (if b.chOut m > 4 then 3 else 1) m

/-- The peat controllers enter service; OUT counts the packages of the whole module (R399). -/
def Block.peatUp (b : Block) : Block :=
  let n := popN 16 b.pkgMask
  b.each [12, 13, 14, 15] (fun b i => (b.wr MEM_STATUS.OUT n i).wr MEM_STATUS.STATE 1 i)

/-- RESTORE_END (R14, R598, R602, R654 stage 3): in bring-up stages 4 to 6 start; after the release of a module reset the
controllers pass from BRINGUP to SERVING. -/
def Block.doRestoreEnd (b : Block) : Block :=
  if b.mrst.on then
    if b.rd SN_BRINGUP.STAGE = 3 then
      let b := b.restoreL.whenB (NSet.mem b.mrst.causes 1) (fun b => b.wr TK_COUNT.COUNT (b.rd FLT_AV_LAST.TICK + 1))
      b.wr SN_BRINGUP.STAGE 4
    else b
  else if b.rd MEM_STATUS.STATE 12 = 0 then
    let b := b.restoreL.each (List.range 12) (fun b m =>
      let b := b.stackUp m
      b.whenB (b.rd MEM_STATUS.STATE m == 3) (fun b => b.moduleFatal 2 4 (0x1000 + m)))
    b.peatUp
  else b

/-- Is an entry of the row log one that bring-up repairs (R396)? -/
def Block.rowMarked (b : Block) (m e : Nat) : Bool :=
  b.on MEM_ROWLOG.VALID m e && (decide (b.rd MEM_ROWLOG.CORR m e ≥ 4) || b.on MEM_ROWLOG.UNCORR m e)

/-- MEMORY_BRINGUP_END (R655): a stack's training, repair, test and map end. `noSpare`: row log entries whose bank had no
spare row; `rows`: further rows the test repaired; `fail`: channels in service with a row that could not be repaired. -/
def Block.doMemoryBringupEnd (b : Block) (m : Fin 12) (noSpare : BitVec 16) (rows : BitVec 16) (fail : BitVec 32) : Block :=
  if !b.inParallel || NSet.mem b.mrst.ended m then b
  else
    let es := (List.range 16).filter (fun e => b.rowMarked m e && !bit noSpare.toNat e)
    let b := b.each es (fun b e => b.wr MEM_ROWLOG.VALID 0 m e)
    let b := b.whenB (decide (es.length + rows.toNat > 0)) (fun b =>
      (b.inc SN_BRINGUP.PPR_REPAIRS (es.length + rows.toNat)).wr MEM_PPR_STATUS.DONE 1 m)
    let old := b.rd MEM_CHMAP.PENDING m
    let new := old ||| (fail.toNat &&& (2 ^ 32 - 1 - b.rd MEM_CHMAP.EFFECTIVE m))
    let b := (b.wr MEM_CHMAP.PENDING new m).inc SN_BRINGUP.CH_MAPPED (popN 32 new - popN 32 old)
    let b := (b.commitAll.wr MEM_CHMAP.EFFECTIVE (b.rd MEM_CHMAP.PENDING m) m).stackUp m
    let b := if b.rd MEM_STATUS.STATE m = 3 then { b with tick := { b.tick with fatal := true } } else b
    (b.zeroMem m).stepDone m

/-- PEAT_BRINGUP_END (R656): the packages that failed training or a test word. -/
def Block.doPeatBringupEnd (b : Block) (fail : BitVec 16) : Block :=
  if !b.inParallel || NSet.mem b.mrst.ended 12 then b
  else
    let b := b.each [0, 1, 2, 3] (fun b c =>
      let old := b.rd MEM_PKGMAP.PENDING (12 + c)
      let new := old ||| bits fail.toNat (4 * c) 4
      (b.wr MEM_PKGMAP.PENDING new (12 + c)).inc SN_BRINGUP.PKG_MAPPED (popN 4 new - popN 4 old))
    let b := b.commitAll.each [12, 13, 14, 15] (fun b i => b.wr MEM_PKGMAP.EFFECTIVE (b.rd MEM_PKGMAP.PENDING i) i)
    (b.peatUp.zeroMem 12).stepDone 12

/-- What a site test found (R657), before any logical tile moves: the logical tiles left without their site. -/
def Block.siteFound (b : Block) (p : Nat) (x : SiteFault) : List Nat × Block :=
  match x with
  | .row q =>
    if q.val = 64 then ([], b)
    else
      let new := !(b.on TW_REPAIR.REQ_EN p && b.rd TW_REPAIR.REQ_ROW p == q.val)
      ([], ((b.wr TW_REPAIR.REQ_EN 1 p).wr TW_REPAIR.REQ_ROW q.val p).whenB new (fun b => b.inc SN_BRINGUP.TWILL_REPAIRS))
  | .other =>
    let ls := if b.rd TL_SITE.STATE 0 p = 0 then [b.rd TL_SITE.LTILE 0 p] else []
    (ls, ((b.wr TL_SITE.STATE 3 0 p).wr TL_SITE.CAUSE 3 0 p).inc SN_BRINGUP.SITES_DISABLED)

/-- A logical tile moves to the lowest-numbered spare site of its region, or is degraded (R63, R657). -/
def Block.moveTile (b : Block) (l : Nat) : Block :=
  match b.freeSpare (l / 16) with
  | some k =>
    let p := l / 16 * 18 + k
    ((b.wr TL_LMAP.SITE k 0 l).wr TL_SITE.STATE 0 0 p).wr TL_SITE.LTILE l 0 p
  | none => b.wr TL_LMAP.VALID 0 0 l

/-- TILE_BRINGUP_END (R657): the findings of the site tests. -/
def Block.doTileBringupEnd (b : Block) (found : List (SiteIx × SiteFault)) : Block :=
  if !b.inParallel || NSet.mem b.mrst.ended 13 then b
  else
    let tested := (List.range 576).filter (fun p => decide (b.rd TL_SITE.STATE 0 p ≤ 1))
    let (ls, b) := (found.filter (fun x => tested.contains x.1.val)).foldl (fun (acc : List Nat × Block) x =>
      let (ls, b) := acc.2.siteFound x.1.val x.2
      (acc.1 ++ ls, b)) ([], b)
    let b := (b.each ls Block.moveTile).commitAll
    (b.each tested (fun b p => (b.clearSite p).zeroMem (16 + p))).stepDone 13

/-- CACHE_BRINGUP_END (R654 stage 6): all lines invalid. -/
def Block.doCacheBringupEnd (b : Block) : Block :=
  if !b.inParallel || NSet.mem b.mrst.ended 14 then b
  else { b with rc := [], sf := [], misses := [], pre := [], tags := [] }.stepDone 14

/-! ### Release -/

/-- Lichen writes the class 19 records of what happened without power to the collector (R581, R584, R620). -/
def Block.payOwed (b : Block) : Block :=
  let rs := b.pw.owed
  (b.onPw (fun p => { p with owed := [] })).each rs (fun b r => (b.report r).lcEvent 14 r.cause 0)

/-- A module reset ends (R602, R627, R631, R638): firmware starts, the control cores start. -/
def Block.start (b : Block) (attest : Bool) (fails : Nat) : Block :=
  let b := (b.onMrst (fun r => { r with on := false, causes := [] })).payOwed.fwStart fails
  let b := b.irqAll 4
  if attest || b.lc.alarmed then b.attestStart else b

/-- BRINGUP_RELEASE (R654 stages 7 and 8): every step has ended. `ms`: the milliseconds since stage 1; bit c of `fails`:
component c failed to start. -/
def Block.doBringupRelease (b : Block) (ms : BitVec 16) (fails : BitVec 4) : Block :=
  if !b.mrst.on || b.rd SN_BRINGUP.STAGE != 7 || b.on SN_TAP.EN then b
  else
    let b := ((b.wr SN_BRINGUP.DURATION_MS ms.toNat).wr SN_BRINGUP.MODE_RAN (b.rd SN_BIST_CTRL.MODE)).wr SN_BRINGUP.STAGE 8
    b.start (NSet.mem b.mrst.causes 2) fails.toNat

/-- MODULE_RESET_RELEASE (R602): the causes have ended and 100 µs have passed. A reset of POWER_ON or MAIN_POWER ends with
its bring-up; one of PROTECTION ends with PWR_EN (R601). -/
def Block.doModuleResetRelease (b : Block) (fails : BitVec 4) : Block :=
  let up := 1 ≤ b.rd SN_BRINGUP.STAGE && b.rd SN_BRINGUP.STAGE ≤ 7
  if !b.mrst.on || !b.pw.switch || b.pw.latched || b.on SN_TAP.EN || up || NSet.mem b.mrst.causes 1 || NSet.mem b.mrst.causes 2
  then b
  else b.start false fails.toNat

/-! ### Snapshot -/

/-- SN_TRIG_GO (R649): source 0. -/
def Block.doSnTrigGo (b : Block) : Block := b.snapTrigger 0 0

/-- SNAP_IN (R649, R650): source 2; `masked`: SNAP_OUT_N is low, or went high less than 1 µs ago. -/
def Block.doSnapIn (b : Block) (masked : Bool) : Block := if masked then b else b.snapTrigger 2 0

/-- SNAPSHOT_COPY_END (R647, R648). -/
def Block.doSnapshotCopyEnd (b : Block) : Block :=
  if b.on SN_STATUS.COPY_BUSY then (b.wr SN_STATUS.COPY_BUSY 0).wr SN_STATUS.VALID 1 else b

/-- SNAPSHOT_ARM (R648). -/
def Block.doSnapshotArm (b : Block) : Block :=
  if b.on SN_STATUS.COPY_BUSY then b.wr SN_STATUS.CFG_ERR 1 else b.wr SN_CTRL.ARMED 1

/-! ### Test access -/

/-- TAP_ENABLE (R660): a PLDM request in an SPDM session; never while LOCKED is 1. The module goes to a module reset of
cause LICHEN and stays in it. -/
def Block.doTapEnable (b : Block) (sid : BitVec 16) : Block :=
  b.mgmt (fun b =>
    if b.inSession sid && !b.on SV_STATUS.LOCKED then ((b.wr SN_TAP.EN 1).moduleReset 7 false).reply 7 57 [0]
    else b.reply 7 57 [1])

/-- TAP_DISABLE (R660, R663): the module goes through bring-up from stage 3. -/
def Block.doTapDisable (b : Block) : Block :=
  if !b.on SN_TAP.EN then b
  else
    let b := (b.wr SN_TAP.EN 0).onMrst (fun r => { r with ended := [] })
    if b.pw.good && b.mrst.on then b.wr SN_BRINGUP.STAGE 3 else b

/-- Select an instruction of the test port; while EN is 0 those of R660 select the bypass register. -/
def Block.tapIr (b : Block) (ir : Nat) : Block :=
  { b with tap := { b.tap with ir := if ir ≥ 3 ∧ !b.on SN_TAP.EN then 0 else ir } }

/-- The port lies in the standby domain (R659). -/
def Block.tapOn (b : Block) (f : Block → Block) : Block := if b.pw.input then f b else b

/-- BYPASS (R659). -/
def Block.doBypass (b : Block) : Block := b.tapOn (fun b => b.tapIr 0)

/-- IDCODE (R659): version, part number 0x7612, manufacturer's code, 1. -/
def Block.doIdcode (b : Block) : Block :=
  b.tapOn (fun b => (b.tapIr 1).reply 11 1
    [0, Config.tapVersion.toNat * 2 ^ 28 + 0x7612 * 2 ^ 12 + Config.tapMfr.toNat * 2 + 1])

/-- The levels of the boundary-scan cells (R659): 0 PWR_EN, 1 PWR_GOOD, 2 ALERT_N, 3 THERM_TRIP_N, 4 RESET_IN_N, 5 to 10
SLOT_ID, 11 SNAP_IN_N, 12 SNAP_OUT_N, 13 and 14 the 1PPS input and output, 15 and 16 the I3C signals. `pins` gives the
levels that no state holds. -/
def Block.scanCells (b : Block) (pins : Nat) : Nat :=
  let v := setBits (setBits pins 0 1 b.pw.pwrEn.toNat) 1 1 b.pw.good.toNat
  let v := setBits (setBits v 2 1 (!b.alert).toNat) 3 1 (!b.pw.trip).toNat
  setBits v 5 6 Config.slotId.toNat

/-- SAMPLE_PRELOAD (R659): the cells are sampled, and the register takes a value. -/
def Block.doSamplePreload (b : Block) (pins load : BitVec 17) : Block :=
  b.tapOn (fun b =>
    let v := b.scanCells pins.toNat
    let b := b.tapIr 2
    { b with tap := { b.tap with bsr := load.toNat } }.reply 11 2 [0, v])

/-- EXTEST (R659, R660): the connector outputs show the boundary-scan register. -/
def Block.doExtest (b : Block) : Block :=
  b.tapOn (fun b =>
    let b := b.tapIr 3
    if b.tap.ir = 3 then
      b.each [(pinGood, 1), (pinAlert, 2), (pinTherm, 3), (pinSnapOut, 12), (pinPps, 14)]
        (fun b x => b.emit (.pin x.1 (bit b.tap.bsr x.2)))
    else b)

/-- INSTR_NET (R659, R660). -/
def Block.doInstrNet (b : Block) : Block := b.tapOn (fun b => b.tapIr 4)

end Sys2Proof.Machine
end

