-- ==== Sys2Proof/Machine/Tick.lean ====
section
/-! DEFINITION. Machine/Tick.lean: the tick boundary (R13 to R17, R30 to R39), alignment (R46 to R50), retirement of a
site (R61 to R64) and what every other chapter does at a boundary. -/

namespace Sys2Proof.Machine
open Reg

/-- Update what the tick holds. -/
def Block.onTick (b : Block) (f : TickSt → TickSt) : Block := { b with tick := f b.tick }

/-! ### Alignment -/

/-- The boundary offset `d` as TK_STATUS.OFFSET_NS holds it: signed, saturating (R24). -/
def offsetWord (d : Int) : Nat := ofInt 32 (max (-(2 ^ 31 - 1)) (min (2 ^ 31 - 1) d))

/-- DM_PTP_CTRL.REF_LOST (R510): the servo is unlocked, or no Sync message arrives. -/
def Block.refLost (b : Block) : Bool := !b.on DM_PTP_CTRL.SERVO_LOCKED || !b.tick.reference

/-- Reference loss and its effect on the alignment state (R47, R510). -/
def Block.lose (b : Block) : Block :=
  let b := b.wr DM_PTP_CTRL.REF_LOST 1
  if b.rd TK_CTRL.SOURCE ≠ 0 then b
  else if b.tkState = tkLocked ∨ b.tkState = tkSlewing then (b.onTick (fun t => { t with holdover := 0 })).toState tkHoldover
  else if b.tkState = tkResync then b.toState tkFreeRun
  else b

/-- REFERENCE_LOST (R47, R510): no Sync message within three sync intervals. -/
def Block.doReferenceLost (b : Block) : Block := (b.onTick (fun t => { t with reference := false })).lose

/-- The reference is back, with an offset of `d` nanoseconds (R47). -/
def Block.regain (b : Block) (d : Nat) : Block :=
  let b := b.wr DM_PTP_CTRL.REF_LOST 0
  if b.rd TK_CTRL.SOURCE ≠ 0 then b
  else if b.tkState = tkHoldover then
    b.toState (if d ≤ b.rd TK_ALIGN.RESYNC_US * 1000 then tkSlewing else tkResync)
  else if b.tkState = tkFreeRun then b.toState tkResync
  else b

/-- A write of DM_PTP_CTRL has been made (R47, R510). The servo unlocked is the reference lost. The servo locked while Sync
messages arrive is the reference regained: FREE_RUN goes to RESYNC; HOLDOVER leaves at the next boundary, which measures
the offset. -/
def Block.servo (b : Block) (was : Bool) : Block :=
  if was && !b.on DM_PTP_CTRL.SERVO_LOCKED then b.lose
  else if b.on DM_PTP_CTRL.REF_LOST && !b.refLost && b.rd TK_CTRL.SOURCE == 0 && b.tkState == tkFreeRun then
    (b.wr DM_PTP_CTRL.REF_LOST 0).toState tkResync
  else b.wr DM_PTP_CTRL.REF_LOST b.refLost.toNat

/-- REFERENCE_REGAINED (R47, R510): Sync messages arrive; `d`: the size of the offset in nanoseconds. The reference is
regained once the servo is locked as well. -/
def Block.doReferenceRegained (b : Block) (d : W64) : Block :=
  let b := b.onTick (fun t => { t with reference := true })
  if b.refLost then b else b.regain d.toNat

/-- CLOCK_LOCKED (R47): in ACQUIRING the clock is locked with an offset of `d` nanoseconds; within LIMIT_NS the module
goes to LOCKED through a resync. -/
def Block.doClockLocked (b : Block) (d : W64) : Block :=
  if b.tkState = tkAcquiring ∧ !b.refLost ∧ d.toNat ≤ b.rd TK_ALIGN.LIMIT_NS then b.toState tkResync else b

/-- HOLDOVER_EXPIRE (R47): HOLDOVER_TICKS boundaries have passed without the reference. -/
def Block.doHoldoverExpire (b : Block) : Block :=
  if b.tkState = tkHoldover ∧ b.rd TK_ALIGN.HOLDOVER_TICKS ≤ b.tick.holdover then b.toState tkFreeRun else b

/-- Measure the offset at a boundary generated at `ns` and change state by it (R47). With SOURCE 1 the reference is the
module's own time base (R49). -/
def Block.align (b : Block) (ns : Nat) : Block :=
  let d := toInt 64 (ofInt 64 ((ns : Int) - (tickTime b.tick.epNs b.tick.epTick (b.rd TK_PERIOD.PERIOD_US) b.now : Nat)))
  if b.rd TK_CTRL.SOURCE ≠ 0 then b.wr TK_STATUS.OFFSET_NS (offsetWord d)
  else if b.refLost then
    if b.tkState = tkHoldover then (b.onTick (fun t => { t with holdover := t.holdover + 1 })).doHoldoverExpire else b
  else
    let b := b.wr TK_STATUS.OFFSET_NS (offsetWord d)
    if b.tkState = tkLocked ∨ b.tkState = tkSlewing then
      if d.natAbs > b.rd TK_ALIGN.RESYNC_US * 1000 then b.toState tkResync
      else if d.natAbs > b.rd TK_ALIGN.LIMIT_NS then b.toState tkSlewing
      else b.toState tkLocked
    else b.regain d.natAbs

/-- PERIOD_CHANGE_APPLY (R16, R64): at the first boundary for a tick at or after AT. R16 lists three writes; that
TK_PERIOD_AT then reads 0, no change pending, is the model's choice (DESIGN CHOICE, log 16). -/
def Block.periodApply (b : Block) : Block :=
  let at_ := b.rd TK_PERIOD_AT.AT_TICK
  if at_ = 0 ∨ b.now < at_ then b
  else
    let t := tickTime b.tick.epNs b.tick.epTick (b.rd TK_PERIOD.PERIOD_US) at_
    let b := ((b.wr TK_PERIOD.PERIOD_US (b.rd TK_PERIOD.NEXT_US)).wr TK_EPOCH_NS.EPOCH_NS t).wr TK_EPOCH_TICK.EPOCH_TICK at_
    (b.wr TK_PERIOD_AT.AT_TICK 0).loadEpoch

/-! ### Steps at the boundary -/

/-- What stands against a spill at a site: nothing, a retirement (the step is aborted and planned again, R39), or a reset
or sleep (it is aborted, R605). -/
inductive Bar where
  | none | retire | reset
  deriving DecidableEq, Repr

/-- A step that counts as overrun (R34, R37). -/
def Block.overrun (b : Block) (n : Nat) : Block :=
  if n = 0 then b
  else (b.inc TK_OVERRUN_CNT.OVERRUN_STEPS n).onFacts (fun (f : TickFacts) => { f with overrun := true })

/-- The seed of a step as the bank of its list holds it: the value, and the exception its read left (R256, R257). -/
def PlanBank.seedFor (k : PlanBank) (index : Nat) : Option (Nat × Nat) :=
  (k.seeds.find? (fun s => s.1 == index)).map (fun s => (s.2,
    if NSet.mem k.seedBad (2 * index) then 8 else if NSet.mem k.seedBad (2 * index + 1) then 7 else 0))

/-- The step spills (R37) with its seed. -/
def StepRun.spill (r : StepRun) (k : PlanBank) : StepRun := { r with spilled := true, seed := k.seedFor r.d.index }

/-- Does an overrun step of this kind spill (R36, R37)? -/
def Block.spills (b : Block) (r : StepRun) : Bool := r.d.soft && !r.d.pack && !r.spilled && b.on TK_CTRL.SOFT_SPILL_EN

/-- A step due to spill on a site that is retired (R39, R62): aborted, and planned again, whole and from its start, for the
same logical tile. -/
def Block.reissue (b : Block) (l : Nat) (r : StepRun) : Block :=
  match b.placedAt l r.tick r.d.index with
  | none => b
  | some x => b.again x 1 true

/-- The running step of site `p` at the boundary (R34 to R38). -/
def Block.runAtBoundary (b : Block) (p : Nat) (bar : Bar) : Block :=
  match (b.site p).run with
  | none => b
  | some r =>
    let b := b.overrun (!r.d.pack && !r.spilled).toNat
    if !b.spills r then b.abortStep p
    else
      match bar with
      | .none =>
        let k := b.bankOf p
        let b := b.inc TK_LATE_CNT.SPILLED_STEPS
        b.onSite p (fun s => { s with
          run := some (r.spill k)
          replay := s.replay.map (fun (x : Replay) => if x.outcome = 0 then { x with outcome := 4 } else x) })
      | .retire =>
        let b := ((b.countAbort true).replayCut p).stopStep p
        (b.dropRun p).reissue (b.tileOf p) r
      | .reset => b.abortStep p

/-- The steps of site `p` that have not started (R34, R36, R37): those that spill. One of a terminated context ends, neither
aborted nor overrun (R560). -/
def Block.todoAtBoundary (b : Block) (p : Nat) (bar : Bar) : Block :=
  let todo := (b.site p).todo
  let k := b.bankOf p
  let (keep, b) := todo.foldl (fun (acc : List StepRun × Block) r =>
    if acc.2.termTodo r then (acc.1, acc.2.endTodo p r) else
    let b := acc.2.overrun (!r.d.pack && !r.spilled).toNat
    if !b.spills r then (acc.1, b.abortTodo p r)
    else
      match bar with
      | .none => (acc.1 ++ [r.spill k], b.inc TK_LATE_CNT.SPILLED_STEPS)
      | .retire => (acc.1, (b.countAbort true).reissue (b.tileOf p) r)
      | .reset => (acc.1, b.abortTodo p r)) ([], b)
  b.onSite p (fun s => { s with todo := keep })

/-- Is a retirement due at this boundary (R61, R64)? -/
def Block.retireDue (b : Block) (r : Retire) : Bool := !r.copying && decide (r.at_ ≤ b.now)

/-- The spare a due retirement takes: the one it named, or, where that is no longer free, the lowest-numbered free one. -/
def Block.spareFor (b : Block) (r : Retire) : Option Nat :=
  match r.newSite with
  | none => none
  | some k => if b.rd TL_SITE.STATE 0 (r.region * 18 + k) = 1 then some k else b.freeSpare r.region

/-- What stands against a spill on the site of logical tile `l`. -/
def Block.barOf (b : Block) (l : Nat) : Bar :=
  if b.retires.any (fun r => r.l == l && b.retireDue r) then .retire
  else
    match b.rst with
    | some r =>
      let mine := if r.op = 0 then r.target == l else r.target == l / 16
      let wait := b.retires.any (fun x => x.region == l / 16 && (!b.retireDue x || (b.spareFor x).isSome))
      if mine && !r.begun && decide (r.op ≤ 2) && decide (r.at_ ≤ b.now) && !wait then .reset else .none
    | none => .none

/-- STEP_OVERRUN_ABORT and STEP_SPILL (R34 to R38) on every site with steps left. -/
def Block.overruns (b : Block) : Block :=
  let ps := (b.sites.filter (fun s => s.2.run.isSome || !s.2.todo.isEmpty || decide (s.2.overAdd > 0))).map (·.1)
  let b := b.each ps (fun b p =>
    let n := (b.site p).overAdd
    let bar := b.barOf (b.tileOf p)
    (((b.overrun n).onSite p (fun s => { s with overAdd := 0 })).runAtBoundary p bar).todoAtBoundary p bar)
  b.whenB b.tick.facts.overrun (fun b => b.inc TK_OVERRUN_CNT.OVERRUN_TICKS)

/-- Placed steps of logical tile `l` in a list that never came to run (R31): of tick `n`, or of an older one that a resync
jumped over, and neither running nor spilled. -/
def Block.stray (b : Block) (l n : Nat) : List Placed :=
  let s := b.site (b.siteOf l)
  let live := s.run.toList ++ s.todo
  b.bk.placed.filter (fun x => x.l == l && decide (x.tick ≤ n)
    && !live.any (fun r => r.tick == x.tick && r.d.index == x.index))

/-! ### Retirement -/

/-- The bytes of a site's local store move to another site with their codes (R62). -/
def Mem.copyStore (m : Mem) (p q : Nat) : Mem :=
  let m := m.undef (16 + q) (SMap.get 0 m.seeds (16 + p))
  let m := (m.cells.filter (fun c => domainOf c.1 == 16 + p)).foldl (fun m c => m.storeB (lsKey q (c.1 % 2 ^ 22)) c.2) m
  { m with dev := (m.dev.filter (fun c => domainOf (16 * c.1) == 16 + p)).foldl (fun d c =>
      SMap.set 0 d (lsKey q (16 * c.1 % 2 ^ 22) / 16) c.2) m.dev }

/-- The local store of site `p` is copied to site `q`. -/
def Block.copyMem (b : Block) (p q : Nat) : Block := { b with mem := b.mem.copyStore p q }

/-- Does a site's local store hold a poisoned word? -/
def Mem.storePoison (m : Mem) (p : Nat) : Bool :=
  m.dev.any (fun c => domainOf (16 * c.1) == 16 + p && c.2 == 0xFFFF)

/-- The fields of a per-tile window that a retirement takes along (R62, R535): class M, the semaphore counts, the program
pages and the bank. -/
def Field.moves (f : Field) : Bool :=
  f.blk.perTile && (f.cls == .m || f.id == TL_SEM.COUNT.id || f.id == TL_IMEM_PAGE.PROG_ID.id || f.id == TL_IMEM_PAGE.VALID.id
    || f.id == TL_IMEM_PAGE.LOADING.id || f.id == TL_STATUS.BANK.id)

/-- Copy what moves from site `p` to site `q`. R62 copies the seeds of the list with its bank and R266 has the new site read
them afresh: both happen here, and a seed read afresh replaces the copied one as it returns (DESIGN CHOICE, log 58). -/
def Block.copySite (b : Block) (p q : Nat) : Block :=
  let n := (b.samples.filter (fun (s : Sample) => s.spare == q)).length
  let b := b.inc FLT_SAMPLE_CNT.SKIPPED n
  let b := b.clearSite q
  let o := b.site p
  let b := b.onSite q (fun s => { s with
    imem := o.imem, bank0 := o.bank0, bank1 := o.bank1, packLast := o.packLast, packRerun := o.packRerun, copying := true })
  let b := b.each (allFields.filter Field.moves) (fun b f =>
    b.each (List.range f.count) (fun b j => b.wr f (b.rd f p j) q j))
  let b := b.whenB (b.mem.storePoison p) (fun b => b.wr TL_MAP_STATUS.COPY_POISON 1)
  let b := b.copyMem p q
  b.onBk (fun k => { k with seedReads := k.seedReads.map (fun (s : SeedRead) => if s.site == p then { s with site := q } else s) })

/-- The old site is clock-gated (R62, step 6): its TLB is gone, and an invalidation that has not reached it removes
nothing there; what it had issued still drains. -/
def Block.gateSite (b : Block) (r : Retire) : Block :=
  let p := r.oldSite
  let b := (b.wr TL_STATUS.RUN 3 p).onSite p (fun s => { s with tlb := [], draining := false })
  { b with
    mcasts := b.mcasts.filter (fun m => m.l != r.l)
    inval := b.inval.map (fun (i : Inval) => { i with
      toArrive := i.toArrive.filter (· != p)
      toReport := if NSet.mem i.toArrive p then i.toReport.filter (· != p) else i.toReport }) }

/-- The old site becomes RETIRED and leaves service (R60, R62). -/
def Block.oldSite (b : Block) (r : Retire) : Block :=
  ((b.wr TL_SITE.STATE 2 0 r.oldSite).wr TL_SITE.CAUSE r.cause 0 r.oldSite).gateSite r

/-- A retirement has ended: the region's PENDING bit clears. -/
def Block.retireEnd (b : Block) (r : Retire) : Block :=
  { b with retires := b.retires.filter (fun x => x.region != r.region) }.wr TL_MAP_STATUS.PENDING
    (setBits (b.rd TL_MAP_STATUS.PENDING) r.region 1 0)

/-- The record of a retirement (R558, R567). -/
def Block.retireRec (b : Block) (r : Retire) (cause : Nat) : Block :=
  let b := b.report { cls := 12, cause := cause, level := 0, unit := r.l, site := r.oldSite }
  b.whenB r.hardware (fun b => b.maintUnplanned r.l)

/-- RETIREMENT_BOUNDARY and DEGRADATION (R62, R63): the map changes, and the copy to the new site starts, or the logical
tile is degraded and the steps of its list are lost. -/
def Block.retireApply (b : Block) (r : Retire) : Block :=
  let r := { r with oldSite := b.siteOf r.l }
  match b.spareFor r with
  | some k =>
    let q := r.region * 18 + k
    let b := (b.copySite r.oldSite q).oldSite r
    let b := ((b.wr TL_LMAP.SITE k 0 r.l).wr TL_SITE.STATE 0 0 q).wr TL_SITE.LTILE r.l 0 q
    let b := { b with retires := b.retires.map (fun (x : Retire) => if x.region == r.region
      then { x with copying := true, newSite := some k, oldSite := r.oldSite } else x) }
    b.retireRec r 1
  | none =>
    let b := b.each (b.stray r.l b.now) Block.missingStep
    let b := ((b.wr TL_LMAP.VALID 0 0 r.l).clearPages r.l).gateSite r
    (b.retireEnd r).retireRec r 2

/-- TL_RETIRE_GO (R61). -/
def Block.doTlRetireGo (b : Block) (ltile : BitVec 9) (site : BitVec 5) (cause : BitVec 4) : Block :=
  let b := ((b.wr TL_RETIRE.LTILE ltile.toNat).wr TL_RETIRE.SITE site.toNat).wr TL_RETIRE.CAUSE cause.toNat
  (b.retireReq ltile.toNat site.toNat cause.toNat (b.rd TL_RETIRE_AT.AT_TICK) false).2

/-- RETIREMENT_COPY_END (R62): held requests are delivered, and the new site starts its list. A reset request that waited
for the retirement takes effect at a later boundary, or at once where none comes (R604). -/
def Block.doRetirementCopyEnd (b : Block) (region : Fin 32) : Block :=
  match b.retires.find? (fun r => r.region == region.val && r.copying) with
  | none => b
  | some r =>
    let q := b.siteOf r.l
    let b := ((b.retireEnd r).onSite q (fun s => { s with copying := false })).deliver
    let b := if (b.site q).run.isNone then b.nextStep q else b
    if b.on TK_CTRL.ENABLE then b else b.rstDue

/-! ### The new tick -/

/-- Flip the banks of logical tile `l` (R30, R31): whether its list is late. A step of the new list keeps the rounding mode
that FORCE_RNE gives here (R253); a seed that is missing is read now, and every seed of a list whose tile has just been
retired is read afresh (R266), beside those R62 copied (log 58). -/
def Block.flip (b : Block) (l : Nat) : Bool × Block :=
  let p := b.siteOf l
  let n := b.now
  let b := b.wr TL_STATUS.BANK (1 - b.rd TL_STATUS.BANK p) p
  let k := b.bankOf p
  let rne := b.on FR_FMT_CTRL.FORCE_RNE p
  if k.complete && k.tick == n then
    let new := k.steps.map (fun d => ({ d := d, tick := n, spilled := false, seed := none, rne := rne } : StepRun))
    let b := b.onSite p (fun s => { s with todo := s.todo ++ new })
    let b := b.each (b.stray l n) Block.missingStep
    let unread := if rne then [] else k.steps.filter (fun d => ((k.seedFor d.index).isNone || (b.site p).copying)
      && !b.bk.seedReads.any (fun s => s.site == p && s.tick == n && s.index == d.index))
    let base := b.rd FR_FMT_CTRL.SEED_BASE p * 2 ^ 15
    (false, b.onBk (fun x => { x with seedReads := x.seedReads ++ unread.map (fun d =>
      ({ site := p, tick := n, index := d.index, ctx := d.ctx, off := base + 8 * d.ctx } : SeedRead)) }))
  else
    let off := NSet.mem b.bk.off n || (decide (b.bk.closedTick < n) && !b.on BK_CTRL.ENABLE)
    (!off, b.each (b.stray l n) Block.missingStep)

/-- BANK_FLIP and LATE_LIST (R30, R31): every tile that has a site; an idle one starts its first step. -/
def Block.flips (b : Block) : Block :=
  let ls := (List.range 512).filter b.served
  let (late, b) := ls.foldl (fun (acc : List Nat × Block) l =>
    let (x, b) := acc.2.flip l
    (if x then acc.1 ++ [l] else acc.1, b)) ([], b)
  let b := match late with
    | [] => b
    | l :: _ =>
      let b := (b.wr TK_STATUS.PLAN_LATE 1).onFacts (fun (f : TickFacts) => { f with late := true })
      b.report { cls := 14, cause := 1, level := 4, aux0 := late.length, aux1 := l }
  let b := b.onBk (fun k => { k with off := k.off.filter (fun t => decide (b.now < t)) })
  b.each ls (fun b l =>
    let s := b.site (b.siteOf l)
    if s.run.isNone && !s.draining && !s.copying then b.nextStep (b.siteOf l) else b)

/-- TRANSIENT_WINDOW_CLEAR (R553). -/
def Block.doTransientWindowClear (b : Block) : Block :=
  if b.now % max 1 (b.rd FLT_RES_CTRL.WINDOW_TICKS) = 0 then
    b.clearRegs (fun f _ _ => f.id == TL_RPL.TRANSIENTS.id || f.id == TL_RPL.CHECKER.id)
  else b

/-- TICK_SNAPSHOT_TRIGGER (R649, R651, R663): sources 3 and 4. -/
def Block.tickSnaps (b : Block) : Block :=
  let a := b.rd SN_AT.AT_TICK
  let b := if a ≠ 0 ∧ a ≤ b.now then (b.snapTrigger 3 b.now).wr SN_AT.AT_TICK 0 else b
  if b.on SN_GRP_CMD.PEND ∧ b.rd SN_GRP_AT.AT_TICK ≤ b.now then
    (b.snapTrigger 4 (b.rd SN_GRP_CMD.TAG)).wr SN_GRP_CMD.PEND 0
  else b

/-- Every block acts on the new tick. `ended`: the tick that this boundary ends, where it classifies one (R664). What the
boundary aborts, by overrun or by a reset request, counts against the tick it ends (R37, R51). -/
def Block.boundary (b : Block) (prev : Nat) (ended : Option Nat) : Block :=
  let b := b.tickSnaps.overruns.rstDue
  let b := match ended with
    | some m => b.classify m
    | none => b
  let b := b.onTick (fun t => { t with facts :=
    { TickFacts.none with begun := true, inSvc := b.on GRP_SVC.IN_SERVICE, unaligned := tkUnaligned b.tkState } })
  let b := b.doTransientWindowClear
  let b := b.each (b.retires.filter b.retireDue) Block.retireApply
  let b := b.flips
  let b := b.onBk (fun k => { k with watches := k.watches.map (fun (w : Watch) => { w with ticks := w.ticks.map (· + 1) }) })
  let b := (b.heartbeats.omapApply.switchDiscard prev).digestPass
  (b.softReset.applyBase).fwBoundary

/-- Boundary generation stops where ENABLE was cleared (R47): the tick that begins is cut (R664), and requests that wait
for a boundary take effect. -/
def Block.stopTick (b : Block) : Block :=
  let b := (b.toState tkStopped).onTick (fun t => { t with stopping := false, facts := TickFacts.none })
  b.rstDue.softReset

/-- A boundary that the module generates at `ns` for tick `n`. The digest latched there holds the writes applied before it,
a period change of this boundary not among them (R532). -/
def Block.begin (b : Block) (n ns : Nat) : Block :=
  (((b.wr TK_COUNT.COUNT n).digestLatch.periodApply).wr TK_LAST_BOUNDARY.BOUNDARY_NS ns).onTick (fun t => { t with stepped := false })

/-- Where a boundary for which the clock gives `ns` falls (R48): in SLEWING at most SLEW_NS from one period behind the last
one, towards T(n) of the reference and not beyond it, so that no tick is shorter than the period less SLEW_NS. -/
def Block.slewed (b : Block) (ns : Nat) : Nat :=
  if b.tkState ≠ tkSlewing ∨ b.rd TK_CTRL.SOURCE ≠ 0 ∨ b.tick.stepped then ns
  else
    let s := b.rd TK_ALIGN.SLEW_NS
    let due := b.rd TK_LAST_BOUNDARY.BOUNDARY_NS + b.rd TK_PERIOD.PERIOD_US * 1000
    let t := tickTime b.tick.epNs b.tick.epTick (b.rd TK_PERIOD.PERIOD_US) (b.now + 1)
    if due ≤ t then max due (min ns (min t (due + s))) else max (max t (due - s)) (min ns due)

/-- TICK_BOUNDARY (R14 to R17, R30 to R39, R47, R51, R62, R572): the boundary of the next tick, generated at `ns` of TAI.
Boundaries are generated in LOCKED, SLEWING, HOLDOVER and FREE_RUN, none after a module-fatal fault. -/
def Block.doTickBoundary (b : Block) (ns : W64) : Block :=
  let st := b.tkState
  if b.tick.fatal || st == tkStopped || st == tkAcquiring || st == tkResync then b
  else
    let prev := b.now
    let at_ := b.slewed ns.toNat
    let b := (b.begin (prev + 1) at_).align at_
    let b := b.boundary prev (some prev)
    if b.tick.stopping then b.stopTick else b

/-- RESYNC_BOUNDARY (R47, R49): in RESYNC the first reference boundary `m` after TK_COUNT, at `ns` of TAI. The state is
LOCKED (or FREE_RUN with SOURCE 1) as the boundary comes, so it does not mark tick `m` unaligned: R51 counts both
boundaries of a tick and does not say which state the one that leaves RESYNC has (DESIGN CHOICE, log 16). -/
def Block.doResyncBoundary (b : Block) (m ns : W64) : Block :=
  if b.tick.fatal || b.tkState != tkResync || decide (m.toNat ≤ b.now) then b
  else
    let prev := b.now
    let b := b.begin m.toNat ns.toNat
    let b := b.whenB (decide (m.toNat > prev + 1)) (fun b => b.wr TK_STATUS.RESYNCED 1)
    let b := b.report { cls := 18, cause := 2, level := 4 }
    let b := b.wr TK_STATUS.STATE (if b.rd TK_CTRL.SOURCE = 0 then tkLocked else tkFreeRun)
    let d := toInt 64 (ofInt 64 ((ns.toNat : Int) - (tickTime b.tick.epNs b.tick.epTick (b.rd TK_PERIOD.PERIOD_US) b.now : Nat)))
    let b := (b.wr TK_STATUS.OFFSET_NS (offsetWord d)).boundary prev none
    if b.tick.stopping then b.stopTick else b

/-- TICK_ENABLE (R21, R47). With SOURCE 1 the first boundary follows at once. -/
def Block.doTickEnable (b : Block) : Block :=
  if b.tick.fatal then b
  else
    let b := (b.wr TK_CTRL.ENABLE 1).onTick (fun t => { t with stopping := false })
    if b.tkState = tkStopped then
      let b := b.loadEpoch.onTick (fun t => { t with holdover := 0, facts := TickFacts.none })
      let b := b.wr DM_PTP_CTRL.REF_LOST b.refLost.toNat
      b.toState (if b.rd TK_CTRL.SOURCE = 0 then tkAcquiring else tkFreeRun)
    else b

/-- TICK_DISABLE (R47): at the next boundary, or at once from ACQUIRING and RESYNC. -/
def Block.doTickDisable (b : Block) : Block :=
  let b := b.wr TK_CTRL.ENABLE 0
  if b.tkState = tkStopped then b
  else if b.tkState = tkAcquiring ∨ b.tkState = tkResync then b.stopTick
  else b.onTick (fun t => { t with stopping := true })

/-- EPOCH_LOAD (R21, R22, R47). -/
def Block.doEpochLoad (b : Block) : Block := b.epochLoad

/-- TK_PERIOD_AT_WRITE (R17, R528). -/
def Block.doTkPeriodAtWrite (b : Block) (v : W64) : Block := (b.writePeriodAt v.toNat).2

/-- ABORT_DRAIN_END (R38): what an abort, an exception or a stop left on a tile has drained; the next step starts. -/
def Block.doAbortDrainEnd (b : Block) (l : LTile) : Block :=
  let p := b.siteOf l
  let s := b.site p
  if b.served l && s.draining && s.run.isNone && !s.copying then (b.drainOver p).nextStep p else b

end Sys2Proof.Machine
end

