-- ==== Sys2Proof/Machine/Registers.lean ====
section
/-! DEFINITION. Machine/Registers.lean: writes and reads of registers by software and by Lichen (R6 to R12, R82): access
codes, stated ranges, fields that take writes only in some state, presets, and the action of every register whose write
starts one. -/

namespace Sys2Proof.Machine
open Reg

/-! ### Ranges -/

/-- The value that the word `v` carries for a field. -/
def Field.of (f : Field) (v : Nat) : Nat := bits v f.lo f.width

/-- Fields whose table states a lowest and a highest value. -/
def numRanges : List (Field × Nat × Nat) :=
  [(TK_CTRL.SOURCE, 0, 1), (TK_CTRL.PLAN_LEAD_US, 5, 200), (TK_ALIGN.SLEW_NS, 1, 255),
   (TL_CTRL.LOCAL_POLL_NS, 20, 10000), (TL_CTRL.REMOTE_POLL_NS, 500, 65535),
   (MS_REPL.MAX_GIB, 1, 64), (MS_UPD_CTRL.CLOSE_US, 5, 200),
   (MEM_CTRL.SCRUB_PERIOD_H, 1, 168), (MEM_CTRL.MIGRATE_SHARE, 10, 50), (RC_PRELOAD_CNT.COUNT, 1, 65536),
   (BK_CTRL.HEADROOM_PCT, 0, 25), (BK_CTRL.REMOTE_POLL_US, 1, 255), (BK_DL.LOG2_SIZE, 0, 10), (BK_HAND.LOG2_SIZE, 0, 10),
   (BK_WORK.LOG2_SIZE, 0, 10), (BK_SLOT.QUOTA_PCT, 0, 100)]
  ++ [(DM_PCTRL.MODE, 0, 5), (DM_PCTRL.FEC_DEG_PPM, 1, 65535), (DM_MSEC_SEL.OP, 0, 2),
   (DM_CTRL.RETRY_MAX, 1, 7), (DM_CTRL.DUP_THRESH, 1, 7), (DM_CTRL.WINDOW, 16, 1024), (DM_CTRL.IDLE_MS, 1, 255),
   (DM_TIMER.LAT_RTO_US, 5, 4000), (DM_TIMER.BULK_RTO_US, 5, 4000), (DM_TIMER.ACK_DELAY_NS, 100, 10000),
   (DM_TIMER.CNP_GAP_US, 1, 255), (DM_CLASS.BULK_MIN_PCT, 0, 50), (DM_QPCMD.OP, 0, 1), (DM_PTP_RX.LOG2_SIZE, 0, 8),
   (DM_PTP_TX.LOG2_SIZE, 0, 8)]
  ++ [(GRP_CTRL.HB_TICKS, 1, 255), (GRP_CTRL.DIGEST_TICKS, 100, 65535), (GRP_CTRL.MAINT_MAX, 1, 64),
   (GRP_MTAB.COUNT, 0, 256), (GRP_WTAB.LOG2_SIZE, 0, 16), (GRP_RPT.LOG2_SIZE, 0, 10), (GRP_MAINT.KIND, 0, 1),
   (FLT_CTRL.IRQ_COAL_US, 1, 255), (FLT_RES_CTRL.TRANSIENT_LIMIT, 1, 255), (FLT_RES_CTRL.CHECKER_LIMIT, 1, 255),
   (FLT_RES_CTRL.WINDOW_TICKS, 1000, 4000000000), (FLT_SAMPLE.REFEREE_TICKS, 1, 255),
   (FLT_TP_CTRL.INTERVAL_TICKS, 1, 4000000000)]
  ++ [(PW_CTRL.UV_WARN_DV, 440, 500), (PW_CTRL.DWELL_US, 5, 255), (PW_CTRL.RECOVER_US, 50, 10000),
   (PW_CTRL.TJ_WARN_C, 85, 105), (PW_CAP.LIMIT_W, 1000, 4095), (PW_CAP.WIN_US, 100, 10000), (PW_CLK.REQ_MHZ, 500, 4095),
   (PW_RST_CMD.OP, 0, 4), (SN_RD_SEL.SITE, 0, 575)]

/-- Signed fields whose table states a range. -/
def intRanges : List (Field × Int × Int) :=
  [(DM_PTP_CTRL.LOG_SYNC_INT, -7, 4), (DM_PTP_ADJ.FREQ_PPB, -100000, 100000)]

/-- Base fields of the blocks that reject a write outside a stated range, with the lowest bit of the offset they hold: the
offset lies in HBM (R472, R517, R543, R576). -/
def hbmBases : List (Field × Nat) :=
  [(BK_QTAB.BASE, 16), (BK_PROG.BASE, 17), (BK_DB.BASE, 16), (BK_BARG_PA.BASE, 22), (BK_DL.BASE, 12), (BK_HAND.BASE, 12),
   (BK_WORK.BASE, 12), (DM_NTAB.BASE, 15), (DM_QPT.BASE, 16), (DM_PTP_RX.BASE, 12), (DM_PTP_TX.BASE, 12),
   (GRP_MTAB.BASE, 12), (GRP_WTAB.BASE, 12), (GRP_RPT.BASE, 12), (FLT_RING.BASE, 18), (FLT_TP_BASE.BASE, 6)]

/-- Does a value lie in a field's stated range? -/
def Field.inRange (f : Field) (x : Nat) : Bool :=
  numRanges.all (fun r => r.1.id != f.id || (decide (r.2.1 ≤ x) && decide (x ≤ r.2.2)))
    && intRanges.all (fun r => r.1.id != f.id || (decide (r.2.1 ≤ toInt f.width x) && decide (toInt f.width x ≤ r.2.2)))
    && hbmBases.all (fun r => r.1.id != f.id || decide (x * 2 ^ r.2 < 12 * 2 ^ 36))

/-- Does the word `v` keep to every range of a register? -/
def RegAt.inRange (r : RegAt) (v : Nat) : Bool := r.fields.all (fun x => x.1.inRange (x.1.of v))

/-! ### Rejection and plain writes -/

/-- The bit that reports a rejected write to a register, where its block has one. -/
def RegAt.errField (r : RegAt) : Option Field :=
  match r.blk with
  | .tk => some TK_STATUS.CFG_ERR
  | .tlMap => some TL_MAP_STATUS.CFG_ERR
  | .tw => some TW_STATUS.CFG_ERR
  | .ms => if r.off = 0 then some MS_STATUS.CFG_ERR else if r.off = 0x48 then some MS_UPD_STATUS.CFG_ERR else none
  | .mem => some MEM_STATUS.CFG_ERR
  | .bk => some BK_STATUS.CFG_ERR
  | .dmp => some DM_PSTATUS.CFG_ERR
  | .dm => some DM_STATUS.CFG_ERR
  | .grp => some GRP_STATUS.CFG_ERR
  | .flt => some FLT_STATUS.CFG_ERR
  | .pw => some (if r.off = 0x40 then PW_RST_STATUS.CFG_ERR else PW_STATUS.CFG_ERR)
  | .sn => some SN_STATUS.CFG_ERR
  | _ => none

/-- A rejected write: nothing of it is kept, and the block's bit reports it. -/
def Block.rejectReg (b : Block) (r : RegAt) : Block :=
  match r.errField with
  | some f => b.cfgErr f r.inst
  | none => b

/-- Hold a software write of a class L field until Lichen commits it (R598). -/
def Block.holdField (b : Block) (f : Field) (i j : Nat) : Block :=
  if f.cls = .l then b.onLc (fun l => { l with held := NSet.add l.held (f.key i j) }) else b

/-- Write one field by its access code (R7); a changed class L field is held. -/
def Block.writeOne (b : Block) (r : RegAt) (f : Field) (j v : Nat) : Block :=
  let i := f.home r.inst
  let n := b.writeField f i j (f.of v)
  if n.rd f i j = b.rd f i j then n else n.holdField f i j

/-- Write every field of a register by its access code (R7, R9). -/
def Block.writePlain (b : Block) (r : RegAt) (v : Nat) : Block :=
  b.each r.fields (fun b x => b.writeOne r x.1 x.2 v)

/-- Does the word `v` carry the values that these fields hold? -/
def Block.carries (b : Block) (r : RegAt) (v : Nat) (fs : List Field) : Bool :=
  fs.all (fun f => f.of v == b.rd f (f.home r.inst))

/-- Does a time fit `k` times into the period held and the next one? -/
def Block.fitsBoth (b : Block) (k x : Nat) : Bool :=
  decide (k * x ≤ b.rd TK_PERIOD.PERIOD_US) && decide (k * x ≤ b.rd TK_PERIOD.NEXT_US)

/-- Fields of a register that take no write now: the write is ignored as a whole, and reported where the spec says so. -/
def Block.writable (b : Block) (r : RegAt) (v : Nat) : Bool :=
  match r.blk with
  | .tk =>
    if r.off = 0x28 then b.fitsBoth 4 (TK_CTRL.PLAN_LEAD_US.of v)
    else if r.off = 0x38 then
      b.fitsBoth 2 (TK_BUDGET.REMOTE_ALLOW_US.of v) && b.fitsBoth 2 (TK_BUDGET.FABRIC_ALLOW_US.of v)
    else true
  | .ms => r.off != 0x48 || b.fitsBoth 4 (MS_UPD_CTRL.CLOSE_US.of v)
  | .dmp => r.off != 0 || !b.on DM_PCTRL.ENABLE r.inst || b.carries r v [DM_PCTRL.MODE, DM_PCTRL.HALF_DIS]
  | .dm =>
    !b.on DM_CTRL.ENABLE ||
      (if r.off = 0 then
        b.carries r v [DM_CTRL.PPP_LOG2, DM_CTRL.SPRAY, DM_CTRL.RETRY_MAX, DM_CTRL.DUP_THRESH, DM_CTRL.WINDOW, DM_CTRL.IDLE_MS]
       else r.off != 0x18 && r.off != 0x20)
  | .sn =>
    if r.off = 0 then !(SN_CTRL.ARMED.of v == 1 && b.on SN_STATUS.COPY_BUSY)
    else if r.off = 0x18 then SN_AT.AT_TICK.of v == 0 || decide (b.now + 1 ≤ SN_AT.AT_TICK.of v)
    else if r.off = 0x58 then SN_RD_SEL.OFFSET.of v % 8 == 0
    else true
  | _ => true

/-! ### Writes that start something -/

/-- TK_CTRL (R21, R22, R47). -/
def Block.writeTkCtrl (b : Block) (r : RegAt) (v : Nat) : Block :=
  let was := b.on TK_CTRL.ENABLE
  let now := TK_CTRL.ENABLE.of v == 1
  let b := (b.writePlain r v).wr TK_CTRL.ENABLE was.toNat
  let b := if now && !was then b.doTickEnable else if was && !now then b.doTickDisable else b
  if TK_CTRL.EPOCH_LOAD.of v = 1 then b.doEpochLoad else b

/-- PRESET_REGISTER_WRITE (R12, R331, R632): MS_CTRL of Moss engine `m`, the one register with PRESET and EXPERT_EN. The
queues show what they hold under the new QDEPTH (R328). -/
def Block.doPresetRegisterWrite (b : Block) (m : Fin 12) (preset : BitVec 4) (expert : Bool) (share : BitVec 7)
    (depth : BitVec 8) : Block :=
  let held := b.rd MS_CTRL.PRESET m
  let was := b.on MS_CTRL.EXPERT_EN m
  let sets := preset.toNat == held && was && expert
  if preset.toNat > 2 then b.cfgErr MS_STATUS.CFG_ERR m
  else if sets && !(decide (25 ≤ share.toNat) && decide (share.toNat ≤ 100) && decide (16 ≤ depth.toNat)
      && decide (depth.toNat ≤ 128)) then b.cfgErr MS_STATUS.CFG_ERR m
  else if preset.toNat ≠ held then
    let b := (((b.wr MS_CTRL.PRESET preset.toNat m).loadPresetOf m).holdField MS_CTRL.PRESET m 0).showMs m
    b.lcEvent 5 (regBase + blkBase .ms m + preset.toNat * 2 ^ 48) 0
  else if sets then ((b.wr MS_CTRL.BAG_SHARE share.toNat m).wr MS_CTRL.QDEPTH depth.toNat m).showMs m
  else if expert then b.wr MS_CTRL.EXPERT_EN 1 m
  else if was then (b.loadPresetOf m).showMs m
  else b

/-- The Moss engine blocks (R12, R329, R332, R361). -/
def Block.writeMs (b : Block) (r : RegAt) (v : Nat) : Block :=
  if r.off = 0 then
    if h : r.inst < 12 then
      b.doPresetRegisterWrite ⟨r.inst, h⟩ (BitVec.ofNat 4 (MS_CTRL.PRESET.of v)) (MS_CTRL.EXPERT_EN.of v == 1)
        (BitVec.ofNat 7 (MS_CTRL.BAG_SHARE.of v)) (BitVec.ofNat 8 (MS_CTRL.QDEPTH.of v))
    else b
  else
    let b := b.writePlain r v
    if r.off = 0x10 ∧ MS_TDIR.INVAL.of v = 1 then b.doMsTdirInval else b

/-- The memory controllers (R371, R395, R398): a write with GO writes its other fields only where its request is accepted. -/
def Block.writeMem (b : Block) (r : RegAt) (v : Nat) : Block :=
  if h : r.inst < 12 then
    if r.off = 0x18 ∧ MEM_MAPOUT.GO.of v = 1 then b.doMemMapoutGo ⟨r.inst, h⟩ (BitVec.ofNat 5 (MEM_MAPOUT.CHANNEL.of v))
    else if r.off = 0x40 ∧ MEM_PPR.GO.of v = 1 then
      b.doMemPprGo ⟨r.inst, h⟩ (BitVec.ofNat 5 (MEM_PPR.CHANNEL.of v)) (MEM_PPR.PC.of v == 1)
        (BitVec.ofNat 4 (MEM_PPR.BANK.of v)) (BitVec.ofNat 18 (MEM_PPR.ROW.of v))
    else b.writePlain r v
  else b.writePlain r v

/-- The region caches (R391, R392, R401). -/
def Block.writeRc (b : Block) (r : RegAt) (v : Nat) : Block :=
  if h : r.inst < 32 then
    if r.off = 0 then b.doLockMaskWrite ⟨r.inst, h⟩ (BitVec.ofNat 16 (RC_CTRL.LOCK_MASK.of v))
    else
      if r.off = 0x10 ∧ RC_PRELOAD.GO.of v = 1 then
        b.doRcPreloadGo ⟨r.inst, h⟩ (BitVec.ofNat 4 (RC_PRELOAD.WAY.of v)) (BitVec.ofNat 39 (RC_PRELOAD.ADDR.of v))
      else b.writePlain r v
  else b.writePlain r v

/-- Translation (R415, R421, R430, R433): SELF takes a write only while ENABLE is 0. -/
def Block.writeXl (b : Block) (r : RegAt) (v : Nat) : Block :=
  if r.off = 8 ∧ b.on XL_CTRL.ENABLE then b
  else
    let b := b.writePlain r v
    if r.off = 0x28 ∧ XL_INVAL.GO.of v = 1 then
      b.doXlInvalGo (BitVec.ofNat 2 (XL_INVAL.SCOPE.of v)) (BitVec.ofNat 12 (XL_INVAL.CTX.of v))
        (BitVec.ofNat 20 (XL_INVAL.PAGES.of v))
    else if r.off = 0x38 ∧ XL_WINVAL.GO.of v = 1 then
      b.doXlWinvalGo (BitVec.ofNat 13 (XL_WINVAL.INDEX.of v)) (XL_WINVAL.ALL.of v == 1)
    else if r.off = 0x48 ∧ XL_TAG_SET.GO.of v = 1 then
      b.doXlTagSetGo (BitVec.ofNat 25 (XL_TAG_SET.FIRST.of v)) (BitVec.ofNat 20 (XL_TAG_SET.COUNT.of v))
        (BitVec.ofNat 12 (XL_TAG_SET.TAG.of v))
    else b

/-- BK_QCMD with GO (R440). -/
def Block.queueOp (b : Block) (q : BitVec 10) (op : Nat) (skip : BitVec 32) : Block :=
  if op = 1 then b.doQueueEnable q skip
  else if op = 2 then b.doQueueDisable q
  else if op = 3 then b.doQueuePark q
  else if op = 4 then b.doQueueResume q skip
  else b.cfgErr BK_STATUS.CFG_ERR

/-- Bracken (R440, R451, R472, R665). -/
def Block.writeBk (b : Block) (r : RegAt) (v : Nat) : Block :=
  if r.off = 0 then
    let was := b.on BK_CTRL.ENABLE
    let now := BK_CTRL.ENABLE.of v == 1
    let b := (b.writePlain r v).wr BK_CTRL.ENABLE was.toNat
    if now && !was then b.doBrackenEnable else if was && !now then b.doBrackenDisable else b
  else if r.off = 0x48 then
    let b := b.writePlain r v
    if BK_QCMD.GO.of v = 1 then
      b.queueOp (BitVec.ofNat 10 (BK_QCMD.QUEUE.of v)) (BK_QCMD.OP.of v) (BitVec.ofNat 32 (BK_QCMD.SKIP.of v))
    else b
  else if h : 0x180 ≤ r.off ∧ r.off < 0x1C0 then
    b.doWorkDoorbell ⟨(r.off - 0x180) / 8, by omega⟩ (BitVec.ofNat 32 (BK_WORK_DB.PROD.of v))
  else b.writePlain r v

/-- Ports (R474, R475, R513, R515): the key, the salt and the SSCI are write-only and go into the staging registers; the SCI
is that of the selected sub-port. -/
def Block.writeDmp (b : Block) (r : RegAt) (v : Nat) : Block :=
  let b := b.writePlain r v
  if r.off = 0 then b.whenB (!b.on DM_PCTRL.ENABLE r.inst) (fun b => b.portOff r.inst)
  else if r.off = DM_MSEC_SCI.SCI.off then
    b.onPorts (fun p => { p with sci := SMap.set 0 p.sci (4 * r.inst + b.rd DM_MSEC_SEL.SUB r.inst) v })
  else if h : r.inst < 16 then
    if r.off = 0x40 ∧ DM_MSEC_SEL.GO.of v = 1 then
      let p : Fin 16 := ⟨r.inst, h⟩
      let k : Fin 4 := ⟨DM_MSEC_SEL.SUB.of v % 4, Nat.mod_lt _ (by decide)⟩
      let rx := DM_MSEC_SEL.DIR.of v == 1
      let an := BitVec.ofNat 2 (DM_MSEC_SEL.AN.of v)
      if DM_MSEC_SEL.OP.of v = 0 then b.doMsecInstall p k rx an
      else if DM_MSEC_SEL.OP.of v = 1 then b.doMsecDelete p k rx an
      else b.doMsecActivate p k rx an
    else b.each (r.fields.filter (fun x => x.1.acc == .wo && x.1.id != DM_MSEC_SEL.GO.id))
      (fun b x => b.wr x.1 (x.1.of v) r.inst x.2)
  else b

/-- As many times as transmit entries wait: when their frames leave is a free value. -/
def Block.freeTimes (b : Block) : Nat → List ClockTime × Block
  | 0 => ([], b)
  | n + 1 =>
    let (s, b) := b.draw 34
    let (ns, b) := b.draw 30
    let (ts, b) := b.freeTimes n
    (⟨BitVec.ofNat 34 s, BitVec.ofNat 30 ns⟩ :: ts, b)

/-- Damask, RoCEv2 and the clock (R482, R508 to R510, R517). -/
def Block.writeDm (b : Block) (r : RegAt) (v : Nat) : Block :=
  if r.off = 0x80 then b.doPtpTimeStep ⟨BitVec.ofNat 34 (DM_PTP_TIME.SEC.of v), BitVec.ofNat 30 (DM_PTP_TIME.NS.of v)⟩
  else
    let locked := b.on DM_PTP_CTRL.SERVO_LOCKED
    let prod := b.rd DM_PTP_IDX.TX_PROD
    let b := b.writePlain r v
    if r.off = 0x38 ∧ DM_QPCMD.GO.of v = 1 then
      if DM_QPCMD.OP.of v = 1 then b.doQpEnable (BitVec.ofNat 12 (DM_QPCMD.QP.of v))
      else b.doQpDisable (BitVec.ofNat 12 (DM_QPCMD.QP.of v))
    else if r.off = 0x70 then b.servo locked
    else if r.off = 0x98 ∧ DM_PTP_IDX.TX_PROD.of v ≠ prod then
      let (ts, b) := b.freeTimes ((DM_PTP_IDX.TX_PROD.of v + 2 ^ 16 - b.rd DM_PTP_IDX.TX_CONS) % 2 ^ 16)
      b.doPtpTransmit (BitVec.ofNat 16 (DM_PTP_IDX.TX_PROD.of v)) ts
    else b

/-- GRP_ROLE (R521): writes only while ENABLE is 0; on an enabled manager the deputy's fields. -/
def Block.writeRole (b : Block) (r : RegAt) (v : Nat) : Block :=
  if !b.on GRP_CTRL.ENABLE then b.writePlain r v
  else if b.carries r v [GRP_ROLE.ROLE, GRP_ROLE.GROUP_ID, GRP_ROLE.MANAGER_NODE, GRP_ROLE.TERM] then
    b.doDeputyWrite (BitVec.ofNat 10 (GRP_ROLE.DEPUTY_NODE.of v)) (GRP_ROLE.DEP_VALID.of v == 1)
  else b.rejectReg r

/-- The group block (R521, R530, R536, R541, R543). -/
def Block.writeGrp (b : Block) (r : RegAt) (v : Nat) : Block :=
  if r.off = 8 then b.writeRole r v
  else if r.off = 0x18 then ((b.writePlain r v).wr GRP_SVC.BY_MGR 0).wr GRP_SVC.CAUSE 0
  else if r.off = 0x20 then
    if GRP_SVC_CMD.GO.of v = 1 then b.doSvcCmdGo (BitVec.ofNat 10 (GRP_SVC_CMD.NODE.of v)) (GRP_SVC_CMD.IN.of v == 1)
    else b.writePlain r v
  else if r.off = 0x88 then if GRP_OMAP_CMD.SEND.of v = 1 then b.doOmapSend else b
  else if r.off = 0x90 then
    let b := if GRP_MAINT.GO.of v = 1 then
        b.doMaintGo (BitVec.ofNat 2 (GRP_MAINT.KIND.of v)) (BitVec.ofNat 12 (GRP_MAINT.ARG.of v))
      else b.writePlain r v
    if GRP_MAINT.DONE.of v = 1 then b.doMaintDoneCmd else b
  else b.writePlain r v

/-- The fault collector (R561, R569, R576). -/
def Block.writeFlt (b : Block) (r : RegAt) (v : Nat) : Block :=
  let b := b.writePlain r v
  if r.off = 8 ∧ FLT_STATUS.OVERFLOW.of v = 1 then b.doOverflowClear
  else if r.off = 0x60 ∧ FLT_CTX.CLEAR.of v = 1 then b.doContextClear (BitVec.ofNat 12 (FLT_CTX.CTX.of v))
  else if r.off = 0x68 ∧ FLT_SWREC.GO.of v = 1 then
    b.doSwrecGo (BitVec.ofNat 8 (FLT_SWREC.CAUSE.of v)) (BitVec.ofNat 3 (FLT_SWREC.LEVEL.of v))
      (BitVec.ofNat 31 (FLT_SWREC.AUX.of v))
  else b

/-- PW_CAP (R588): a limit above the part's is clamped; a limit in force stays until the window ends. -/
def Block.writeCap (b : Block) (r : RegAt) (v : Nat) : Block :=
  let was := b.on PW_CAP.EN
  let b := b.writePlain r v
  let b := if PW_CAP.LIMIT_W.of v > Config.maxWatts then (b.wr PW_CAP.LIMIT_W Config.maxWatts).wr PW_STATUS.CLAMPED 1 else b
  if !was ∧ b.on PW_CAP.EN then b.onPw (fun p => { p with limit := b.rd PW_CAP.LIMIT_W, capRuns := 0 }) else b

/-- Power and resets (R587, R588, R593, R604, R612). -/
def Block.writePw (b : Block) (r : RegAt) (v : Nat) : Block :=
  if r.off = 0x10 then b.writeCap r v
  else if r.off = 0x38 then
    (b.writeOne r PW_CLK.CLAMPED 0 v).doPwClkWrite (BitVec.ofNat 12 (PW_CLK.REQ_MHZ.of v))
  else if r.off = 0x40 ∧ PW_RST_CMD.GO.of v = 1 then
    b.rstCmd (PW_RST_CMD.OP.of v) (PW_RST_CMD.TARGET.of v) (PW_RST_CMD.FLUSH.of v == 1)
  else b.writePlain r v

/-- Lichen's registers (R627 to R629, R642). -/
def Block.writeLc (b : Block) (r : RegAt) (v : Nat) : Block :=
  let b := b.writePlain r v
  if r.off = 0x40 ∧ LC_FW_CTRL.GO.of v = 1 then
    if LC_FW_CTRL.OP.of v = 0 then b.doFwActivate (BitVec.ofNat 2 (LC_FW_CTRL.COMP.of v))
    else if LC_FW_CTRL.OP.of v = 1 then b.doFwRevert (BitVec.ofNat 2 (LC_FW_CTRL.COMP.of v))
    else b.cfgErr LC_FW_STATUS.CFG_ERR
  else if r.off = 0x58 then
    let b := if LC_FW_READY.BRACKEN.of v = 1 then b.doFwReadyBracken else b
    if LC_FW_READY.RT.of v = 1 then b.doFwReadyRt else b
  else b

/-- The security vault (R634, R636 to R638, R644): SV_POLICY takes writes from Lichen only. -/
def Block.writeSv (b : Block) (lichen : Bool) (r : RegAt) (v : Nat) : Block :=
  if r.off = 0 then if lichen && !b.lc.sess.isEmpty && b.policyOk v then b.setPolicy v else b
  else if r.off = 0x10 then b.clearLatch (SV_ALARM.LATCH.of v)
  else if r.off = 0x28 then
    let b := if SV_TEST.TRIGGER.of v = 1 then b.doSvTestTrigger else b
    if SV_TEST.REATTEST.of v = 1 then b.attestStart else b
  else b.writePlain r v

/-- Snapshot and test access (R648 to R652, R660, R662): SN_TAP takes writes from Lichen only. -/
def Block.writeSn (b : Block) (lichen : Bool) (r : RegAt) (v : Nat) : Block :=
  if r.off = 0x10 then if SN_TRIG.GO.of v = 1 then b.doSnTrigGo else b
  else if r.off = 0x28 ∧ SN_GRP_CMD.GO.of v = 1 then b.doSnGrpGo (BitVec.ofNat 16 (SN_GRP_CMD.TAG.of v))
  else if r.off = 0x68 then
    if !lichen then b.rejectReg r
    else if SN_TAP.EN.of v = 0 then b.doTapDisable
    else if b.on SV_STATUS.LOCKED || b.on SN_TAP.EN then b
    else (b.wr SN_TAP.EN 1).moduleReset 7 false
  else b.writePlain r v

/-- The tick and map blocks and the blocks of a per-tile window (R17, R20 to R22, R58, R61, R108, R212). TW_REPAIR takes
writes from Lichen only, which has them in its store. -/
def Block.writeTile (b : Block) (lichen : Bool) (r : RegAt) (v : Nat) : Block :=
  match r.blk with
  | .tk =>
    if r.off = 8 then (b.writePeriod (TK_PERIOD.PERIOD_US.of v) (TK_PERIOD.NEXT_US.of v)).2
    else if r.off = 0x10 then b.doTkPeriodAtWrite (BitVec.ofNat 64 v)
    else if r.off = 0x28 then b.writeTkCtrl r v
    else b.writePlain r v
  | .tlMap =>
    if r.off = 0x10 ∧ TL_RETIRE.GO.of v = 1 then
      b.doTlRetireGo (BitVec.ofNat 9 (TL_RETIRE.LTILE.of v)) (BitVec.ofNat 5 (TL_RETIRE.SITE.of v))
        (BitVec.ofNat 4 (TL_RETIRE.CAUSE.of v))
    else b.writePlain r v
  | .tl =>
    if 0x200 ≤ r.off ∧ r.off < 0x300 then
      if TL_SEM.SIGNAL.of v = 1 then
        b.doTlSemSignal ⟨b.tileOf r.inst % 512, Nat.mod_lt _ (by decide)⟩ (BitVec.ofNat 5 ((r.off - 0x200) / 8)) false
      else b
    else b.writePlain r v
  | .tw =>
    if r.off = 0x18 then
      if lichen then
        ((b.writePlain r v).commitField TW_REPAIR.REQ_EN r.inst).commitField TW_REPAIR.REQ_ROW r.inst
      else b.rejectReg r
    else b.writePlain r v
  | _ => b.writePlain r v

/-- A write of a register that exists. One that breaks a stated range, or that a field does not take now, is ignored as a
whole (R17, R331, R362, R472, R517, R543, R576, R593, R662). -/
def Block.writeReg (b : Block) (lichen : Bool) (r : RegAt) (v : Nat) : Block :=
  if !r.inRange v || !b.writable r v then b.rejectReg r
  else match r.blk with
  | .tk => b.writeTile lichen r v
  | .tlMap => b.writeTile lichen r v
  | .tl => b.writeTile lichen r v
  | .tw => b.writeTile lichen r v
  | .fr => b.writePlain r v
  | .rc => b.writeRc r v
  | .ms => b.writeMs r v
  | .mem => b.writeMem r v
  | .pkg => b.writePlain r v
  | .xl => b.writeXl r v
  | .bk => b.writeBk r v
  | .dmp => b.writeDmp r v
  | .dm => b.writeDm r v
  | .grp => b.writeGrp r v
  | .flt => if r.off = 0x48 ∧ !lichen then b.rejectReg r else b.writeFlt r v
  | .pw => b.writePw r v
  | .lc => b.writeLc r v
  | .sv => b.writeSv lichen r v
  | .sn => b.writeSn lichen r v

/-- A write of `n` bytes to the register space (R82). -/
def Block.regWrite (b : Block) (lichen : Bool) (ctx off n v : Nat) : Block :=
  if n ≠ 8 ∨ off % 8 ≠ 0 then b.unmapped ctx off 2
  else
    match b.regPlace off with
    | .none => b.unmapped ctx off 1
    | .snap _ _ => b
    | .reg r => if r.fields.isEmpty then b.unmapped ctx off 1 else b.writeReg lichen r (v % 2 ^ 64)

/-- Carry out the register writes that are due, in their order, and what held requests follow them (R62). -/
def Block.drainOnce (b : Block) : Block :=
  (({ b with regQ := [] }).each b.regQ (fun b x => b.regWrite false x.1 x.2.1 x.2.2.1 x.2.2.2)).deliver

/-- Carry out the register writes that are due, as often as held requests bring more. -/
def Block.drainN : Nat → Block → Block
  | 0, b => b
  | n + 1, b => if b.regQ.isEmpty then b else Block.drainN n b.drainOnce

/-- Carry out the register writes that the command's own accesses made (R82), and those of held requests it delivered. -/
def Block.drainRegs (b : Block) : Block := Block.drainN (b.heldQ.length + 1) b

/-! ### The commands -/

/-- REGISTER_WRITE (R6 to R12, R82): an 8-byte write at offset `off` of the register space by a master of context `ctx`, or
by Lichen. A request over the mesh to the window of a held tile waits (R62, R605); Lichen's is none. -/
def Block.doRegisterWrite (b : Block) (lichen : Bool) (ctx : BitVec 12) (off : BitVec 29) (v : W64) : Block :=
  let o := off.toNat * 8
  if lichen then b.regWrite true ctx.toNat o 8 v.toNat
  else b.orHold (regBase + o) (.reg ctx.toNat o 8 v.toNat) (fun b => b.regWrite false ctx.toNat o 8 v.toNat)

/-- RC_READ (R7, R8): an 8-byte read at offset `off` of the register space; the value goes to master `src`. One of the window
of a held tile waits (R62, R605). -/
def Block.doRcRead (b : Block) (src : Nat) (ctx : BitVec 12) (off : BitVec 29) : Block :=
  let o := off.toNat * 8
  b.orHold (regBase + o) (.request src ctx.toNat (regBase + o) (.read 8)) fun b =>
    let (v, b) := b.regRead ctx.toNat o 8
    b.emit (.data src (regBase + o) 0 (plain (leBytes 8 v)))

/-- Does an access of the register space break R82: narrow, unaligned, or to no register? -/
def Block.isUnmapped (b : Block) (off n : Nat) : Bool :=
  n != 8 || off % 8 != 0 ||
    (match b.regPlace off with
     | .none => true
     | .snap _ _ => false
     | .reg r => r.fields.isEmpty)

/-- UNMAPPED_REGISTER_ACCESS (R82): an unaligned, narrow or unmapped access of `n` bytes; a write is discarded, a read
gives 0 to master `src`. An access that reaches a register is none of these and has its effect under its own row. -/
def Block.doUnmappedRegisterAccess (b : Block) (src : Nat) (ctx : BitVec 12) (off : BitVec 32) (n : Fin 129)
    (write : Bool) : Block :=
  if !b.isUnmapped off.toNat n then b
  else if write then b.regWrite false ctx.toNat off.toNat n 0
  else
    let (v, b) := b.regRead ctx.toNat off.toNat n
    b.emit (.data src (regBase + off.toNat) 0 (plain (leBytes n v)))

end Sys2Proof.Machine
end

