-- ==== Sys2Proof/Machine/State.lean ====
section
/-! DEFINITION. Machine/State.lean: the state (the module and the commands that wait for it), the reasons to stop, and the
state after reset. -/

namespace Sys2Proof.Machine

/-- The state: what the module holds, and the commands that wait, first in, first out. -/
structure State where
  pending : List Instr
  m : Block
  deriving DecidableEq, Repr

/-- Reasons for a fault: none. The spec lets no command stop the module in a way that leaves no next state: an access to an
absent address reads poison and writes a record (R81), an access to no register reads 0 and writes a record (R82), and a
module-fatal fault stops boundaries and is state of its own (R571). -/
inductive Fault where
  deriving DecidableEq, Repr

/-- Reasons for a refusal. -/
inductive Refusal where
  /-- Raised by exec alone, for a command that has no meaning yet. Safe: the machine stops where the module would go on. No
  command is left without its meaning, so nothing raises it. -/
  | notModelled (mnemonic : String)
  deriving DecidableEq, Repr

/-- The module at the moment its input power is about to be applied: every register field at its reset value (an empty map:
no field differs from it), the standby domain off, the module held in the module reset of cause POWER_ON (R595, R601, R654).
The values that the spec does not state are those of assumption log 5: memory parts hold undefined contents (seeds 1 to 13),
everything else is empty, 0 or off. -/
def Block.reset : Block :=
  { regs := []
    mem := { cells := [], dev := [], seeds := (List.range 13).map (fun k => (k, k + 1)) }
    tags := [], sites := [], faultQ := [], out := []
    free := 13
    tick := { facts := TickFacts.none, stopping := false, holdover := 0, fatal := false, reference := false, epNs := 0,
              epTick := 0, stepped := false }
    retires := [], rst := none, heldQ := [], moss := Moss.empty, grp := GrpSt.empty, migCh := [], mcasts := [], sigs := []
    samples := [], bk := Bracken.empty, rc := [], sf := [], misses := [], pre := [], plru := [], isolated := []
    pkgSeen := [], stlb := [], wcache := [], cctx := [], wins := [], inval := none, tagSet := none
    terminated := [], termSeq := [], irqOwed := false, dm := Damask.empty, qps := [], ports := Ports.empty, regQ := []
    snap := Snap.empty
    pw := { input := false, pwrEn := false, switch := false, good := false, latched := false, overVolt := false, trip := false,
            below := false, above := false, capRuns := 0, limit := Config.maxWatts, hot := [], cool := [], base := none,
            owed := [] }
    mrst := { on := true, causes := [1], pending := none, ended := [] }
    lc := { store := [], held := [], log := [], owed := [], polls := [], reading := [], iface := [], before := [], acts := []
            bad := [], why := 0, idKey := 0, alarmed := false, attest := false, tid := 0, eid := 0, dyn := 0, spdm := 0
            hands := [], sess := [], nextSess := 0, pack := 0 }
    tap := { ir := 1, bsr := 0 } }

/-- The machine right after reset: the module, and no command waiting. -/
def State.reset : State := { pending := [], m := Block.reset }

end Sys2Proof.Machine
end

