-- ==== Sys2Proof/Machine/Run.lean ====
section
/-! DEFINITION. Machine/Run.lean: a command acts on the module and leaves the queue as it is. -/

namespace Sys2Proof.Machine

/-- Act on the module, carry out the register writes that the action's own accesses made (R82), and answer the next
state. -/
def State.run (s : State) (f : Block → Block) : Host.Outcome State Fault Refusal :=
  .next { s with m := (f s.m).drainRegs }

end Sys2Proof.Machine
end

