-- ==== Sys2Proof/Machine/ExecMemory.lean ====
section
/-! DEFINITION. Machine/ExecMemory.lean: the meanings of the commands of the Moss engines, memory, caches and translation:
one definition for each command, which acts on the module as its `do` definition says. -/

namespace Sys2Proof.Machine

/-- TABLE_ENTRY_READ_RETURN (R308). -/
def execTableEntryReadReturn (l : LTile) (s : State) : Host.Outcome State Fault Refusal :=
  s.run (fun b => b.doTableEntryReadReturn l)

/-- PART_ACCEPT (R296). -/
def execPartAccept (m : Fin 12) (s : State) : Host.Outcome State Fault Refusal :=
  s.run (fun b => b.doPartAccept m)

/-- RECORD_READ_RETURN (R342). -/
def execRecordReadReturn (m : Fin 12) (k row : Nat) (s : State) : Host.Outcome State Fault Refusal :=
  s.run (fun b => b.doRecordReadReturn m k row)

/-- PART_POOLED (R309). -/
def execPartPooled (m : Fin 12) (k : Nat) (s : State) : Host.Outcome State Fault Refusal :=
  s.run (fun b => b.doPartPooled m k)

/-- POOLED_RETURN_ARRIVE (R315). -/
def execPooledReturnArrive (l : LTile) (tag : W32) (s : State) : Host.Outcome State Fault Refusal :=
  s.run (fun b => b.doPooledReturnArrive l tag)

/-- PART_TIMEOUT (R315). -/
def execPartTimeout (l : LTile) (tag : W32) (s : State) : Host.Outcome State Fault Refusal :=
  s.run (fun b => b.doPartTimeout l tag)

/-- UPDATE_TIMEOUT (R354). -/
def execUpdateTimeout (l : LTile) (seq : W32) (s : State) : Host.Outcome State Fault Refusal :=
  s.run (fun b => b.doUpdateTimeout l seq)

/-- APPLY_PASS (R358). -/
def execApplyPass (m : Fin 12) (s : State) : Host.Outcome State Fault Refusal :=
  s.run (fun b => b.doApplyPass m)

/-- MS_TDIR_INVAL (R332). -/
def execMsTdirInval (s : State) : Host.Outcome State Fault Refusal :=
  s.run (fun b => b.doMsTdirInval)

/-- MEMORY_REQUEST (R386). -/
def execMemoryRequest (src : Nat) (ctx : BitVec 12) (pa : BitVec 56) (op : MemOp) (parity : Bool) (flip : BitVec 144)
    (s : State) : Host.Outcome State Fault Refusal :=
  s.run (fun b => b.doMemoryRequest src ctx pa op parity flip)

/-- REGION_CACHE_ACCESS (R388). -/
def execRegionCacheAccess (r : Fin 32) (port : Nat) (ctx : BitVec 12) (off : BitVec 46) (w : Option MBytes) (n : Fin
    129) (hurt : Option (BitVec 39)) (flip : BitVec 144) (s : State) : Host.Outcome State Fault Refusal :=
  s.run (fun b => b.doRegionCacheAccess r port ctx off w n hurt flip)

/-- CACHE_FILL_RETURN (R389). -/
def execCacheFillReturn (r : Fin 32) (line : BitVec 39) (s : State) : Host.Outcome State Fault Refusal :=
  s.run (fun b => b.doCacheFillReturn r line)

/-- LOCK_MASK_WRITE (R392). -/
def execLockMaskWrite (r : Fin 32) (mask : BitVec 16) (s : State) : Host.Outcome State Fault Refusal :=
  s.run (fun b => b.doLockMaskWrite r mask)

/-- RC_PRELOAD_GO (R392). -/
def execRcPreloadGo (r : Fin 32) (way : BitVec 4) (addr : BitVec 39) (s : State) : Host.Outcome State Fault Refusal :=
  s.run (fun b => b.doRcPreloadGo r way addr)

/-- RC_PRELOAD_END (R392). -/
def execRcPreloadEnd (r : Fin 32) (s : State) : Host.Outcome State Fault Refusal :=
  s.run (fun b => b.doRcPreloadEnd r)

/-- LOCK_WINDOW_ACCESS (R393). -/
def execLockWindowAccess (src : Nat) (ctx : BitVec 12) (r : Fin 32) (w : BitVec 23) (op : MemOp) (s : State) :
    Host.Outcome State Fault Refusal :=
  s.run (fun b => b.doLockWindowAccess src ctx r w op)

/-- SCRUB_READ (R382). -/
def execScrubRead (off : BitVec 46) (flip : BitVec 144) (s : State) : Host.Outcome State Fault Refusal :=
  s.run (fun b => b.doScrubRead off flip)

/-- MEM_MAPOUT_GO (R371). -/
def execMemMapoutGo (m : Fin 12) (ch : BitVec 5) (s : State) : Host.Outcome State Fault Refusal :=
  s.run (fun b => b.doMemMapoutGo m ch)

/-- MIGRATION_MOVE (R372). -/
def execMigrationMove (m : Fin 12) (s : State) : Host.Outcome State Fault Refusal :=
  s.run (fun b => b.doMigrationMove m)

/-- PEAT_PACKAGE_FAIL (R375). -/
def execPeatPackageFail (p : Fin 16) (s : State) : Host.Outcome State Fault Refusal :=
  s.run (fun b => b.doPeatPackageFail p)

/-- MEM_PPR_GO (R395). -/
def execMemPprGo (m : Fin 12) (ch : BitVec 5) (pc : Bool) (bank : BitVec 4) (row : BitVec 18) (s : State) :
    Host.Outcome State Fault Refusal :=
  s.run (fun b => b.doMemPprGo m ch pc bank row)

/-- PPR_COMPLETE (R395). -/
def execPprComplete (m : Fin 12) (ok : Bool) (spares : BitVec 8) (s : State) : Host.Outcome State Fault Refusal :=
  s.run (fun b => b.doPprComplete m ok spares)

/-- WALK_COMPLETE (R413). -/
def execWalkComplete (site : Option SiteIx) (ctx : BitVec 12) (va : W64) (write stale : Bool) (s : State) :
    Host.Outcome State Fault Refusal :=
  s.run (fun b => b.doWalkComplete site ctx va write stale)

/-- XL_INVAL_GO (R415). -/
def execXlInvalGo (scope : BitVec 2) (ctx : BitVec 12) (pages : BitVec 20) (s : State) : Host.Outcome State Fault
    Refusal :=
  s.run (fun b => b.doXlInvalGo scope ctx pages)

/-- INVALIDATION_ARRIVE (R417). -/
def execInvalidationArrive (p : SiteIx) (s : State) : Host.Outcome State Fault Refusal :=
  s.run (fun b => b.doInvalidationArrive p)

/-- DRAIN_REPORT (R417). -/
def execDrainReport (p : SiteIx) (s : State) : Host.Outcome State Fault Refusal :=
  s.run (fun b => b.doDrainReport p)

/-- INVALIDATION_COMPLETE (R417). -/
def execInvalidationComplete (s : State) : Host.Outcome State Fault Refusal :=
  s.run (fun b => b.doInvalidationComplete)

/-- XL_TAG_SET_GO (R421). -/
def execXlTagSetGo (first : BitVec 25) (count : BitVec 20) (tag : BitVec 12) (s : State) : Host.Outcome State Fault
    Refusal :=
  s.run (fun b => b.doXlTagSetGo first count tag)

/-- TAG_SET_COMPLETE (R421). -/
def execTagSetComplete (s : State) : Host.Outcome State Fault Refusal :=
  s.run (fun b => b.doTagSetComplete)

/-- XL_TAG_RD (R422). -/
def execXlTagRd (g : BitVec 25) (s : State) : Host.Outcome State Fault Refusal :=
  s.run (fun b => b.doXlTagRd g)

/-- XL_WINVAL_GO (R430). -/
def execXlWinvalGo (index : BitVec 13) (all : Bool) (s : State) : Host.Outcome State Fault Refusal :=
  s.run (fun b => b.doXlWinvalGo index all)

/-- WINDOW_REMOVAL_COMPLETE (R430). -/
def execWindowRemovalComplete (s : State) : Host.Outcome State Fault Refusal :=
  s.run (fun b => b.doWindowRemovalComplete)

end Sys2Proof.Machine
end

