-- ==== Sys2Proof/Machine/ExecModule.lean ====
section
/-! DEFINITION. Machine/ExecModule.lean: the meanings of the commands of faults, power, resets, Lichen, the vault, snapshot, bring-up and registers:
one definition for each command, which acts on the module as its `do` definition says. -/

namespace Sys2Proof.Machine

/-- UNMAPPED_REGISTER_ACCESS (R82). -/
def execUnmappedRegisterAccess (src : Nat) (ctx : BitVec 12) (off : BitVec 32) (n : Fin 129) (write : Bool) (s :
    State) : Host.Outcome State Fault Refusal :=
  s.run (fun b => b.doUnmappedRegisterAccess src ctx off n write)

/-- REGISTER_WRITE (R7). -/
def execRegisterWrite (lichen : Bool) (ctx : BitVec 12) (off : BitVec 29) (v : W64) (s : State) : Host.Outcome State
    Fault Refusal :=
  s.run (fun b => b.doRegisterWrite lichen ctx off v)

/-- PRESET_REGISTER_WRITE (R12). -/
def execPresetRegisterWrite (m : Fin 12) (preset : BitVec 4) (expert : Bool) (share : BitVec 7) (depth : BitVec 8) (s
    : State) : Host.Outcome State Fault Refusal :=
  s.run (fun b => b.doPresetRegisterWrite m preset expert share depth)

/-- FAULT_RECORD (R565). -/
def execFaultRecord (s : State) : Host.Outcome State Fault Refusal :=
  s.run (fun b => b.doFaultRecord)

/-- FAULT_IRQ (R570). -/
def execFaultIrq (s : State) : Host.Outcome State Fault Refusal :=
  s.run (fun b => b.doFaultIrq)

/-- OVERFLOW_CLEAR (R569). -/
def execOverflowClear (s : State) : Host.Outcome State Fault Refusal :=
  s.run (fun b => b.doOverflowClear)

/-- CONTEXT_CLEAR (R609). -/
def execContextClear (ctx : BitVec 12) (s : State) : Host.Outcome State Fault Refusal :=
  s.run (fun b => b.doContextClear ctx)

/-- SWREC_GO (R576). -/
def execSwrecGo (cause : BitVec 8) (level : BitVec 3) (aux : BitVec 31) (s : State) : Host.Outcome State Fault Refusal
    :=
  s.run (fun b => b.doSwrecGo cause level aux)

/-- INPUT_POWER_PRESENT (R654). -/
def execInputPowerPresent (mesh lid : Bool) (s : State) : Host.Outcome State Fault Refusal :=
  s.run (fun b => b.doInputPowerPresent mesh lid)

/-- POWER_REMOVAL (R595). -/
def execPowerRemoval (s : State) : Host.Outcome State Fault Refusal :=
  s.run (fun b => b.doPowerRemoval)

/-- PWR_EN_ASSERT (R580). -/
def execPwrEnAssert (inRange : Bool) (s : State) : Host.Outcome State Fault Refusal :=
  s.run (fun b => b.doPwrEnAssert inRange)

/-- PWR_EN_DEASSERT (R580). -/
def execPwrEnDeassert (s : State) : Host.Outcome State Fault Refusal :=
  s.run (fun b => b.doPwrEnDeassert)

/-- RAILS_IN_REGULATION (R580). -/
def execRailsInRegulation (s : State) : Host.Outcome State Fault Refusal :=
  s.run (fun b => b.doRailsInRegulation)

/-- OVERVOLTAGE (R581). -/
def execOvervoltage (s : State) : Host.Outcome State Fault Refusal :=
  s.run (fun b => b.doOvervoltage)

/-- OVERVOLTAGE_RECOVERY (R581). -/
def execOvervoltageRecovery (s : State) : Host.Outcome State Fault Refusal :=
  s.run (fun b => b.doOvervoltageRecovery)

/-- SHORT (R581). -/
def execShort (s : State) : Host.Outcome State Fault Refusal :=
  s.run (fun b => b.doShort)

/-- OVERCURRENT (R581). -/
def execOvercurrent (s : State) : Host.Outcome State Fault Refusal :=
  s.run (fun b => b.doOvercurrent)

/-- OPEN_PAIR (R581). -/
def execOpenPair (s : State) : Host.Outcome State Fault Refusal :=
  s.run (fun b => b.doOpenPair)

/-- OPEN_PAIR_RECOVER (R581). -/
def execOpenPairRecover (s : State) : Host.Outcome State Fault Refusal :=
  s.run (fun b => b.doOpenPairRecover)

/-- C_DIE_RAIL_FAULT (R581). -/
def execCDieRailFault (die : Fin 8) (s : State) : Host.Outcome State Fault Refusal :=
  s.run (fun b => b.doCDieRailFault die)

/-- RAIL_FAULT (R581). -/
def execRailFault (rail : BitVec 8) (s : State) : Host.Outcome State Fault Refusal :=
  s.run (fun b => b.doRailFault rail)

/-- UV_WARN (R583). -/
def execUvWarn (s : State) : Host.Outcome State Fault Refusal :=
  s.run (fun b => b.doUvWarn)

/-- UV_DWELL_TIMER (R583). -/
def execUvDwellTimer (s : State) : Host.Outcome State Fault Refusal :=
  s.run (fun b => b.doUvDwellTimer)

/-- UV_RECOVER_TIMER (R583). -/
def execUvRecoverTimer (s : State) : Host.Outcome State Fault Refusal :=
  s.run (fun b => b.doUvRecoverTimer)

/-- UV_RESET (R584). -/
def execUvReset (s : State) : Host.Outcome State Fault Refusal :=
  s.run (fun b => b.doUvReset)

/-- CAP_WINDOW (R588). -/
def execCapWindow (avg : BitVec 16) (s : State) : Host.Outcome State Fault Refusal :=
  s.run (fun b => b.doCapWindow avg)

/-- PW_CLK_WRITE (R587). -/
def execPwClkWrite (mhz : BitVec 12) (s : State) : Host.Outcome State Fault Refusal :=
  s.run (fun b => b.doPwClkWrite mhz)

/-- DIE_TEMP_WARN (R590). -/
def execDieTempWarn (die : Fin 8) (t : BitVec 8) (s : State) : Host.Outcome State Fault Refusal :=
  s.run (fun b => b.doDieTempWarn die t)

/-- DIE_STEP_RECOVER (R590). -/
def execDieStepRecover (die : Fin 8) (s : State) : Host.Outcome State Fault Refusal :=
  s.run (fun b => b.doDieStepRecover die)

/-- THERM_DIE_TRIP (R589). -/
def execThermDieTrip (die : Fin 8) (s : State) : Host.Outcome State Fault Refusal :=
  s.run (fun b => b.doThermDieTrip die)

/-- THERM_MODULE_TRIP (R589). -/
def execThermModuleTrip (pt : Fin 2 ⊕ Fin 12) (s : State) : Host.Outcome State Fault Refusal :=
  s.run (fun b => b.doThermModuleTrip pt)

/-- COOLANT_CONDITION (R590). -/
def execCoolantCondition (c : Fin 3) (holds : Bool) (s : State) : Host.Outcome State Fault Refusal :=
  s.run (fun b => b.doCoolantCondition c holds)

/-- COOLANT_RECOVER (R590). -/
def execCoolantRecover (s : State) : Host.Outcome State Fault Refusal :=
  s.run (fun b => b.doCoolantRecover)

/-- TILE_RESET (R604). -/
def execTileReset (target : BitVec 9) (s : State) : Host.Outcome State Fault Refusal :=
  s.run (fun b => b.doTileReset target)

/-- REGION_RESET (R604). -/
def execRegionReset (target : BitVec 9) (s : State) : Host.Outcome State Fault Refusal :=
  s.run (fun b => b.doRegionReset target)

/-- REGION_SLEEP (R606). -/
def execRegionSleep (target : BitVec 9) (s : State) : Host.Outcome State Fault Refusal :=
  s.run (fun b => b.doRegionSleep target)

/-- REGION_WAKE (R607). -/
def execRegionWake (target : BitVec 9) (s : State) : Host.Outcome State Fault Refusal :=
  s.run (fun b => b.doRegionWake target)

/-- MODULE_RESET_CMD (R602). -/
def execModuleResetCmd (flush : Bool) (s : State) : Host.Outcome State Fault Refusal :=
  s.run (fun b => b.doModuleResetCmd flush)

/-- RESET_READY (R605). -/
def execResetReady (s : State) : Host.Outcome State Fault Refusal :=
  s.run (fun b => b.doResetReady)

/-- RESET_PIN (R601). -/
def execResetPin (s : State) : Host.Outcome State Fault Refusal :=
  s.run (fun b => b.doResetPin)

/-- MODULE_RESET (R602). -/
def execModuleReset (code : BitVec 4) (s : State) : Host.Outcome State Fault Refusal :=
  s.run (fun b => b.doModuleReset code)

/-- MODULE_RESET_RELEASE (R602). -/
def execModuleResetRelease (fails : BitVec 4) (s : State) : Host.Outcome State Fault Refusal :=
  s.run (fun b => b.doModuleResetRelease fails)

/-- LICHEN_COMMIT (R598). -/
def execLichenCommit (s : State) : Host.Outcome State Fault Refusal :=
  s.run (fun b => b.doLichenCommit)

/-- STORE_WRITE_FAIL (R615). -/
def execStoreWriteFail (s : State) : Host.Outcome State Fault Refusal :=
  s.run (fun b => b.doStoreWriteFail)

/-- SENSOR_POLL (R617). -/
def execSensorPoll (sen : BitVec 16) (reading : Option W32) (s : State) : Host.Outcome State Fault Refusal :=
  s.run (fun b => b.doSensorPoll sen reading)

/-- SET_ENDPOINT_ID (R621). -/
def execSetEndpointId (eid : BitVec 8) (s : State) : Host.Outcome State Fault Refusal :=
  s.run (fun b => b.doSetEndpointId eid)

/-- GET_ENDPOINT_ID (R621). -/
def execGetEndpointId (s : State) : Host.Outcome State Fault Refusal :=
  s.run (fun b => b.doGetEndpointId)

/-- GET_MCTP_VERSION_SUPPORT (R621). -/
def execGetMctpVersionSupport (s : State) : Host.Outcome State Fault Refusal :=
  s.run (fun b => b.doGetMctpVersionSupport)

/-- GET_MESSAGE_TYPE_SUPPORT (R621). -/
def execGetMessageTypeSupport (s : State) : Host.Outcome State Fault Refusal :=
  s.run (fun b => b.doGetMessageTypeSupport)

/-- PLDM_BASE_COMMAND (R621). -/
def execPldmBaseCommand (cmd arg : BitVec 8) (s : State) : Host.Outcome State Fault Refusal :=
  s.run (fun b => b.doPldmBaseCommand cmd arg)

/-- PLDM_SENSOR_READ (R616). -/
def execPldmSensorRead (sen : PldmSensor) (s : State) : Host.Outcome State Fault Refusal :=
  s.run (fun b => b.doPldmSensorRead sen)

/-- PLDM_FIRMWARE_TRANSFER (R626). -/
def execPldmFirmwareTransfer (x : FwItem) (s : State) : Host.Outcome State Fault Refusal :=
  s.run (fun b => b.doPldmFirmwareTransfer x)

/-- ACTIVATE_FIRMWARE (R627). -/
def execActivateFirmware (c : Fin 4) (s : State) : Host.Outcome State Fault Refusal :=
  s.run (fun b => b.doActivateFirmware c)

/-- SV_POLICY_WRITE (R637). -/
def execSvPolicyWrite (sid : BitVec 16) (v : BitVec 12) (s : State) : Host.Outcome State Fault Refusal :=
  s.run (fun b => b.doSvPolicyWrite sid v)

/-- GET_VERSION (R621). -/
def execGetVersion (s : State) : Host.Outcome State Fault Refusal :=
  s.run (fun b => b.doGetVersion)

/-- GET_CAPABILITIES (R621). -/
def execGetCapabilities (s : State) : Host.Outcome State Fault Refusal :=
  s.run (fun b => b.doGetCapabilities)

/-- NEGOTIATE_ALGORITHMS (R621). -/
def execNegotiateAlgorithms (s : State) : Host.Outcome State Fault Refusal :=
  s.run (fun b => b.doNegotiateAlgorithms)

/-- GET_DIGESTS (R621). -/
def execGetDigests (s : State) : Host.Outcome State Fault Refusal :=
  s.run (fun b => b.doGetDigests)

/-- GET_CERTIFICATE (R621). -/
def execGetCertificate (slot : BitVec 4) (s : State) : Host.Outcome State Fault Refusal :=
  s.run (fun b => b.doGetCertificate slot)

/-- CHALLENGE (R621). -/
def execChallenge (slot : BitVec 4) (s : State) : Host.Outcome State Fault Refusal :=
  s.run (fun b => b.doChallenge slot)

/-- GET_MEASUREMENTS (R624). -/
def execGetMeasurements (ix : BitVec 8) (signed : Bool) (s : State) : Host.Outcome State Fault Refusal :=
  s.run (fun b => b.doGetMeasurements ix signed)

/-- KEY_EXCHANGE (R621). -/
def execKeyExchange (s : State) : Host.Outcome State Fault Refusal :=
  s.run (fun b => b.doKeyExchange)

/-- FINISH (R621). -/
def execFinish (sid : BitVec 16) (ok : Bool) (s : State) : Host.Outcome State Fault Refusal :=
  s.run (fun b => b.doFinish sid ok)

/-- END_SESSION (R621). -/
def execEndSession (sid : BitVec 16) (s : State) : Host.Outcome State Fault Refusal :=
  s.run (fun b => b.doEndSession sid)

/-- FW_ACTIVATE (R627). -/
def execFwActivate (c : BitVec 2) (s : State) : Host.Outcome State Fault Refusal :=
  s.run (fun b => b.doFwActivate c)

/-- FW_REVERT (R627). -/
def execFwRevert (c : BitVec 2) (s : State) : Host.Outcome State Fault Refusal :=
  s.run (fun b => b.doFwRevert c)

/-- FW_READY_BRACKEN (R628). -/
def execFwReadyBracken (s : State) : Host.Outcome State Fault Refusal :=
  s.run (fun b => b.doFwReadyBracken)

/-- BRACKEN_READY_TIMEOUT (R628). -/
def execBrackenReadyTimeout (s : State) : Host.Outcome State Fault Refusal :=
  s.run (fun b => b.doBrackenReadyTimeout)

/-- FW_READY_RT (R629). -/
def execFwReadyRt (s : State) : Host.Outcome State Fault Refusal :=
  s.run (fun b => b.doFwReadyRt)

/-- RUNTIME_READY_TIMEOUT (R629). -/
def execRuntimeReadyTimeout (s : State) : Host.Outcome State Fault Refusal :=
  s.run (fun b => b.doRuntimeReadyTimeout)

/-- LICHEN_RESTART (R630). -/
def execLichenRestart (s : State) : Host.Outcome State Fault Refusal :=
  s.run (fun b => b.doLichenRestart)

/-- TAMPER_ALARM (R635). -/
def execTamperAlarm (active : BitVec 5) (s : State) : Host.Outcome State Fault Refusal :=
  s.run (fun b => b.doTamperAlarm active)

/-- SV_TEST_TRIGGER (R644). -/
def execSvTestTrigger (s : State) : Host.Outcome State Fault Refusal :=
  s.run (fun b => b.doSvTestTrigger)

/-- REATTEST (R638). -/
def execReattest (fail : Option (Fin 4)) (s : State) : Host.Outcome State Fault Refusal :=
  s.run (fun b => b.doReattest fail)

/-- SN_TRIG_GO (R649). -/
def execSnTrigGo (s : State) : Host.Outcome State Fault Refusal :=
  s.run (fun b => b.doSnTrigGo)

/-- SNAP_IN (R650). -/
def execSnapIn (masked : Bool) (s : State) : Host.Outcome State Fault Refusal :=
  s.run (fun b => b.doSnapIn masked)

/-- SNAPSHOT_COPY_END (R647). -/
def execSnapshotCopyEnd (s : State) : Host.Outcome State Fault Refusal :=
  s.run (fun b => b.doSnapshotCopyEnd)

/-- SNAPSHOT_ARM (R648). -/
def execSnapshotArm (s : State) : Host.Outcome State Fault Refusal :=
  s.run (fun b => b.doSnapshotArm)

/-- MEMORY_BRINGUP_END (R655). -/
def execMemoryBringupEnd (m : Fin 12) (noSpare : BitVec 16) (rows : BitVec 16) (fail : BitVec 32) (s : State) :
    Host.Outcome State Fault Refusal :=
  s.run (fun b => b.doMemoryBringupEnd m noSpare rows fail)

/-- PEAT_BRINGUP_END (R656). -/
def execPeatBringupEnd (fail : BitVec 16) (s : State) : Host.Outcome State Fault Refusal :=
  s.run (fun b => b.doPeatBringupEnd fail)

/-- TILE_BRINGUP_END (R657). -/
def execTileBringupEnd (found : List (SiteIx × SiteFault)) (s : State) : Host.Outcome State Fault Refusal :=
  s.run (fun b => b.doTileBringupEnd found)

/-- CACHE_BRINGUP_END (R654). -/
def execCacheBringupEnd (s : State) : Host.Outcome State Fault Refusal :=
  s.run (fun b => b.doCacheBringupEnd)

/-- BRINGUP_RELEASE (R654). -/
def execBringupRelease (ms : BitVec 16) (fails : BitVec 4) (s : State) : Host.Outcome State Fault Refusal :=
  s.run (fun b => b.doBringupRelease ms fails)

/-- TAP_ENABLE (R660). -/
def execTapEnable (sid : BitVec 16) (s : State) : Host.Outcome State Fault Refusal :=
  s.run (fun b => b.doTapEnable sid)

/-- TAP_DISABLE (R660). -/
def execTapDisable (s : State) : Host.Outcome State Fault Refusal :=
  s.run (fun b => b.doTapDisable)

/-- BYPASS (R659). -/
def execBypass (s : State) : Host.Outcome State Fault Refusal :=
  s.run (fun b => b.doBypass)

/-- IDCODE (R659). -/
def execIdcode (s : State) : Host.Outcome State Fault Refusal :=
  s.run (fun b => b.doIdcode)

/-- SAMPLE_PRELOAD (R659). -/
def execSamplePreload (pins load : BitVec 17) (s : State) : Host.Outcome State Fault Refusal :=
  s.run (fun b => b.doSamplePreload pins load)

/-- EXTEST (R659). -/
def execExtest (s : State) : Host.Outcome State Fault Refusal :=
  s.run (fun b => b.doExtest)

/-- INSTR_NET (R660). -/
def execInstrNet (s : State) : Host.Outcome State Fault Refusal :=
  s.run (fun b => b.doInstrNet)

/-- RC_READ (R7). -/
def execRcRead (src : Nat) (ctx : BitVec 12) (off : BitVec 29) (s : State) : Host.Outcome State Fault Refusal :=
  s.run (fun b => b.doRcRead src ctx off)

/-- RECOVERY_LEVEL_REACHED (R583). -/
def execRecoveryLevelReached (recovery : Bool) (s : State) : Host.Outcome State Fault Refusal :=
  s.run (fun b => b.doRecoveryLevelReached recovery)

/-- STACK_OR_N_DIE_TEMP_WARN (R590). -/
def execStackOrNDieTempWarn (pt : Fin 2 ⊕ Fin 12) (hot : Bool) (s : State) : Host.Outcome State Fault Refusal :=
  s.run (fun b => b.doStackOrNDieTempWarn pt hot)

/-- PLLS_LOCKED (R654). -/
def execPllsLocked (s : State) : Host.Outcome State Fault Refusal :=
  s.run (fun b => b.doPllsLocked)

/-- RESTORE_END (R654). -/
def execRestoreEnd (s : State) : Host.Outcome State Fault Refusal :=
  s.run (fun b => b.doRestoreEnd)

/-- I3C_DYNAMIC_ADDRESS (R621). -/
def execI3cDynamicAddress (a : BitVec 7) (s : State) : Host.Outcome State Fault Refusal :=
  s.run (fun b => b.doI3cDynamicAddress a)

/-- MGMT_NEIGHBOUR_SOLICITATION (R622). -/
def execMgmtNeighbourSolicitation (target : Option (BitVec 128)) (s : State) : Host.Outcome State Fault Refusal :=
  s.run (fun b => b.doMgmtNeighbourSolicitation target)

end Sys2Proof.Machine
end

