-- ==== Sys2Proof/Machine/ExecNetwork.lean ====
section
/-! DEFINITION. Machine/ExecNetwork.lean: the meanings of the commands of ports, RoCEv2, Damask and the group:
one definition for each command, which acts on the module as its `do` definition says. -/

namespace Sys2Proof.Machine

/-- FRAME_RECEIVE (R477). -/
def execFrameReceive (sub : Fin 64) (f : Frame) (s : State) : Host.Outcome State Fault Refusal :=
  s.run (fun b => b.doFrameReceive sub f)

/-- PFC_FRAME (R476). -/
def execPfcFrame (sub : Fin 64) (pause resume : BitVec 8) (s : State) : Host.Outcome State Fault Refusal :=
  s.run (fun b => b.doPfcFrame sub pause resume)

/-- LINK_UP (R475). -/
def execLinkUp (sub : Fin 64) (s : State) : Host.Outcome State Fault Refusal :=
  s.run (fun b => b.doLinkUp sub)

/-- LINK_DOWN (R518). -/
def execLinkDown (sub : Fin 64) (lanes : BitVec 8) (s : State) : Host.Outcome State Fault Refusal :=
  s.run (fun b => b.doLinkDown sub lanes)

/-- FEC_DEG_WINDOW (R514). -/
def execFecDegWindow (sub : Fin 64) (errors bitsIn : W64) (uncorr : BitVec 16) (s : State) : Host.Outcome State Fault
    Refusal :=
  s.run (fun b => b.doFecDegWindow sub errors bitsIn uncorr)

/-- MSEC_INSTALL (R515). -/
def execMsecInstall (p : Fin 16) (k : Fin 4) (rx : Bool) (an : BitVec 2) (s : State) : Host.Outcome State Fault
    Refusal :=
  s.run (fun b => b.doMsecInstall p k rx an)

/-- MSEC_DELETE (R515). -/
def execMsecDelete (p : Fin 16) (k : Fin 4) (rx : Bool) (an : BitVec 2) (s : State) : Host.Outcome State Fault Refusal
    :=
  s.run (fun b => b.doMsecDelete p k rx an)

/-- MSEC_ACTIVATE (R515). -/
def execMsecActivate (p : Fin 16) (k : Fin 4) (rx : Bool) (an : BitVec 2) (s : State) : Host.Outcome State Fault
    Refusal :=
  s.run (fun b => b.doMsecActivate p k rx an)

/-- QP_ENABLE (R482). -/
def execQpEnable (ins : BitVec 12) (s : State) : Host.Outcome State Fault Refusal :=
  s.run (fun b => b.doQpEnable ins)

/-- QP_DISABLE (R482). -/
def execQpDisable (ins : BitVec 12) (s : State) : Host.Outcome State Fault Refusal :=
  s.run (fun b => b.doQpDisable ins)

/-- RDMA_WRITE (R483). -/
def execRdmaWrite (p : RocePkt) (t : RoceTarget) (data : List Byte) (s : State) : Host.Outcome State Fault Refusal :=
  s.run (fun b => b.doRdmaWrite p t data)

/-- WRITE_WITH_IMMEDIATE (R484). -/
def execWriteWithImmediate (p : RocePkt) (t : RoceTarget) (data : List Byte) (imm : BitVec 32) (s : State) :
    Host.Outcome State Fault Refusal :=
  s.run (fun b => b.doWriteWithImmediate p t data imm)

/-- RDMA_READ (R483). -/
def execRdmaRead (p : RocePkt) (t : RoceTarget) (len : BitVec 32) (full : Bool) (s : State) : Host.Outcome State Fault
    Refusal :=
  s.run (fun b => b.doRdmaRead p t len full)

/-- SEND (R484). -/
def execSend (p : RocePkt) (data : List Byte) (imm : Option (BitVec 32)) (s : State) : Host.Outcome State Fault
    Refusal :=
  s.run (fun b => b.doSend p data imm)

/-- FETCH_AND_ADD (R480). -/
def execFetchAndAdd (p : RocePkt) (t : RoceTarget) (v : W64) (full : Bool) (s : State) : Host.Outcome State Fault
    Refusal :=
  s.run (fun b => b.doFetchAndAdd p t v full)

/-- COMPARE_AND_SWAP (R480). -/
def execCompareAndSwap (p : RocePkt) (t : RoceTarget) (v cmp : W64) (full : Bool) (s : State) : Host.Outcome State
    Fault Refusal :=
  s.run (fun b => b.doCompareAndSwap p t v cmp full)

/-- CNP (R486). -/
def execCnp (p : RocePkt) (s : State) : Host.Outcome State Fault Refusal :=
  s.run (fun b => b.doCnp p)

/-- CNP_GAP_TIMER (R486). -/
def execCnpGapTimer (ins : BitVec 12) (s : State) : Host.Outcome State Fault Refusal :=
  s.run (fun b => b.doCnpGapTimer ins)

/-- ROCE_ACK (R487). -/
def execRoceAck (p : RocePkt) (s : State) : Host.Outcome State Fault Refusal :=
  s.run (fun b => b.doRoceAck p)

/-- ROCE_NAK (R487). -/
def execRoceNak (p : RocePkt) (syndrome : BitVec 8) (s : State) : Host.Outcome State Fault Refusal :=
  s.run (fun b => b.doRoceNak p syndrome)

/-- ROCE_ACK_TIMEOUT (R487). -/
def execRoceAckTimeout (ins : BitVec 12) (s : State) : Host.Outcome State Fault Refusal :=
  s.run (fun b => b.doRoceAckTimeout ins)

/-- ROCE_RNR_RETRY (R487). -/
def execRoceRnrRetry (ins : BitVec 12) (s : State) : Host.Outcome State Fault Refusal :=
  s.run (fun b => b.doRoceRnrRetry ins)

/-- OPEN (R492). -/
def execDmOpen (h : DmHdr) (s : State) : Host.Outcome State Fault Refusal :=
  s.run (fun b => b.doDmOpen h)

/-- CLOSE (R492). -/
def execDmClose (h : DmHdr) (s : State) : Host.Outcome State Fault Refusal :=
  s.run (fun b => b.doDmClose h)

/-- ACK (R494). -/
def execDmAck (h : DmHdr) (sack : W64) (ece : Bool) (s : State) : Host.Outcome State Fault Refusal :=
  s.run (fun b => b.doDmAck h sack ece)

/-- RESET (R492). -/
def execDmReset (h : DmHdr) (s : State) : Host.Outcome State Fault Refusal :=
  s.run (fun b => b.doDmReset h)

/-- WRITE (R493). -/
def execDmWrite (h : DmHdr) (data : MBytes) (s : State) : Host.Outcome State Fault Refusal :=
  s.run (fun b => b.doDmWrite h data)

/-- READ (R490). -/
def execDmRead (h : DmHdr) (tag : BitVec 32) (len : BitVec 14) (s : State) : Host.Outcome State Fault Refusal :=
  s.run (fun b => b.doDmRead h tag len)

/-- READ_RESP (R490). -/
def execDmReadResp (h : DmHdr) (tag : BitVec 32) (status : BitVec 8) (data : MBytes) (s : State) : Host.Outcome State
    Fault Refusal :=
  s.run (fun b => b.doDmReadResp h tag status data)

/-- ATOMIC (R490). -/
def execDmAtomic (h : DmHdr) (tag : BitVec 32) (cas wide : Bool) (v cmp : W64) (s : State) : Host.Outcome State Fault
    Refusal :=
  s.run (fun b => b.doDmAtomic h tag cas wide v cmp)

/-- ATOMIC_RESP (R490). -/
def execDmAtomicResp (h : DmHdr) (tag : BitVec 32) (status : BitVec 8) (old : W64) (pois : Bool) (s : State) :
    Host.Outcome State Fault Refusal :=
  s.run (fun b => b.doDmAtomicResp h tag status old pois)

/-- WRITE_ERR (R490). -/
def execDmWriteErr (h : DmHdr) (seq : BitVec 32) (status : BitVec 8) (path : BitVec 12) (s : State) : Host.Outcome
    State Fault Refusal :=
  s.run (fun b => b.doDmWriteErr h seq status path)

/-- REMOTE_BAG (R320). -/
def execDmRemoteBag (h : DmHdr) (g : BagHdr) (raw : Bool) (parts : List PartItem) (s : State) : Host.Outcome State
    Fault Refusal :=
  s.run (fun b => b.doDmRemoteBag h g raw parts)

/-- POOLED_RETURN (R321). -/
def execDmPooledReturn (h : DmHdr) (l : LTile) (items : List RetItem) (s : State) : Host.Outcome State Fault Refusal
    :=
  s.run (fun b => b.doDmPooledReturn h l items)

/-- UPDATE (R354). -/
def execDmUpdate (h : DmHdr) (g : BagHdr) (cs : List ContribItem) (s : State) : Host.Outcome State Fault Refusal :=
  s.run (fun b => b.doDmUpdate h g cs)

/-- UPDATE_ACK (R355). -/
def execDmUpdateAck (h : DmHdr) (l : LTile) (acks : List (BitVec 32 × BitVec 8)) (s : State) : Host.Outcome State
    Fault Refusal :=
  s.run (fun b => b.doDmUpdateAck h l acks)

/-- ACK_DELAY_TIMER (R494). -/
def execAckDelayTimer (node : BitVec 10) (path : BitVec 12) (s : State) : Host.Outcome State Fault Refusal :=
  s.run (fun b => b.doAckDelayTimer node path)

/-- DAMASK_RETRANSMIT_TIMER (R495). -/
def execDamaskRetransmitTimer (path : BitVec 12) (seq : BitVec 32) (s : State) : Host.Outcome State Fault Refusal :=
  s.run (fun b => b.doDamaskRetransmitTimer path seq)

/-- PATH_IDLE_CLOSE (R492). -/
def execPathIdleClose (path : BitVec 12) (s : State) : Host.Outcome State Fault Refusal :=
  s.run (fun b => b.doPathIdleClose path)

/-- PTP_FRAME_RECEIVE (R509). -/
def execPtpFrameReceive (sub : Fin 64) (t : ClockTime) (frame : List Byte) (s : State) : Host.Outcome State Fault
    Refusal :=
  s.run (fun b => b.doPtpFrameReceive sub t frame)

/-- PTP_TRANSMIT (R509). -/
def execPtpTransmit (prod : BitVec 16) (times : List ClockTime) (s : State) : Host.Outcome State Fault Refusal :=
  s.run (fun b => b.doPtpTransmit prod times)

/-- PTP_TIME_STEP (R508). -/
def execPtpTimeStep (t : ClockTime) (s : State) : Host.Outcome State Fault Refusal :=
  s.run (fun b => b.doPtpTimeStep t)

/-- PPS_IN_EDGE (R511). -/
def execPpsInEdge (t : ClockTime) (s : State) : Host.Outcome State Fault Refusal :=
  s.run (fun b => b.doPpsInEdge t)

/-- PPS_OUT (R511). -/
def execPpsOut (s : State) : Host.Outcome State Fault Refusal :=
  s.run (fun b => b.doPpsOut)

/-- HEARTBEAT (R526). -/
def execHeartbeat (h : DmHdr) (g : GrpHdr) (m : HbMsg) (s : State) : Host.Outcome State Fault Refusal :=
  s.run (fun b => b.doHeartbeat h g m)

/-- HEARTBEAT_MISSED (R525). -/
def execHeartbeatMissed (node : BitVec 10) (k : W64) (s : State) : Host.Outcome State Fault Refusal :=
  s.run (fun b => b.doHeartbeatMissed node k)

/-- DIGEST_LATE (R533). -/
def execDigestLate (node : BitVec 10) (k : W64) (s : State) : Host.Outcome State Fault Refusal :=
  s.run (fun b => b.doDigestLate node k)

/-- EPOCH (R529). -/
def execEpoch (h : DmHdr) (g : GrpHdr) (e : EpochFields) (s : State) : Host.Outcome State Fault Refusal :=
  s.run (fun b => b.doEpoch h g e)

/-- TAKEOVER (R526). -/
def execTakeover (h : DmHdr) (g : GrpHdr) (l : GrpLead) (s : State) : Host.Outcome State Fault Refusal :=
  s.run (fun b => b.doTakeover h g l)

/-- SERVICE (R530). -/
def execService (h : DmHdr) (g : GrpHdr) (inSvc : Bool) (cause : BitVec 8) (s : State) : Host.Outcome State Fault
    Refusal :=
  s.run (fun b => b.doService h g inSvc cause)

/-- PLACEMENT (R536). -/
def execPlacement (h : DmHdr) (g : GrpHdr) (at_ : W64) (es : List OmapEntry) (s : State) : Host.Outcome State Fault
    Refusal :=
  s.run (fun b => b.doPlacement h g at_ es)

/-- DIGEST_REPORT (R539). -/
def execDigestReport (h : DmHdr) (g : GrpHdr) (items : List DigestItem) (s : State) : Host.Outcome State Fault Refusal
    :=
  s.run (fun b => b.doDigestReport h g items)

/-- MAINT_REQ (R541). -/
def execMaintReq (h : DmHdr) (g : GrpHdr) (kind : BitVec 2) (arg : BitVec 12) (s : State) : Host.Outcome State Fault
    Refusal :=
  s.run (fun b => b.doMaintReq h g kind arg)

/-- MAINT_GRANT (R541). -/
def execMaintGrant (h : DmHdr) (g : GrpHdr) (kind : BitVec 2) (arg : BitVec 12) (tick : W64) (s : State) :
    Host.Outcome State Fault Refusal :=
  s.run (fun b => b.doMaintGrant h g kind arg tick)

/-- MAINT_DONE (R541). -/
def execMaintDone (h : DmHdr) (g : GrpHdr) (kind : BitVec 2) (arg : BitVec 12) (unplanned : Bool) (s : State) :
    Host.Outcome State Fault Refusal :=
  s.run (fun b => b.doMaintDone h g kind arg unplanned)

/-- SNAP_AT (R651). -/
def execSnapAt (h : DmHdr) (g : GrpHdr) (at_ : W64) (tag : BitVec 16) (s : State) : Host.Outcome State Fault Refusal
    :=
  s.run (fun b => b.doSnapAt h g at_ tag)

/-- DIGEST_PASS_END (R539). -/
def execDigestPassEnd (s : State) : Host.Outcome State Fault Refusal :=
  s.run (fun b => b.doDigestPassEnd)

/-- DEPUTY_WRITE (R521). -/
def execDeputyWrite (dep : BitVec 10) (valid : Bool) (s : State) : Host.Outcome State Fault Refusal :=
  s.run (fun b => b.doDeputyWrite dep valid)

/-- SVC_CMD_GO (R530). -/
def execSvcCmdGo (node : BitVec 10) (inSvc : Bool) (s : State) : Host.Outcome State Fault Refusal :=
  s.run (fun b => b.doSvcCmdGo node inSvc)

/-- OMAP_SEND (R536). -/
def execOmapSend (s : State) : Host.Outcome State Fault Refusal :=
  s.run (fun b => b.doOmapSend)

/-- MAINT_GO (R541). -/
def execMaintGo (kind : BitVec 2) (arg : BitVec 12) (s : State) : Host.Outcome State Fault Refusal :=
  s.run (fun b => b.doMaintGo kind arg)

/-- MAINT_DONE_CMD (R541). -/
def execMaintDoneCmd (s : State) : Host.Outcome State Fault Refusal :=
  s.run (fun b => b.doMaintDoneCmd)

/-- SN_GRP_GO (R651). -/
def execSnGrpGo (tag : BitVec 16) (s : State) : Host.Outcome State Fault Refusal :=
  s.run (fun b => b.doSnGrpGo tag)

end Sys2Proof.Machine
end

