-- ==== Sys2Proof/Machine/ExecTick.lean ====
section
/-! DEFINITION. Machine/ExecTick.lean: the meanings of the commands of the serving tick and of Bracken:
one definition for each command, which acts on the module as its `do` definition says. -/

namespace Sys2Proof.Machine

/-- TICK_BOUNDARY (R14). -/
def execTickBoundary (ns : W64) (s : State) : Host.Outcome State Fault Refusal :=
  s.run (fun b => b.doTickBoundary ns)

/-- TRANSIENT_WINDOW_CLEAR (R553). -/
def execTransientWindowClear (s : State) : Host.Outcome State Fault Refusal :=
  s.run (fun b => b.doTransientWindowClear)

/-- HOLDOVER_EXPIRE (R47). -/
def execHoldoverExpire (s : State) : Host.Outcome State Fault Refusal :=
  s.run (fun b => b.doHoldoverExpire)

/-- REFERENCE_LOST (R510). -/
def execReferenceLost (s : State) : Host.Outcome State Fault Refusal :=
  s.run (fun b => b.doReferenceLost)

/-- REFERENCE_REGAINED (R47). -/
def execReferenceRegained (d : W64) (s : State) : Host.Outcome State Fault Refusal :=
  s.run (fun b => b.doReferenceRegained d)

/-- CLOCK_LOCKED (R47). -/
def execClockLocked (d : W64) (s : State) : Host.Outcome State Fault Refusal :=
  s.run (fun b => b.doClockLocked d)

/-- RESYNC_BOUNDARY (R49). -/
def execResyncBoundary (m ns : W64) (s : State) : Host.Outcome State Fault Refusal :=
  s.run (fun b => b.doResyncBoundary m ns)

/-- TICK_ENABLE (R47). -/
def execTickEnable (s : State) : Host.Outcome State Fault Refusal :=
  s.run (fun b => b.doTickEnable)

/-- TICK_DISABLE (R47). -/
def execTickDisable (s : State) : Host.Outcome State Fault Refusal :=
  s.run (fun b => b.doTickDisable)

/-- EPOCH_LOAD (R22). -/
def execEpochLoad (s : State) : Host.Outcome State Fault Refusal :=
  s.run (fun b => b.doEpochLoad)

/-- TK_PERIOD_AT_WRITE (R17). -/
def execTkPeriodAtWrite (v : W64) (s : State) : Host.Outcome State Fault Refusal :=
  s.run (fun b => b.doTkPeriodAtWrite v)

/-- PLAN_CLOSE (R29). -/
def execPlanClose (m : W64) (hints : PlanHints) (s : State) : Host.Outcome State Fault Refusal :=
  s.run (fun b => b.doPlanClose m hints)

/-- PAGE_LOAD_END (R121). -/
def execPageLoadEnd (l : LTile) (page : BitVec 4) (s : State) : Host.Outcome State Fault Refusal :=
  s.run (fun b => b.doPageLoadEnd l page)

/-- SEED_READ_RETURN (R256). -/
def execSeedReadReturn (p : SiteIx) (index : BitVec 5) (s : State) : Host.Outcome State Fault Refusal :=
  s.run (fun b => b.doSeedReadReturn p index)

/-- ABORT_DRAIN_END (R38). -/
def execAbortDrainEnd (l : LTile) (s : State) : Host.Outcome State Fault Refusal :=
  s.run (fun b => b.doAbortDrainEnd l)

/-- TL_RETIRE_GO (R61). -/
def execTlRetireGo (ltile : BitVec 9) (site : BitVec 5) (cause : BitVec 4) (s : State) : Host.Outcome State Fault
    Refusal :=
  s.run (fun b => b.doTlRetireGo ltile site cause)

/-- RETIREMENT_COPY_END (R62). -/
def execRetirementCopyEnd (region : Fin 32) (s : State) : Host.Outcome State Fault Refusal :=
  s.run (fun b => b.doRetirementCopyEnd region)

/-- DOORBELL_NOTIFY (R446). -/
def execDoorbellNotify (q : BitVec 10) (s : State) : Host.Outcome State Fault Refusal :=
  s.run (fun b => b.doDoorbellNotify q)

/-- RING_ENTRY_FETCH (R446). -/
def execRingEntryFetch (q : BitVec 10) (far : Option (List Byte)) (s : State) : Host.Outcome State Fault Refusal :=
  s.run (fun b => b.doRingEntryFetch q far)

/-- STALE_ENTRY_REREAD (R446). -/
def execStaleEntryReread (t : BitVec 10 ⊕ Fin 8) (far : Option (List Byte)) (s : State) : Host.Outcome State Fault
    Refusal :=
  s.run (fun b => b.doStaleEntryReread t far)

/-- QUEUE_ENABLE (R440). -/
def execQueueEnable (q : BitVec 10) (skip : BitVec 32) (s : State) : Host.Outcome State Fault Refusal :=
  s.run (fun b => b.doQueueEnable q skip)

/-- QUEUE_DISABLE (R440). -/
def execQueueDisable (q : BitVec 10) (s : State) : Host.Outcome State Fault Refusal :=
  s.run (fun b => b.doQueueDisable q)

/-- QUEUE_PARK (R440). -/
def execQueuePark (q : BitVec 10) (s : State) : Host.Outcome State Fault Refusal :=
  s.run (fun b => b.doQueuePark q)

/-- QUEUE_RESUME (R440). -/
def execQueueResume (q : BitVec 10) (skip : BitVec 32) (s : State) : Host.Outcome State Fault Refusal :=
  s.run (fun b => b.doQueueResume q skip)

/-- BRACKEN_ENABLE (R665). -/
def execBrackenEnable (s : State) : Host.Outcome State Fault Refusal :=
  s.run (fun b => b.doBrackenEnable)

/-- BRACKEN_DISABLE (R665). -/
def execBrackenDisable (s : State) : Host.Outcome State Fault Refusal :=
  s.run (fun b => b.doBrackenDisable)

/-- WATCH_READ_RETURN (R448). -/
def execWatchReadReturn (q : BitVec 10) (s : State) : Host.Outcome State Fault Refusal :=
  s.run (fun b => b.doWatchReadReturn q)

/-- WATCH_NOTIFY (R448). -/
def execWatchNotify (q : BitVec 10) (s : State) : Host.Outcome State Fault Refusal :=
  s.run (fun b => b.doWatchNotify q)

/-- WATCH_POLL (R448). -/
def execWatchPoll (q : BitVec 10) (s : State) : Host.Outcome State Fault Refusal :=
  s.run (fun b => b.doWatchPoll q)

/-- WAIT_TIMEOUT (R449). -/
def execWaitTimeout (q : BitVec 10) (s : State) : Host.Outcome State Fault Refusal :=
  s.run (fun b => b.doWaitTimeout q)

/-- WORK_DOORBELL (R451). -/
def execWorkDoorbell (h : Fin 8) (prod : BitVec 32) (s : State) : Host.Outcome State Fault Refusal :=
  s.run (fun b => b.doWorkDoorbell h prod)

/-- WORK_ROWS (R452). -/
def execWorkRows (tag prog key : BitVec 32) (rows : BitVec 7) (va : BitVec 48) (s : State) : Host.Outcome State Fault
    Refusal :=
  s.run (fun b => b.doWorkRows tag prog key rows va)

/-- WORK_STEP (R459). -/
def execWorkStep (tag prog : BitVec 32) (va : BitVec 48) (last : Bool) (tile : Option LTile) (s : State) :
    Host.Outcome State Fault Refusal :=
  s.run (fun b => b.doWorkStep tag prog va last tile)

/-- WORK_CLOSE (R452). -/
def execWorkClose (tag : BitVec 32) (s : State) : Host.Outcome State Fault Refusal :=
  s.run (fun b => b.doWorkClose tag)

/-- WORK_DONE (R452). -/
def execWorkDone (tag : BitVec 32) (status : BitVec 8) (s : State) : Host.Outcome State Fault Refusal :=
  s.run (fun b => b.doWorkDone tag status)

/-- STEP_RELEASED (R505). -/
def execStepReleased (tag : BitVec 32) (p : SiteIx) (s : State) : Host.Outcome State Fault Refusal :=
  s.run (fun b => b.doStepReleased tag p)

/-- COMPLETION_RECORD_WRITE (R464). -/
def execCompletionRecordWrite (tag : BitVec 32) (src : Option SiteIx) (s : State) : Host.Outcome State Fault Refusal
    :=
  s.run (fun b => b.doCompletionRecordWrite tag src)

/-- COMPLETION_INCREMENT (R464). -/
def execCompletionIncrement (tag : BitVec 32) (s : State) : Host.Outcome State Fault Refusal :=
  s.run (fun b => b.doCompletionIncrement tag)

/-- CONS_PUBLISH (R447). -/
def execConsPublish (q : BitVec 10) (s : State) : Host.Outcome State Fault Refusal :=
  s.run (fun b => b.doConsPublish q)

end Sys2Proof.Machine
end

