-- ==== Sys2Proof/Machine/ExecTile.lean ====
section
/-! DEFINITION. Machine/ExecTile.lean: the meanings of the Novger instructions and of what happens at a tile:
one definition for each command, which acts on the module as its `do` definition says. -/

namespace Sys2Proof.Machine

/-- SC_NOP (R136). -/
def execScNop (l : LTile) (rest : BitVec 54) (s : State) : Host.Outcome State Fault Refusal :=
  s.run (fun b => b.doScNop l rest)

/-- SC_ARITH (R137). -/
def execScArith (l : LTile) (f : FmtR) (s : State) : Host.Outcome State Fault Refusal :=
  s.run (fun b => b.doScArith l f)

/-- SC_ARITH_IMM (R137). -/
def execScArithImm (l : LTile) (f : FmtI) (s : State) : Host.Outcome State Fault Refusal :=
  s.run (fun b => b.doScArithImm l f)

/-- SC_LI (R139). -/
def execScLi (l : LTile) (f : FmtI) (s : State) : Host.Outcome State Fault Refusal :=
  s.run (fun b => b.doScLi l f)

/-- SC_LIH (R139). -/
def execScLih (l : LTile) (f : FmtI) (s : State) : Host.Outcome State Fault Refusal :=
  s.run (fun b => b.doScLih l f)

/-- SC_LD (R141). -/
def execScLd (l : LTile) (f : FmtI) (s : State) : Host.Outcome State Fault Refusal :=
  s.run (fun b => b.doScLd l f)

/-- SC_LD_RETURN (R142). -/
def execScLdReturn (l : LTile) (s : State) : Host.Outcome State Fault Refusal :=
  s.run (fun b => b.doScLdReturn l)

/-- SC_ST (R141). -/
def execScSt (l : LTile) (f : FmtI) (s : State) : Host.Outcome State Fault Refusal :=
  s.run (fun b => b.doScSt l f)

/-- SC_AADD (R143). -/
def execScAadd (l : LTile) (f : FmtR) (s : State) : Host.Outcome State Fault Refusal :=
  s.run (fun b => b.doScAadd l f)

/-- SC_CAS (R143). -/
def execScCas (l : LTile) (f : FmtR) (s : State) : Host.Outcome State Fault Refusal :=
  s.run (fun b => b.doScCas l f)

/-- SC_BR (R146). -/
def execScBr (l : LTile) (f : FmtB) (s : State) : Host.Outcome State Fault Refusal :=
  s.run (fun b => b.doScBr l f)

/-- SC_JAL (R147). -/
def execScJal (l : LTile) (f : FmtI) (s : State) : Host.Outcome State Fault Refusal :=
  s.run (fun b => b.doScJal l f)

/-- SC_JR (R147). -/
def execScJr (l : LTile) (f : FmtR) (s : State) : Host.Outcome State Fault Refusal :=
  s.run (fun b => b.doScJr l f)

/-- DSC_LD (R148). -/
def execDscLd (l : LTile) (f : FmtI) (s : State) : Host.Outcome State Fault Refusal :=
  s.run (fun b => b.doDscLd l f)

/-- DSC_ST (R148). -/
def execDscSt (l : LTile) (f : FmtI) (s : State) : Host.Outcome State Fault Refusal :=
  s.run (fun b => b.doDscSt l f)

/-- DSC_MV (R150). -/
def execDscMv (l : LTile) (f : FmtR) (s : State) : Host.Outcome State Fault Refusal :=
  s.run (fun b => b.doDscMv l f)

/-- DSC_PUT (R150). -/
def execDscPut (l : LTile) (f : FmtR) (s : State) : Host.Outcome State Fault Refusal :=
  s.run (fun b => b.doDscPut l f)

/-- DSC_GET (R150). -/
def execDscGet (l : LTile) (f : FmtR) (s : State) : Host.Outcome State Fault Refusal :=
  s.run (fun b => b.doDscGet l f)

/-- DSC_ADV (R150). -/
def execDscAdv (l : LTile) (f : FmtR) (s : State) : Host.Outcome State Fault Refusal :=
  s.run (fun b => b.doDscAdv l f)

/-- TCK_CNT (R152). -/
def execTckCnt (l : LTile) (f : FmtR) (s : State) : Host.Outcome State Fault Refusal :=
  s.run (fun b => b.doTckCnt l f)

/-- TCK_NS (R152). -/
def execTckNs (l : LTile) (f : FmtR) (ns : W64) (s : State) : Host.Outcome State Fault Refusal :=
  s.run (fun b => b.doTckNs l f ns)

/-- STP_CYC (R152). -/
def execStpCyc (l : LTile) (f : FmtR) (cyc : W64) (s : State) : Host.Outcome State Fault Refusal :=
  s.run (fun b => b.doStpCyc l f cyc)

/-- STP_END (R115). -/
def execStpEnd (l : LTile) (rest : BitVec 54) (s : State) : Host.Outcome State Fault Refusal :=
  s.run (fun b => b.doStpEnd l rest)

/-- SEM_SIG (R155). -/
def execSemSig (l : LTile) (f : FmtI) (s : State) : Host.Outcome State Fault Refusal :=
  s.run (fun b => b.doSemSig l f)

/-- SEM_WAIT (R156). -/
def execSemWait (l : LTile) (f : FmtI) (s : State) : Host.Outcome State Fault Refusal :=
  s.run (fun b => b.doSemWait l f)

/-- SEM_SUB (R157). -/
def execSemSub (l : LTile) (f : FmtI) (s : State) : Host.Outcome State Fault Refusal :=
  s.run (fun b => b.doSemSub l f)

/-- SEM_SET (R156). -/
def execSemSet (l : LTile) (f : FmtI) (s : State) : Host.Outcome State Fault Refusal :=
  s.run (fun b => b.doSemSet l f)

/-- SEM_RD (R156). -/
def execSemRd (l : LTile) (f : FmtI) (s : State) : Host.Outcome State Fault Refusal :=
  s.run (fun b => b.doSemRd l f)

/-- SIGNAL_ARRIVE (R102). -/
def execSignalArrive (src dst : LTile) (sem : Timed (BitVec 5)) (s : State) : Host.Outcome State Fault Refusal :=
  s.run (fun b => b.doSignalArrive src dst sem.val sem.same)

/-- TL_SEM_SIGNAL (R108). -/
def execTlSemSignal (l : LTile) (sem : Timed (BitVec 5)) (s : State) : Host.Outcome State Fault Refusal :=
  s.run (fun b => b.doTlSemSignal l sem.val sem.same)

/-- WT_MEM (R111). -/
def execWtMem (l : LTile) (f : FmtW) (s : State) : Host.Outcome State Fault Refusal :=
  s.run (fun b => b.doWtMem l f)

/-- WAIT_READ_RETURN (R111). -/
def execWaitReadReturn (l : LTile) (s : State) : Host.Outcome State Fault Refusal :=
  s.run (fun b => b.doWaitReadReturn l)

/-- WAIT_POLL_TIMER (R111). -/
def execWaitPollTimer (l : LTile) (s : State) : Host.Outcome State Fault Refusal :=
  s.run (fun b => b.doWaitPollTimer l)

/-- MEM_WAIT_TIMEOUT (R112). -/
def execMemWaitTimeout (l : LTile) (s : State) : Host.Outcome State Fault Refusal :=
  s.run (fun b => b.doMemWaitTimeout l)

/-- ENGINE_INSTRUCTION_START (R91). -/
def execEngineInstructionStart (l : LTile) (eng : Fin 6) (s : State) : Host.Outcome State Fault Refusal :=
  s.run (fun b => b.doEngineInstructionStart l eng)

/-- ENGINE_INSTRUCTION_COMPLETE (R102). -/
def execEngineInstructionComplete (l : LTile) (eng : Fin 6) (n : Timed Nat) (s : State) :
    Host.Outcome State Fault Refusal :=
  s.run (fun b => b.doEngineInstructionComplete l eng n.val n.same)

/-- DMA_CP (R161). -/
def execDmaCp (l : LTile) (t : FmtT) (s : State) : Host.Outcome State Fault Refusal :=
  s.run (fun b => b.doDmaCp l t)

/-- DMA_FILL (R163). -/
def execDmaFill (l : LTile) (t : FmtT) (s : State) : Host.Outcome State Fault Refusal :=
  s.run (fun b => b.doDmaFill l t)

/-- DMA_CMPL (R165). -/
def execDmaCmpl (l : LTile) (t : FmtT) (s : State) : Host.Outcome State Fault Refusal :=
  s.run (fun b => b.doDmaCmpl l t)

/-- TWL_MM (R175). -/
def execTwlMm (l : LTile) (t : FmtT) (s : State) : Host.Outcome State Fault Refusal :=
  s.run (fun b => b.doTwlMm l t)

/-- TWL_LD (R169). -/
def execTwlLd (l : LTile) (t : FmtT) (s : State) : Host.Outcome State Fault Refusal :=
  s.run (fun b => b.doTwlLd l t)

/-- TWL_LDM (R172). -/
def execTwlLdm (l : LTile) (t : FmtT) (s : State) : Host.Outcome State Fault Refusal :=
  s.run (fun b => b.doTwlLdm l t)

/-- TWILL_LOAD_COMPLETE (R170). -/
def execTwillLoadComplete (l : LTile) (s : State) : Host.Outcome State Fault Refusal :=
  s.run (fun b => b.doTwillLoadComplete l)

/-- MULTICAST_ROW_ARRIVE (R172). -/
def execMulticastRowArrive (row : Timed RowFrom) (s : State) : Host.Outcome State Fault Refusal :=
  s.run (fun b => b.doMulticastRowArrive row.val.l row.val.src row.same)

/-- TWILL_PASS_COMPLETE (R177). -/
def execTwillPassComplete (l : LTile) (us : List Upset) (s : State) : Host.Outcome State Fault Refusal :=
  s.run (fun b => b.doTwillPassComplete l us)

/-- REPLAY_START (R548). -/
def execReplayStart (l : LTile) (s : State) : Host.Outcome State Fault Refusal :=
  s.run (fun b => b.doReplayStart l)

/-- SAMPLE_SEND_TIMEOUT (R555). -/
def execSampleSendTimeout (p : SiteIx) (s : State) : Host.Outcome State Fault Refusal :=
  s.run (fun b => b.doSampleSendTimeout p)

/-- SAMPLE_RESULT (R556). -/
def execSampleResult (p : SiteIx) (twoEqual same pois : Bool) (referee : Option Bool) (s : State) : Host.Outcome State
    Fault Refusal :=
  s.run (fun b => b.doSampleResult p twoEqual same pois referee)

/-- FRD_EW (R179). -/
def execFrdEw (l : LTile) (t : FmtT) (s : State) : Host.Outcome State Fault Refusal :=
  s.run (fun b => b.doFrdEw l t)

/-- FRD_CHN (R283). -/
def execFrdChn (l : LTile) (t : FmtT) (s : State) : Host.Outcome State Fault Refusal :=
  s.run (fun b => b.doFrdChn l t)

/-- FRD_CVT (R185). -/
def execFrdCvt (l : LTile) (t : FmtT) (s : State) : Host.Outcome State Fault Refusal :=
  s.run (fun b => b.doFrdCvt l t)

/-- FRD_RED (R187). -/
def execFrdRed (l : LTile) (t : FmtT) (s : State) : Host.Outcome State Fault Refusal :=
  s.run (fun b => b.doFrdRed l t)

/-- FRD_TOPK (R190). -/
def execFrdTopk (l : LTile) (t : FmtT) (s : State) : Host.Outcome State Fault Refusal :=
  s.run (fun b => b.doFrdTopk l t)

/-- FRD_PERM (R192). -/
def execFrdPerm (l : LTile) (t : FmtT) (s : State) : Host.Outcome State Fault Refusal :=
  s.run (fun b => b.doFrdPerm l t)

/-- FRD_SHF (R194). -/
def execFrdShf (l : LTile) (t : FmtT) (s : State) : Host.Outcome State Fault Refusal :=
  s.run (fun b => b.doFrdShf l t)

/-- FRD_PACK (R196). -/
def execFrdPack (l : LTile) (t : FmtT) (s : State) : Host.Outcome State Fault Refusal :=
  s.run (fun b => b.doFrdPack l t)

/-- FRD_UNPK (R196). -/
def execFrdUnpk (l : LTile) (t : FmtT) (s : State) : Host.Outcome State Fault Refusal :=
  s.run (fun b => b.doFrdUnpk l t)

/-- MSS_BAG (R199). -/
def execMssBag (l : LTile) (t : FmtT) (s : State) : Host.Outcome State Fault Refusal :=
  s.run (fun b => b.doMssBag l t)

/-- MSS_RAW (R201). -/
def execMssRaw (l : LTile) (t : FmtT) (s : State) : Host.Outcome State Fault Refusal :=
  s.run (fun b => b.doMssRaw l t)

/-- MSS_UPD (R202). -/
def execMssUpd (l : LTile) (t : FmtT) (s : State) : Host.Outcome State Fault Refusal :=
  s.run (fun b => b.doMssUpd l t)

end Sys2Proof.Machine
end

