-- ==== Sys2Proof/Machine/Dispatch.lean ====
section
/-! DEFINITION. Machine/Dispatch.lean: which meaning each command has. -/

namespace Sys2Proof.Machine

/-- The effect of a command on everything but the queue. -/
def exec (i : Instr) (s : State) : Host.Outcome State Fault Refusal :=
  match i with
  | .tickBoundary ns => Sys2Proof.Machine.execTickBoundary ns s
  | .transientWindowClear => Sys2Proof.Machine.execTransientWindowClear s
  | .holdoverExpire => Sys2Proof.Machine.execHoldoverExpire s
  | .referenceLost => Sys2Proof.Machine.execReferenceLost s
  | .referenceRegained d => Sys2Proof.Machine.execReferenceRegained d s
  | .clockLocked d => Sys2Proof.Machine.execClockLocked d s
  | .resyncBoundary m ns => Sys2Proof.Machine.execResyncBoundary m ns s
  | .tickEnable => Sys2Proof.Machine.execTickEnable s
  | .tickDisable => Sys2Proof.Machine.execTickDisable s
  | .epochLoad => Sys2Proof.Machine.execEpochLoad s
  | .tkPeriodAtWrite v => Sys2Proof.Machine.execTkPeriodAtWrite v s
  | .planClose m hints => Sys2Proof.Machine.execPlanClose m hints s
  | .pageLoadEnd l page => Sys2Proof.Machine.execPageLoadEnd l page s
  | .seedReadReturn p index => Sys2Proof.Machine.execSeedReadReturn p index s
  | .abortDrainEnd l => Sys2Proof.Machine.execAbortDrainEnd l s
  | .tlRetireGo ltile site cause => Sys2Proof.Machine.execTlRetireGo ltile site cause s
  | .retirementCopyEnd region => Sys2Proof.Machine.execRetirementCopyEnd region s
  | .unmappedRegisterAccess src ctx off n write => Sys2Proof.Machine.execUnmappedRegisterAccess src ctx off n write s
  | .registerWrite lichen ctx off v => Sys2Proof.Machine.execRegisterWrite lichen ctx off v s
  | .presetRegisterWrite m preset expert share depth => Sys2Proof.Machine.execPresetRegisterWrite m preset expert share depth s
  | .scNop l rest => Sys2Proof.Machine.execScNop l rest s
  | .scArith l f => Sys2Proof.Machine.execScArith l f s
  | .scArithImm l f => Sys2Proof.Machine.execScArithImm l f s
  | .scLi l f => Sys2Proof.Machine.execScLi l f s
  | .scLih l f => Sys2Proof.Machine.execScLih l f s
  | .scLd l f => Sys2Proof.Machine.execScLd l f s
  | .scLdReturn l => Sys2Proof.Machine.execScLdReturn l s
  | .scSt l f => Sys2Proof.Machine.execScSt l f s
  | .scAadd l f => Sys2Proof.Machine.execScAadd l f s
  | .scCas l f => Sys2Proof.Machine.execScCas l f s
  | .scBr l f => Sys2Proof.Machine.execScBr l f s
  | .scJal l f => Sys2Proof.Machine.execScJal l f s
  | .scJr l f => Sys2Proof.Machine.execScJr l f s
  | .dscLd l f => Sys2Proof.Machine.execDscLd l f s
  | .dscSt l f => Sys2Proof.Machine.execDscSt l f s
  | .dscMv l f => Sys2Proof.Machine.execDscMv l f s
  | .dscPut l f => Sys2Proof.Machine.execDscPut l f s
  | .dscGet l f => Sys2Proof.Machine.execDscGet l f s
  | .dscAdv l f => Sys2Proof.Machine.execDscAdv l f s
  | .tckCnt l f => Sys2Proof.Machine.execTckCnt l f s
  | .tckNs l f ns => Sys2Proof.Machine.execTckNs l f ns s
  | .stpCyc l f cyc => Sys2Proof.Machine.execStpCyc l f cyc s
  | .stpEnd l rest => Sys2Proof.Machine.execStpEnd l rest s
  | .semSig l f => Sys2Proof.Machine.execSemSig l f s
  | .semWait l f => Sys2Proof.Machine.execSemWait l f s
  | .semSub l f => Sys2Proof.Machine.execSemSub l f s
  | .semSet l f => Sys2Proof.Machine.execSemSet l f s
  | .semRd l f => Sys2Proof.Machine.execSemRd l f s
  | .signalArrive src dst sem => Sys2Proof.Machine.execSignalArrive src dst sem s
  | .tlSemSignal l sem => Sys2Proof.Machine.execTlSemSignal l sem s
  | .wtMem l f => Sys2Proof.Machine.execWtMem l f s
  | .waitReadReturn l => Sys2Proof.Machine.execWaitReadReturn l s
  | .waitPollTimer l => Sys2Proof.Machine.execWaitPollTimer l s
  | .memWaitTimeout l => Sys2Proof.Machine.execMemWaitTimeout l s
  | .engineInstructionStart l eng => Sys2Proof.Machine.execEngineInstructionStart l eng s
  | .engineInstructionComplete l eng n => Sys2Proof.Machine.execEngineInstructionComplete l eng n s
  | .dmaCp l t => Sys2Proof.Machine.execDmaCp l t s
  | .dmaFill l t => Sys2Proof.Machine.execDmaFill l t s
  | .dmaCmpl l t => Sys2Proof.Machine.execDmaCmpl l t s
  | .twlMm l t => Sys2Proof.Machine.execTwlMm l t s
  | .twlLd l t => Sys2Proof.Machine.execTwlLd l t s
  | .twlLdm l t => Sys2Proof.Machine.execTwlLdm l t s
  | .twillLoadComplete l => Sys2Proof.Machine.execTwillLoadComplete l s
  | .multicastRowArrive row => Sys2Proof.Machine.execMulticastRowArrive row s
  | .twillPassComplete l us => Sys2Proof.Machine.execTwillPassComplete l us s
  | .replayStart l => Sys2Proof.Machine.execReplayStart l s
  | .sampleSendTimeout p => Sys2Proof.Machine.execSampleSendTimeout p s
  | .sampleResult p twoEqual same pois referee => Sys2Proof.Machine.execSampleResult p twoEqual same pois referee s
  | .frdEw l t => Sys2Proof.Machine.execFrdEw l t s
  | .frdChn l t => Sys2Proof.Machine.execFrdChn l t s
  | .frdCvt l t => Sys2Proof.Machine.execFrdCvt l t s
  | .frdRed l t => Sys2Proof.Machine.execFrdRed l t s
  | .frdTopk l t => Sys2Proof.Machine.execFrdTopk l t s
  | .frdPerm l t => Sys2Proof.Machine.execFrdPerm l t s
  | .frdShf l t => Sys2Proof.Machine.execFrdShf l t s
  | .frdPack l t => Sys2Proof.Machine.execFrdPack l t s
  | .frdUnpk l t => Sys2Proof.Machine.execFrdUnpk l t s
  | .mssBag l t => Sys2Proof.Machine.execMssBag l t s
  | .mssRaw l t => Sys2Proof.Machine.execMssRaw l t s
  | .mssUpd l t => Sys2Proof.Machine.execMssUpd l t s
  | .tableEntryReadReturn l => Sys2Proof.Machine.execTableEntryReadReturn l s
  | .partAccept m => Sys2Proof.Machine.execPartAccept m s
  | .recordReadReturn m k row => Sys2Proof.Machine.execRecordReadReturn m k row s
  | .partPooled m k => Sys2Proof.Machine.execPartPooled m k s
  | .pooledReturnArrive l tag => Sys2Proof.Machine.execPooledReturnArrive l tag s
  | .partTimeout l tag => Sys2Proof.Machine.execPartTimeout l tag s
  | .updateTimeout l seq => Sys2Proof.Machine.execUpdateTimeout l seq s
  | .applyPass m => Sys2Proof.Machine.execApplyPass m s
  | .msTdirInval => Sys2Proof.Machine.execMsTdirInval s
  | .memoryRequest src ctx pa op parity flip => Sys2Proof.Machine.execMemoryRequest src ctx pa op parity flip s
  | .regionCacheAccess r port ctx off w n hurt flip => Sys2Proof.Machine.execRegionCacheAccess r port ctx off w n hurt flip s
  | .cacheFillReturn r line => Sys2Proof.Machine.execCacheFillReturn r line s
  | .lockMaskWrite r mask => Sys2Proof.Machine.execLockMaskWrite r mask s
  | .rcPreloadGo r way addr => Sys2Proof.Machine.execRcPreloadGo r way addr s
  | .rcPreloadEnd r => Sys2Proof.Machine.execRcPreloadEnd r s
  | .lockWindowAccess src ctx r w op => Sys2Proof.Machine.execLockWindowAccess src ctx r w op s
  | .scrubRead off flip => Sys2Proof.Machine.execScrubRead off flip s
  | .memMapoutGo m ch => Sys2Proof.Machine.execMemMapoutGo m ch s
  | .migrationMove m => Sys2Proof.Machine.execMigrationMove m s
  | .peatPackageFail p => Sys2Proof.Machine.execPeatPackageFail p s
  | .memPprGo m ch pc bank row => Sys2Proof.Machine.execMemPprGo m ch pc bank row s
  | .pprComplete m ok spares => Sys2Proof.Machine.execPprComplete m ok spares s
  | .walkComplete site ctx va write stale => Sys2Proof.Machine.execWalkComplete site ctx va write stale s
  | .xlInvalGo scope ctx pages => Sys2Proof.Machine.execXlInvalGo scope ctx pages s
  | .invalidationArrive p => Sys2Proof.Machine.execInvalidationArrive p s
  | .drainReport p => Sys2Proof.Machine.execDrainReport p s
  | .invalidationComplete => Sys2Proof.Machine.execInvalidationComplete s
  | .xlTagSetGo first count tag => Sys2Proof.Machine.execXlTagSetGo first count tag s
  | .tagSetComplete => Sys2Proof.Machine.execTagSetComplete s
  | .xlTagRd g => Sys2Proof.Machine.execXlTagRd g s
  | .xlWinvalGo index all => Sys2Proof.Machine.execXlWinvalGo index all s
  | .windowRemovalComplete => Sys2Proof.Machine.execWindowRemovalComplete s
  | .doorbellNotify q => Sys2Proof.Machine.execDoorbellNotify q s
  | .ringEntryFetch q far => Sys2Proof.Machine.execRingEntryFetch q far s
  | .staleEntryReread t far => Sys2Proof.Machine.execStaleEntryReread t far s
  | .queueEnable q skip => Sys2Proof.Machine.execQueueEnable q skip s
  | .queueDisable q => Sys2Proof.Machine.execQueueDisable q s
  | .queuePark q => Sys2Proof.Machine.execQueuePark q s
  | .queueResume q skip => Sys2Proof.Machine.execQueueResume q skip s
  | .brackenEnable => Sys2Proof.Machine.execBrackenEnable s
  | .brackenDisable => Sys2Proof.Machine.execBrackenDisable s
  | .watchReadReturn q => Sys2Proof.Machine.execWatchReadReturn q s
  | .watchNotify q => Sys2Proof.Machine.execWatchNotify q s
  | .watchPoll q => Sys2Proof.Machine.execWatchPoll q s
  | .waitTimeout q => Sys2Proof.Machine.execWaitTimeout q s
  | .workDoorbell h prod => Sys2Proof.Machine.execWorkDoorbell h prod s
  | .workRows tag prog key rows va => Sys2Proof.Machine.execWorkRows tag prog key rows va s
  | .workStep tag prog va last tile => Sys2Proof.Machine.execWorkStep tag prog va last tile s
  | .workClose tag => Sys2Proof.Machine.execWorkClose tag s
  | .workDone tag status => Sys2Proof.Machine.execWorkDone tag status s
  | .stepReleased tag p => Sys2Proof.Machine.execStepReleased tag p s
  | .completionRecordWrite tag src => Sys2Proof.Machine.execCompletionRecordWrite tag src s
  | .completionIncrement tag => Sys2Proof.Machine.execCompletionIncrement tag s
  | .consPublish q => Sys2Proof.Machine.execConsPublish q s
  | .frameReceive sub f => Sys2Proof.Machine.execFrameReceive sub f s
  | .pfcFrame sub pause resume => Sys2Proof.Machine.execPfcFrame sub pause resume s
  | .linkUp sub => Sys2Proof.Machine.execLinkUp sub s
  | .linkDown sub lanes => Sys2Proof.Machine.execLinkDown sub lanes s
  | .fecDegWindow sub errors bitsIn uncorr => Sys2Proof.Machine.execFecDegWindow sub errors bitsIn uncorr s
  | .msecInstall p k rx an => Sys2Proof.Machine.execMsecInstall p k rx an s
  | .msecDelete p k rx an => Sys2Proof.Machine.execMsecDelete p k rx an s
  | .msecActivate p k rx an => Sys2Proof.Machine.execMsecActivate p k rx an s
  | .qpEnable ins => Sys2Proof.Machine.execQpEnable ins s
  | .qpDisable ins => Sys2Proof.Machine.execQpDisable ins s
  | .rdmaWrite p t data => Sys2Proof.Machine.execRdmaWrite p t data s
  | .writeWithImmediate p t data imm => Sys2Proof.Machine.execWriteWithImmediate p t data imm s
  | .rdmaRead p t len full => Sys2Proof.Machine.execRdmaRead p t len full s
  | .send p data imm => Sys2Proof.Machine.execSend p data imm s
  | .fetchAndAdd p t v full => Sys2Proof.Machine.execFetchAndAdd p t v full s
  | .compareAndSwap p t v cmp full => Sys2Proof.Machine.execCompareAndSwap p t v cmp full s
  | .cnp p => Sys2Proof.Machine.execCnp p s
  | .cnpGapTimer ins => Sys2Proof.Machine.execCnpGapTimer ins s
  | .roceAck p => Sys2Proof.Machine.execRoceAck p s
  | .roceNak p syndrome => Sys2Proof.Machine.execRoceNak p syndrome s
  | .roceAckTimeout ins => Sys2Proof.Machine.execRoceAckTimeout ins s
  | .roceRnrRetry ins => Sys2Proof.Machine.execRoceRnrRetry ins s
  | .dmOpen h => Sys2Proof.Machine.execDmOpen h s
  | .dmClose h => Sys2Proof.Machine.execDmClose h s
  | .dmAck h sack ece => Sys2Proof.Machine.execDmAck h sack ece s
  | .dmReset h => Sys2Proof.Machine.execDmReset h s
  | .dmWrite h data => Sys2Proof.Machine.execDmWrite h data s
  | .dmRead h tag len => Sys2Proof.Machine.execDmRead h tag len s
  | .dmReadResp h tag status data => Sys2Proof.Machine.execDmReadResp h tag status data s
  | .dmAtomic h tag cas wide v cmp => Sys2Proof.Machine.execDmAtomic h tag cas wide v cmp s
  | .dmAtomicResp h tag status old pois => Sys2Proof.Machine.execDmAtomicResp h tag status old pois s
  | .dmWriteErr h seq status path => Sys2Proof.Machine.execDmWriteErr h seq status path s
  | .dmRemoteBag h g raw parts => Sys2Proof.Machine.execDmRemoteBag h g raw parts s
  | .dmPooledReturn h l items => Sys2Proof.Machine.execDmPooledReturn h l items s
  | .dmUpdate h g cs => Sys2Proof.Machine.execDmUpdate h g cs s
  | .dmUpdateAck h l acks => Sys2Proof.Machine.execDmUpdateAck h l acks s
  | .ackDelayTimer node path => Sys2Proof.Machine.execAckDelayTimer node path s
  | .damaskRetransmitTimer path seq => Sys2Proof.Machine.execDamaskRetransmitTimer path seq s
  | .pathIdleClose path => Sys2Proof.Machine.execPathIdleClose path s
  | .ptpFrameReceive sub t frame => Sys2Proof.Machine.execPtpFrameReceive sub t frame s
  | .ptpTransmit prod times => Sys2Proof.Machine.execPtpTransmit prod times s
  | .ptpTimeStep t => Sys2Proof.Machine.execPtpTimeStep t s
  | .ppsInEdge t => Sys2Proof.Machine.execPpsInEdge t s
  | .ppsOut => Sys2Proof.Machine.execPpsOut s
  | .heartbeat h g m => Sys2Proof.Machine.execHeartbeat h g m s
  | .heartbeatMissed node k => Sys2Proof.Machine.execHeartbeatMissed node k s
  | .digestLate node k => Sys2Proof.Machine.execDigestLate node k s
  | .epoch h g e => Sys2Proof.Machine.execEpoch h g e s
  | .takeover h g l => Sys2Proof.Machine.execTakeover h g l s
  | .service h g inSvc cause => Sys2Proof.Machine.execService h g inSvc cause s
  | .placement h g at_ es => Sys2Proof.Machine.execPlacement h g at_ es s
  | .digestReport h g items => Sys2Proof.Machine.execDigestReport h g items s
  | .maintReq h g kind arg => Sys2Proof.Machine.execMaintReq h g kind arg s
  | .maintGrant h g kind arg tick => Sys2Proof.Machine.execMaintGrant h g kind arg tick s
  | .maintDone h g kind arg unplanned => Sys2Proof.Machine.execMaintDone h g kind arg unplanned s
  | .snapAt h g at_ tag => Sys2Proof.Machine.execSnapAt h g at_ tag s
  | .digestPassEnd => Sys2Proof.Machine.execDigestPassEnd s
  | .deputyWrite dep valid => Sys2Proof.Machine.execDeputyWrite dep valid s
  | .svcCmdGo node inSvc => Sys2Proof.Machine.execSvcCmdGo node inSvc s
  | .omapSend => Sys2Proof.Machine.execOmapSend s
  | .maintGo kind arg => Sys2Proof.Machine.execMaintGo kind arg s
  | .maintDoneCmd => Sys2Proof.Machine.execMaintDoneCmd s
  | .faultRecord => Sys2Proof.Machine.execFaultRecord s
  | .faultIrq => Sys2Proof.Machine.execFaultIrq s
  | .overflowClear => Sys2Proof.Machine.execOverflowClear s
  | .contextClear ctx => Sys2Proof.Machine.execContextClear ctx s
  | .swrecGo cause level aux => Sys2Proof.Machine.execSwrecGo cause level aux s
  | .inputPowerPresent mesh lid => Sys2Proof.Machine.execInputPowerPresent mesh lid s
  | .powerRemoval => Sys2Proof.Machine.execPowerRemoval s
  | .pwrEnAssert inRange => Sys2Proof.Machine.execPwrEnAssert inRange s
  | .pwrEnDeassert => Sys2Proof.Machine.execPwrEnDeassert s
  | .railsInRegulation => Sys2Proof.Machine.execRailsInRegulation s
  | .overvoltage => Sys2Proof.Machine.execOvervoltage s
  | .overvoltageRecovery => Sys2Proof.Machine.execOvervoltageRecovery s
  | .short => Sys2Proof.Machine.execShort s
  | .overcurrent => Sys2Proof.Machine.execOvercurrent s
  | .openPair => Sys2Proof.Machine.execOpenPair s
  | .openPairRecover => Sys2Proof.Machine.execOpenPairRecover s
  | .cDieRailFault die => Sys2Proof.Machine.execCDieRailFault die s
  | .railFault rail => Sys2Proof.Machine.execRailFault rail s
  | .uvWarn => Sys2Proof.Machine.execUvWarn s
  | .uvDwellTimer => Sys2Proof.Machine.execUvDwellTimer s
  | .uvRecoverTimer => Sys2Proof.Machine.execUvRecoverTimer s
  | .uvReset => Sys2Proof.Machine.execUvReset s
  | .capWindow avg => Sys2Proof.Machine.execCapWindow avg s
  | .pwClkWrite mhz => Sys2Proof.Machine.execPwClkWrite mhz s
  | .dieTempWarn die t => Sys2Proof.Machine.execDieTempWarn die t s
  | .dieStepRecover die => Sys2Proof.Machine.execDieStepRecover die s
  | .thermDieTrip die => Sys2Proof.Machine.execThermDieTrip die s
  | .thermModuleTrip pt => Sys2Proof.Machine.execThermModuleTrip pt s
  | .coolantCondition c holds => Sys2Proof.Machine.execCoolantCondition c holds s
  | .coolantRecover => Sys2Proof.Machine.execCoolantRecover s
  | .tileReset target => Sys2Proof.Machine.execTileReset target s
  | .regionReset target => Sys2Proof.Machine.execRegionReset target s
  | .regionSleep target => Sys2Proof.Machine.execRegionSleep target s
  | .regionWake target => Sys2Proof.Machine.execRegionWake target s
  | .moduleResetCmd flush => Sys2Proof.Machine.execModuleResetCmd flush s
  | .resetReady => Sys2Proof.Machine.execResetReady s
  | .resetPin => Sys2Proof.Machine.execResetPin s
  | .moduleReset code => Sys2Proof.Machine.execModuleReset code s
  | .moduleResetRelease fails => Sys2Proof.Machine.execModuleResetRelease fails s
  | .lichenCommit => Sys2Proof.Machine.execLichenCommit s
  | .storeWriteFail => Sys2Proof.Machine.execStoreWriteFail s
  | .sensorPoll sen reading => Sys2Proof.Machine.execSensorPoll sen reading s
  | .setEndpointId eid => Sys2Proof.Machine.execSetEndpointId eid s
  | .getEndpointId => Sys2Proof.Machine.execGetEndpointId s
  | .getMctpVersionSupport => Sys2Proof.Machine.execGetMctpVersionSupport s
  | .getMessageTypeSupport => Sys2Proof.Machine.execGetMessageTypeSupport s
  | .pldmBaseCommand cmd arg => Sys2Proof.Machine.execPldmBaseCommand cmd arg s
  | .pldmSensorRead sen => Sys2Proof.Machine.execPldmSensorRead sen s
  | .pldmFirmwareTransfer x => Sys2Proof.Machine.execPldmFirmwareTransfer x s
  | .activateFirmware c => Sys2Proof.Machine.execActivateFirmware c s
  | .svPolicyWrite sid v => Sys2Proof.Machine.execSvPolicyWrite sid v s
  | .getVersion => Sys2Proof.Machine.execGetVersion s
  | .getCapabilities => Sys2Proof.Machine.execGetCapabilities s
  | .negotiateAlgorithms => Sys2Proof.Machine.execNegotiateAlgorithms s
  | .getDigests => Sys2Proof.Machine.execGetDigests s
  | .getCertificate slot => Sys2Proof.Machine.execGetCertificate slot s
  | .challenge slot => Sys2Proof.Machine.execChallenge slot s
  | .getMeasurements ix signed => Sys2Proof.Machine.execGetMeasurements ix signed s
  | .keyExchange => Sys2Proof.Machine.execKeyExchange s
  | .finish sid ok => Sys2Proof.Machine.execFinish sid ok s
  | .endSession sid => Sys2Proof.Machine.execEndSession sid s
  | .fwActivate c => Sys2Proof.Machine.execFwActivate c s
  | .fwRevert c => Sys2Proof.Machine.execFwRevert c s
  | .fwReadyBracken => Sys2Proof.Machine.execFwReadyBracken s
  | .brackenReadyTimeout => Sys2Proof.Machine.execBrackenReadyTimeout s
  | .fwReadyRt => Sys2Proof.Machine.execFwReadyRt s
  | .runtimeReadyTimeout => Sys2Proof.Machine.execRuntimeReadyTimeout s
  | .lichenRestart => Sys2Proof.Machine.execLichenRestart s
  | .tamperAlarm active => Sys2Proof.Machine.execTamperAlarm active s
  | .svTestTrigger => Sys2Proof.Machine.execSvTestTrigger s
  | .reattest fail => Sys2Proof.Machine.execReattest fail s
  | .snTrigGo => Sys2Proof.Machine.execSnTrigGo s
  | .snapIn masked => Sys2Proof.Machine.execSnapIn masked s
  | .snapshotCopyEnd => Sys2Proof.Machine.execSnapshotCopyEnd s
  | .snapshotArm => Sys2Proof.Machine.execSnapshotArm s
  | .snGrpGo tag => Sys2Proof.Machine.execSnGrpGo tag s
  | .memoryBringupEnd m noSpare rows fail => Sys2Proof.Machine.execMemoryBringupEnd m noSpare rows fail s
  | .peatBringupEnd fail => Sys2Proof.Machine.execPeatBringupEnd fail s
  | .tileBringupEnd found => Sys2Proof.Machine.execTileBringupEnd found s
  | .cacheBringupEnd => Sys2Proof.Machine.execCacheBringupEnd s
  | .bringupRelease ms fails => Sys2Proof.Machine.execBringupRelease ms fails s
  | .tapEnable sid => Sys2Proof.Machine.execTapEnable sid s
  | .tapDisable => Sys2Proof.Machine.execTapDisable s
  | .bypass => Sys2Proof.Machine.execBypass s
  | .idcode => Sys2Proof.Machine.execIdcode s
  | .samplePreload pins load => Sys2Proof.Machine.execSamplePreload pins load s
  | .extest => Sys2Proof.Machine.execExtest s
  | .instrNet => Sys2Proof.Machine.execInstrNet s
  | .rcRead src ctx off => Sys2Proof.Machine.execRcRead src ctx off s
  | .recoveryLevelReached recovery => Sys2Proof.Machine.execRecoveryLevelReached recovery s
  | .stackOrNDieTempWarn pt hot => Sys2Proof.Machine.execStackOrNDieTempWarn pt hot s
  | .pllsLocked => Sys2Proof.Machine.execPllsLocked s
  | .restoreEnd => Sys2Proof.Machine.execRestoreEnd s
  | .i3cDynamicAddress a => Sys2Proof.Machine.execI3cDynamicAddress a s
  | .mgmtNeighbourSolicitation target => Sys2Proof.Machine.execMgmtNeighbourSolicitation target s

end Sys2Proof.Machine
end

