-- ==== Sys2Proof/Safety.lean ====
section
/-! DEFINITION. Safety.lean: what a run of the module may be said to keep (the queue is served in order, memory stays in
its canonical form), and the words the statements use for "the command runs and leaves this" and for what it leaves alone. -/

namespace Sys2Proof
open Machine Machine.Reg

/-- From `s`, the commands that wait are all served, one a step, and the run does not stop. -/
def serves (s : Machine.State) : Prop := ∃ t, core.run s.pending.length s = .next t ∧ t.pending = []

/-- Memory is in its canonical form: two states with equal contents have equal memories. -/
def memCanonical (s : Machine.State) : Prop := s.m.mem.wf = true

/-- Command `i` runs at `s`: exec answers a next state, the queue is as it was, and `P` holds of the module it leaves. -/
def Runs (i : Instr) (s : Machine.State) (P : Block → Prop) : Prop :=
  ∃ t, exec i s = .next t ∧ t.pending = s.pending ∧ P t.m

/-! ### What a command leaves alone -/

/-- Every register field reads as before, but those whose keys (`Field.key`: field, block instance, index) are listed. -/
def RegsBut (ks : List Nat) (a b : Block) : Prop := ∀ (f : Field) (i j : Nat), f.key i j ∉ ks → b.rd f i j = a.rd f i j

/-- Every site is as before, but those listed. -/
def SitesBut (ps : List Nat) (a b : Block) : Prop := ∀ q, q ∉ ps → b.site q = a.site q

/-- Of the whole module (memory, tags, queues, logs, outputs, every unit) nothing but register fields and sites differs. -/
def RestKept (a b : Block) : Prop := { b with regs := a.regs, sites := a.sites } = a

/-- Nothing differs but the listed register fields and the listed sites: every byte of memory reads as before. -/
def Only (a b : Block) (ks ps : List Nat) : Prop := RegsBut ks a b ∧ SitesBut ps a b ∧ RestKept a b

/-! ### A tile that is ready for its next instruction -/

/-- Logical tile `l` is served by site `p`, whose running step may issue its next instruction now (R91, R122): the
sequencer does not hold, the instruction page of the program counter is loaded, the word there is an instruction's, and no
register write is owed. -/
structure Ready (a : Block) (l p : Nat) : Prop where
  served : a.served l = true
  site : a.siteOf l = p
  running : a.rd TL_STATUS.RUN p = 1
  step : (a.site p).run.isSome = true
  noLoad : (a.site p).pend = none
  notEnding : (a.site p).ending = false
  notStopped : (a.site p).stopped = false
  notSwapping : (a.site p).swapWait = false
  notCopying : (a.site p).copying = false
  inRange : (a.site p).pcOver = false
  loaded : a.on TL_IMEM_PAGE.LOADING p (a.pcOf p / 512) = false
  valid : a.on TL_IMEM_PAGE.VALID p (a.pcOf p / 512) = true
  assigned : wordAssigned (SMap.get 0 (a.site p).imem (a.pcOf p)) = true
  settled : a.regQ = []

/-- No engine has yet to write one of these scalar registers (R92). -/
def Free (a : Block) (p : Nat) (rs : List Nat) : Prop := ∀ r ∈ rs, r ∉ (a.site p).pendReg

/-- The instruction at site `p` has completed: the site is `g` of what it was, the program counter moved on by one (after
index 8,191 the site notes that the next fetch is out of range, R96), and nothing else differs but the register fields `ks`. -/
def Completes (a b : Block) (p : Nat) (ks : List Nat) (g : Site → Site) : Prop :=
  b.site p = (if a.pcOf p = 8191 then { g (a.site p) with pcOver := true } else g (a.site p)) ∧
  b.pcOf p = (if a.pcOf p = 8191 then 8191 else (a.pcOf p + 1) % 2 ^ 13) ∧
  Only a b (TL_STATUS.PC.key p 0 :: ks) [p]

/-- The instruction raises a precise exception at the program counter of site `p` (R124): code, and the address it names. -/
def Raises (i : Instr) (s : Machine.State) (p code va : Nat) : Prop :=
  exec i s = .next { s with m := (s.m.raisePc p code va).drainRegs }

/-! ### Engines 1 to 5 -/

/-- Engine instruction `i` has been taken from the program and started (R91): it is in flight, the scalar register it will
write is owed (R92), the program counter has moved on. -/
def launch (a : Block) (p : Nat) (i : EngIns) : Block :=
  (a.onSite p (fun x => { x with
    flight := x.flight ++ [i], nextId := x.nextId + 1
    pendReg := if i.sd = 0 then x.pendReg else NSet.add x.pendReg i.sd })).advance p

/-- Nothing of engine `i.eng` is queued, in flight or half done, no instruction has the number of `i`, and no register of
another engine's instruction stands in the way (R91, R93). -/
structure RoomFor (a : Block) (p : Nat) (i : EngIns) : Prop where
  queue : ∀ j ∈ (a.site p).queue, j.eng ≠ i.eng ∧ j.id ≠ i.id
  flight : ∀ j ∈ (a.site p).flight, j.eng ≠ i.eng ∧ j.id ≠ i.id
  runs : ∀ r ∈ (a.site p).runs, r.ins.eng ≠ i.eng ∧ r.ins.id ≠ i.id
  score : a.scoreStall p i = false

/-- Instruction `c` starts as engine instruction `i`: it is launched, `run` performs it, and the step ends if `stp.end` waited
for it. -/
def Starts (c : Instr) (s : Machine.State) (p : Nat) (i : EngIns) (run : Block → Nat → EngIns → Block) : Prop :=
  exec c s = .next { s with m := ((run (launch s.m p i) p i).tryEnd p).drainRegs }

/-- Nothing of the module waits for its next boundary: no site has a step or a list, no retirement, reset, activation, period
change, snapshot, owner map change or table update is pending, the group block is off, and no register write is owed. -/
structure Quiet (a : Block) : Prop where
  steps : ∀ p, (a.site p).run = none ∧ (a.site p).todo = [] ∧ (a.site p).overAdd = 0
  lists : ∀ p, (a.site p).bank0.steps = [] ∧ (a.site p).bank1.steps = []
  retires : a.retires = []
  resets : a.rst = none ∧ a.mrst.pending = none
  acts : a.lc.acts = []
  snaps : a.rd SN_AT.AT_TICK = 0 ∧ a.rd SN_GRP_CMD.PEND = 0
  period : a.rd TK_PERIOD_AT.AT_TICK = 0
  group : a.on GRP_CTRL.ENABLE = false ∧ a.grp.omapAt = none
  merges : a.moss.merge = []
  placed : a.bk.placed = []
  settled : a.regQ = []

/-- No engine of the site has an instruction queued or in flight, and no signal waits for an update of its semaphore. -/
def Idle (a : Block) (p : Nat) : Prop := (a.site p).queue = [] ∧ (a.site p).flight = [] ∧ (a.site p).semNow = []

/-- Engine instruction `i` has started at site `p` and has written its last result: it stands done in flight (R102). -/
def StandsDone (a b : Block) (p : Nat) (i : EngIns) : Prop :=
  (b.site p).flight = (a.site p).flight ++ [{ i with done := true }]

/-- Tile registers of site `p` but those listed hold what they held, marks included. -/
def TilesBut (ts : List Nat) (a b : Block) (p : Nat) : Prop := ∀ t r c, t ∉ ts → r < 64 → c < 64 →
  (b.site p).tw t r c = (a.site p).tw t r c ∧ (b.site p).tpoisAt t r c = (a.site p).tpoisAt t r c

/-- The register fields that count saturations (R264, R265). -/
def satKeys (p : Nat) : List Nat :=
  [FR_SAT_CNT.SATURATIONS.key p 0, FR_SAT_FIRST.VALID.key p 0, FR_SAT_FIRST.SRC.key p 0, FR_SAT_FIRST.PC.key p 0,
   FR_SAT_FIRST.CTX.key p 0, FR_SAT_FIRST.TICK_LO.key p 0, FR_SAT_FIRST.MORE.key p 0]

/-- A Frond operation on tile registers has started and is done (R178): it is the step's next Frond instruction, it wrote no
tile register but those listed, no scalar or descriptor register, and nothing outside the tile. -/
structure RegOpDone (a b : Block) (p : Nat) (i : EngIns) (ts : List Nat) : Prop where
  done : StandsDone a b p i
  number : (b.site p).frondQ = (a.site p).frondQ + 1
  others : TilesBut ts a b p
  scalars : (b.site p).sreg = (a.site p).sreg ∧ (b.site p).dreg = (a.site p).dreg
  rest : Only a b (TL_STATUS.PC.key p 0 :: satKeys p) [p]

/-! ### A RoCEv2 request -/

/-- Request `p`, well-formed, reaches queue pair `q`, which is READY, with the PSN expected next; no port protects its frames, and no
register write is owed. -/
structure InOrder (a : Block) (p : RocePkt) (q : Qp) : Prop where
  takes : a.netTakes p.sub = true
  icrc : p.icrc = true
  low : 0x1000 ≤ p.qpn.toNat
  high : p.qpn.toNat < 0x2000
  pair : a.qp (p.qpn.toNat - 0x1000) = some q
  ready : q.st = 1
  formed : p.malformed = false
  notMarked : p.ce = false
  expected : q.psnAt p.psn.toNat = 0
  clear : ∀ i, a.on DM_PCTRL.MSEC_EN i = false
  settled : a.regQ = []

/-- The target of a request of `n` bytes, at most 16, lies at local offset `o` of HBM through a cached physical window that
`perm` lets it use: inside one 16-byte word of a stack that serves, whose tag passes, with no copy in any cache. -/
structure AtHbm (a : Block) (p : RocePkt) (t : RoceTarget) (q : Qp) (w : WinE) (perm : WinE → Bool) (o n : Nat) : Prop where
  cached : a.wins.find? (fun w => w.die == dieOfSub p.sub && w.index == t.key.toNat % 2 ^ 13) = some w
  key : w.keychk = t.key.toNat / 2 ^ 13
  domain : w.pd = q.pd
  permitted : perm w = true
  phys : w.phys = true
  start : o = (t.addr.toNat + 2 ^ 64 - w.start) % 2 ^ 64
  some_ : 0 < n
  inside : o + n ≤ w.length ∧ o + n ≤ 2 ^ 46
  word : o % 16 + n ≤ 16
  stack : ∃ m k, a.place o = .hbm m k ∧ a.rd MEM_STATUS.STATE m ≠ 3
  tag : tagPasses (a.tagAt o) w.ctx = true
  uncached : a.rc = [] ∧ a.sf = []

/-- The packet a queue pair sends (R478, R479, R481, R482). -/
def packet (a : Block) (q : Qp) (op : Nat) (args : List Nat) (data : List Byte) : Out :=
  .roce q.destQpn op ([a.qpSub q.i, q.cls, q.addr, 0xC000 + q.i, a.gateway (a.qpSub q.i)] ++ a.marks q.cls ++ args) data

/-! ### A Damask message -/

/-- The receiver takes message `h`, from a node it knows (R488), and no register write is owed. -/
structure Takes (a : Block) (h : DmHdr) : Prop where
  takes : a.netTakes h.sub = true
  version : h.ver.toNat = 1
  here : h.dst.toNat = a.rd XL_NODE.SELF
  sender : a.nodeAddr h.node.toNat = some h.addr.toNat
  settled : a.regQ = []

/-- Message `h` is the next one of receive path `r`, on which nothing is out of order (R492, R493). -/
structure NextMsg (a : Block) (h : DmHdr) (r : RecvPath) : Prop extends Takes a h where
  path : a.recvOf h.node.toNat h.path.toNat = some r
  next : h.seq.toNat = (r.cum + 1) % 2 ^ 32
  fresh : r.got = [] ∧ r.perf = [] ∧ r.held = []

/-- Message `h` has been taken and is to be performed: it is counted, and its SEQ is noted on its path (R492). -/
def taken (a : Block) (h : DmHdr) : Block :=
  (((a.inc DM_MSG_CNT.RX).onRecv h.node.toNat h.path.toNat (fun r => { r with port := h.sub.val, ece := r.ece || h.ce })).onRecv
    h.node.toNat h.path.toNat (fun r => { r with got := NSet.add r.got h.seq.toNat }))

/-- Message `h` has been performed: its path stands at its SEQ and owes an ACK (R494). -/
def Performed (b : Block) (h : DmHdr) : Prop :=
  ∃ y, b.recvOf h.node.toNat h.path.toNat = some y ∧ y.cum = h.seq.toNat ∧ y.dirty = true ∧ y.got = [] ∧ y.perf = []

/-- Message `h` is the next one of its path and carries a group control message with header `g` from a member of this
module's group (R522). -/
structure GroupMsg (a : Block) (h : DmHdr) (r : RecvPath) (g : GrpHdr) : Prop extends NextMsg a h r where
  on : a.grpOn = true
  member : a.grpForeign g = false

/-! ### Lichen's log -/

/-- The latest entry of Lichen's log, of those `a` did not hold, is an event of this code and argument, written while the
tick was that of `a` (R619, R620). -/
def Logged (a b : Block) (code arg : Nat) : Prop :=
  b.rd LC_STATUS.LOG_SEQ = (a.rd LC_STATUS.LOG_SEQ + 1) % 2 ^ 32 ∧
  ∃ e, (b.rd LC_STATUS.LOG_SEQ % 16384, e) ∈ b.lc.log ∧ e.seq = b.rd LC_STATUS.LOG_SEQ ∧ e.code = code ∧
    e.arg = arg % 2 ^ 64 ∧ e.tick = a.now

/-- The register fields that an entry in Lichen's log changes. -/
def logKeys : List Nat := [LC_STATUS.LOG_SEQ.key 0 0, LC_STATUS.LOG_WRAPS.key 0 0]

/-! ### A module reset -/

/-- Fields of class M, T or C that a module reset writes after it has cleared them (R12, R212, R370, R375, R600). -/
def resetWritten : List Field :=
  [MEM_CHMAP.EFFECTIVE, MEM_PKGMAP.EFFECTIVE, MS_CTRL.BAG_SHARE, MS_CTRL.QDEPTH, MS_CTRL.EXPERT_EN, TW_REPAIR.EFF_EN,
   TW_REPAIR.EFF_ROW, TW_LAT.LAT]

/-- What a module reset leaves (R596, R597, R602, R608): every field of class M, T or C reads its reset value, but those a
reset computes; the maps in force are those pending; no site runs or holds anything; every block is idle and empty. -/
structure Cleared (b : Block) : Prop where
  fields : ∀ f ∈ allFields, f.cls = .m ∨ f.cls = .t ∨ f.cls = .c → f ∉ resetWritten → ∀ i j, b.rd f i j = f.resetAt i j
  chmaps : ∀ m < 12, b.rd MEM_CHMAP.EFFECTIVE m = b.rd MEM_CHMAP.PENDING m % 2 ^ 32
  pkgmaps : ∀ c < 4, b.rd MEM_PKGMAP.EFFECTIVE (12 + c) = b.rd MEM_PKGMAP.PENDING (12 + c) % 2 ^ MEM_PKGMAP.EFFECTIVE.width
  sites : ∀ p < 576, (b.site p).run = none ∧ (b.site p).todo = [] ∧ (b.site p).queue = [] ∧ (b.site p).flight = [] ∧
    (b.site p).imem = [] ∧ (b.site p).tlb = [] ∧ (b.site p).bank0 = PlanBank.empty ∧ (b.site p).bank1 = PlanBank.empty
  bracken : b.bk = Bracken.empty
  moss : b.moss = Moss.empty
  caches : b.rc = [] ∧ b.sf = [] ∧ b.tags = []
  tables : b.stlb = [] ∧ b.cctx = [] ∧ b.wins = [] ∧ b.inval = none
  network : b.qps = [] ∧ b.dm.send = [] ∧ b.dm.recv = [] ∧ b.ports = Ports.empty
  pending : b.heldQ = [] ∧ b.sigs = [] ∧ b.retires = [] ∧ b.rst = none ∧ b.terminated = [] ∧ b.isolated = []
  boundaries : b.tick.fatal = false

/-- The maps of every stack and package in force are those pending, and no stack migrates: a module reset that starts now
keeps the contents of HBM and peat (R370, R375, R402, R597). -/
def MapsKept (a : Block) : Prop :=
  (∀ m < 12, a.rd MEM_CHMAP.EFFECTIVE m = a.rd MEM_CHMAP.PENDING m ∧ a.rd MEM_STATUS.STATE m ≠ 2) ∧
  ∀ c < 4, a.rd MEM_PKGMAP.EFFECTIVE (12 + c) = a.rd MEM_PKGMAP.PENDING (12 + c)

end Sys2Proof
end

