-- ==== Sys2Proof/Certificates/Slice0/Obligations.lean ====
section
/-! DEFINITION. Certificates/Slice0/Obligations.lean: the statements for the provers, family by family: what each command does,
what it leaves alone, and what holds of the machine as a whole. Each one names the rules it formalises. -/

open Sys2Proof Sys2Proof.Machine Sys2Proof.Machine.Reg

/-- A step takes the command at the front of the queue and runs it with the queue's rest; with no command waiting the module
idles (the model's choice, log 2). The table gives no command bits, so no word spells one. -/
def Obligations.StepRunsTheFrontCommand : Prop :=
  (∀ (c : Instr) (rest : List Instr) (s : State), step { s with pending := c :: rest } = exec c { s with pending := rest }) ∧
  (∀ s : State, s.pending = [] → step s = .next s) ∧
  (∀ (s : State) (nbits w : Nat), decodeTableWord nbits w = none ∧ s.withFetchWord nbits w = s)

/-- Every command completes: exec answers a next state with the queue as it was; so the commands that wait are served in their
order, one a step, whatever they are. -/
def Obligations.EveryCommandCompletes : Prop :=
  (∀ (c : Instr) (s : State), Runs c s (fun _ => True)) ∧
  (∀ (s : State) (c : Instr) (rest : List Instr), s.pending = c :: rest → ∃ t, step s = .next t ∧ t.pending = rest) ∧
  ∀ s : State, serves s

/-- R6, R595, R601, R654: the module at power-up: every register field reads its reset value (of those that the table states as
numbers, the number), the standby domain has no power yet, the cause is POWER_ON, no site runs a step, no command waits, and
memory has its canonical form. -/
def Obligations.ResetState : Prop :=
  (let m := State.reset.m
   (∀ f i j, m.rd f i j = f.resetAt i j) ∧ m.rd TK_COUNT.COUNT = 0 ∧ m.rd TK_STATUS.STATE = 0 ∧ m.rd FLT_SEQ.NEXT = 1 ∧
   m.rd PW_RST_CAUSE.CAUSE = 1 ∧ m.rd PW_CTRL.UV_WARN_DV = 460 ∧ m.rd SV_POLICY.P_LID_MESH = 2 ∧ m.rd SN_CTRL.SRC_EN = 127 ∧
   (∀ l < 512, m.siteOf l = l / 16 * 18 + l % 16 ∧ m.tileOf (m.siteOf l) = l) ∧
   m.mrst.on = true ∧ m.mrst.causes = [1] ∧ m.pw.input = false ∧ m.out = [] ∧ m.faultQ = [] ∧
   (∀ p, (m.site p).run = none) ∧ State.reset.pending = [] ∧ memCanonical State.reset)

/-- Memory keeps its canonical form (addresses strictly rising, no byte listed that is what it reads as unlisted) through every
step, whatever the command: two states with equal contents of memory have equal memories. -/
def Obligations.MemoryStaysCanonical : Prop := ∀ s t : State, memCanonical s → step s = .next t → memCanonical t

/-- What has left the module stays as it was sent, and no free value is drawn twice: every step only appends to the outputs and
never turns the count of free values back. -/
def Obligations.HistoryIsKept : Prop := ∀ s t : State, step s = .next t → s.m.out <+: t.m.out ∧ s.m.free ≤ t.m.free

/-- R137, R138: what each FN of the scalar arithmetic computes; arithmetic wraps modulo 2⁶⁴ and a shift takes b[5:0].
R136 to R139, R152: `sc.nop`, the arithmetic in both forms, `sc.li`, `sc.lih`, `tck.cnt`, `tck.ns` and `stp.cyc` write
their result into s[SD] (a write to s0 is discarded), move on by one, and change nothing else (`stp.cyc` also shows the
cycles in TL_STEP.CYCLES, saturating).
R84: s0 reads as 0 and ignores writes; any other scalar register reads as the value last written to it, and a write
of one leaves the others alone.
R150, R151: `dsc.mv`, `dsc.put`, `dsc.get` and `dsc.adv` do their operation on the descriptor registers and change
nothing else. -/
def Obligations.ScalarArithmetic : Prop :=
  (
   ∀ a b : W64,
  scFn 0 a b = a + b ∧ scFn 1 a b = a - b ∧ scFn 2 a b = a &&& b ∧ scFn 3 a b = a ||| b ∧ scFn 4 a b = a ^^^ b ∧
  scFn 5 a b = a <<< (b.toNat % 64) ∧ scFn 6 a b = a >>> (b.toNat % 64) ∧ scFn 7 a b = a.sshiftRight (b.toNat % 64) ∧
  (scFn 8 a b).toNat = a.toNat * b.toNat % 2 ^ 64 ∧ (scFn 9 a b).toNat = a.toNat * b.toNat / 2 ^ 64 ∧
  scFn 10 a b = (if a.toInt < b.toInt then 1 else 0) ∧ scFn 11 a b = (if a.toNat < b.toNat then 1 else 0) ∧
  (scFn 12 a b).toInt = min a.toInt b.toInt ∧ (scFn 13 a b).toInt = max a.toInt b.toInt ∧
  (scFn 14 a b).toNat = min a.toNat b.toNat ∧ (scFn 15 a b).toNat = max a.toNat b.toNat
  ) ∧
  (
   ∀ (s : State) (l : LTile) (p : Nat), Ready s.m l p →
  Runs (.scNop l 0) s (fun b => Completes s.m b p [] id) ∧
  (∀ f : FmtR, f.res = 0 → f.fn.toNat < 16 → Free s.m p [f.sd.toNat, f.sa.toNat, f.sb.toNat] →
    Runs (.scArith l f) s (fun b => Completes s.m b p [] (fun x =>
      x.setS f.sd.toNat (scFn f.fn.toNat (s.m.sreg p f.sa.toNat) (s.m.sreg p f.sb.toNat)).toNat))) ∧
  (∀ f : FmtI, f.fn.toNat < 16 → Free s.m p [f.sd.toNat, f.sa.toNat] →
    Runs (.scArithImm l f) s (fun b => Completes s.m b p [] (fun x =>
      x.setS f.sd.toNat (scFn f.fn.toNat (s.m.sreg p f.sa.toNat) (f.imm.signExtend 64)).toNat))) ∧
  (∀ f : FmtI, f.fn = 0 → f.sa = 0 → Free s.m p [f.sd.toNat] →
    Runs (.scLi l f) s (fun b => Completes s.m b p [] (fun x => x.setS f.sd.toNat (f.imm.signExtend 64).toNat)) ∧
    Runs (.scLih l f) s (fun b => Completes s.m b p [] (fun x =>
      x.setS f.sd.toNat (f.imm ++ (s.m.sreg p f.sd.toNat).truncate 32).toNat))) ∧
  (∀ f : FmtR, onlySd f = true → Free s.m p [f.sd.toNat] →
    (∀ r, (s.m.site p).run = some r →
      Runs (.tckCnt l f) s (fun b => Completes s.m b p [] (fun x => x.setS f.sd.toNat r.tick))) ∧
    (∀ ns, Runs (.tckNs l f ns) s (fun b => Completes s.m b p [] (fun x => x.setS f.sd.toNat ns.toNat))) ∧
    (∀ cyc, Runs (.stpCyc l f cyc) s (fun b =>
      Completes s.m b p [TL_STEP.CYCLES.key p 0] (fun x => x.setS f.sd.toNat cyc.toNat) ∧
      b.rd TL_STEP.CYCLES p = min cyc.toNat (2 ^ 32 - 1))))
  ) ∧
  (
   ∀ (x : Site) (n k v : Nat), n < 32 → k < 32 →
  x.s 0 = 0 ∧ x.setS 0 v = x ∧ (n ≠ 0 → (x.setS n v).s n = v % 2 ^ 64) ∧ (k ≠ n → (x.setS n v).s k = x.s k)
  ) ∧
  (
   ∀ (s : State) (l : LTile) (p : Nat) (f : FmtR), Ready s.m l p → f.res = 0 →
  f.sb = 0 →
  (f.fn = 0 → f.sd.toNat < 16 → f.sa.toNat < 16 →
    Runs (.dscMv l f) s (fun b => Completes s.m b p [] (fun x => x.setD f.sd.toNat (x.d f.sa.toNat)))) ∧
  (f.fn.toNat < 4 → f.sd.toNat < 16 → Free s.m p [f.sa.toNat] →
    Runs (.dscPut l f) s (fun b => Completes s.m b p [] (fun x =>
      x.setD f.sd.toNat (setBits (x.d f.sd.toNat) (64 * f.fn.toNat) 64 (x.s f.sa.toNat))))) ∧
  (f.fn.toNat < 4 → f.sa.toNat < 16 → Free s.m p [f.sd.toNat] →
    Runs (.dscGet l f) s (fun b => Completes s.m b p [] (fun x =>
      x.setS f.sd.toNat (x.d f.sa.toNat / 2 ^ (64 * f.fn.toNat) % 2 ^ 64)))) ∧
  (f.fn = 0 → f.sd.toNat < 16 → Free s.m p [f.sa.toNat] →
    Runs (.dscAdv l f) s (fun b => Completes s.m b p [] (fun x =>
      x.setD f.sd.toNat (setBits (x.d f.sd.toNat) 0 48 ((x.d f.sd.toNat % 2 ^ 48 + x.s f.sa.toNat) % 2 ^ 48)))))
  )

/-- R145 to R147: a branch not taken moves on by one; a taken branch, `sc.jal` and `sc.jr` go to their target where it lies
in 0 to 8,191; the link register receives the index after the jump; a target outside raises PC_RANGE and writes no link. -/
def Obligations.BranchesAndJumps : Prop := ∀ (s : State) (l : LTile) (p : Nat), Ready s.m l p → s.m.pcOf p ≤ 8191 →
  (∀ f : FmtB, f.res = 0 → f.cond.toNat < 7 → (f.cond = 6 → f.sa = 0 ∧ f.sb = 0) → Free s.m p [f.sa.toNat, f.sb.toNat] →
    (brTaken f.cond.toNat (s.m.sreg p f.sa.toNat) (s.m.sreg p f.sb.toNat) = false →
      Runs (.scBr l f) s (fun b => Completes s.m b p [] id)) ∧
    (brTaken f.cond.toNat (s.m.sreg p f.sa.toNat) (s.m.sreg p f.sb.toNat) = true →
      (∀ t : Nat, (t : Int) = s.m.pcOf p + f.off.toInt → t ≤ 8191 →
        Runs (.scBr l f) s (fun b => b.pcOf p = t ∧ Only s.m b [TL_STATUS.PC.key p 0] [])) ∧
      ((s.m.pcOf p + f.off.toInt < 0 ∨ 8191 < s.m.pcOf p + f.off.toInt) →
        Raises (.scBr l f) s p xPcRange 0))) ∧
  (∀ f : FmtI, f.fn = 0 → f.sa = 0 → Free s.m p [f.sd.toNat] →
    (∀ t : Nat, (t : Int) = s.m.pcOf p + f.imm.toInt → t ≤ 8191 →
      Runs (.scJal l f) s (fun b => b.pcOf p = t ∧ b.site p = (s.m.site p).setS f.sd.toNat (s.m.pcOf p + 1) ∧
        Only s.m b [TL_STATUS.PC.key p 0] [p])) ∧
    ((s.m.pcOf p + f.imm.toInt < 0 ∨ 8191 < s.m.pcOf p + f.imm.toInt) →
      Raises (.scJal l f) s p xPcRange 0)) ∧
  (∀ f : FmtR, f.res = 0 → f.fn = 0 → f.sb = 0 → Free s.m p [f.sd.toNat, f.sa.toNat] →
    ((s.m.sreg p f.sa.toNat).toNat ≤ 8191 →
      Runs (.scJr l f) s (fun b => b.pcOf p = (s.m.sreg p f.sa.toNat).toNat ∧
        b.site p = (s.m.site p).setS f.sd.toNat (s.m.pcOf p + 1) ∧ Only s.m b [TL_STATUS.PC.key p 0] [p])) ∧
    (8191 < (s.m.sreg p f.sa.toNat).toNat →
      Raises (.scJr l f) s p xPcRange 0))

/-- R140 to R142, R148, R149, R380: a load of the tile's own local store holds the sequencer with the n bytes at
s[SA] + sext(IMM), little-endian, where no earlier write of the tile to their line is held; `dsc.ld` reads 32 bytes; a word in
its poisoned form makes the value poisoned; nothing else changes.
R141, R142, R148, R149: when a load's value returns, the scalar register takes it zero- or sign-extended (the descriptor
register all 256 bits), and the sequencer goes on; a poisoned value raises POISON and no register is written. A load of a
virtual address that translates and is read without an exception holds the bytes read.
R141, R148, R500 to R502: a store to the tile's own local store that waits for no earlier write writes exactly the n low bytes of
s[SD] (of d[SD], 32 bytes) at s[SA] + sext(IMM), keeps a poisoned word poisoned where it writes a part of it, and leaves
every other byte, every register field but the program counter and every other site as they were.
R143, R144: an atomic of this module's memory, aligned, translated and waiting for no earlier write, is performed as one access of the owning memory
under the step's context (`Block.matomic`, at the offset of the translated address) with s[SB], and s[SD] for `sc.cas`, cut
to the width; the sequencer holds for the old value, zero-extended, marked as memory answered it. -/
def Obligations.LocalStoreAccesses : Prop :=
  (
   ∀ (s : State) (l : LTile) (p : Nat) (f : FmtI) (a : Nat), Ready s.m l p →
  a = s.m.ea p f → Free s.m p [f.sd.toNat, f.sa.toNat] →
  (∀ n : Nat, f.fn.toNat < 8 → n = 2 ^ (f.fn.toNat % 4) → a % n = 0 → a + n ≤ 0x300000 →
    s.m.lineHeld l (s.m.ownPa l a) n = [] →
    (s.m.mem.word (lsKey p a / 16)).dev = 0 ∨ (s.m.mem.word (lsKey p a / 16)).dev = 0xFFFF →
    Runs (.scLd l f) s (fun b => Only s.m b [] [p] ∧
      b.site p = { s.m.site p with
        pend := some { kind := 0, dst := f.sd.toNat, exc := 0, va := a, signed := f.fn.toNat / 4 % 2 == 1, width := n,
                       value := leNat (s.m.mem.loadBs (lsKey p a) n),
                       poison := (s.m.mem.word (lsKey p a / 16)).dev == 0xFFFF, ready := true } })) ∧
  (f.fn = 0 → f.sd.toNat < 16 → a % 32 = 0 → a + 32 ≤ 0x300000 → s.m.lineHeld l (s.m.ownPa l a) 32 = [] →
    (∀ k < 2, (s.m.mem.word (lsKey p a / 16 + k)).dev = 0) →
    Runs (.dscLd l f) s (fun b => Only s.m b [] [p] ∧
      b.site p = { s.m.site p with
        pend := some { kind := 1, dst := f.sd.toNat, exc := 0, va := a, signed := false, width := 32,
                       value := leNat (s.m.mem.loadBs (lsKey p a) 32), poison := false, ready := true } }))
  ) ∧
  (
   ∀ (s : State) (l : LTile) (p : Nat), s.m.siteOf l = p → s.m.regQ = [] →
  (∀ x, (s.m.site p).pend = some x → x.ready = true → x.exc = 0 →
    (x.poison = false → x.kind ≠ 1 → Runs (.scLdReturn l) s (fun b =>
      Completes s.m b p [] (fun y => { y with pend := none }.setS x.dst
        (if x.signed then ofInt 64 (toInt (8 * x.width) x.value) else x.value % 2 ^ (8 * x.width))))) ∧
    (x.poison = false → x.kind = 1 → Runs (.scLdReturn l) s (fun b =>
      Completes s.m b p [] (fun y => { y with pend := none }.setD x.dst x.value))) ∧
    (x.poison = true → exec (.scLdReturn l) s = .next { s with
      m := ((s.m.onSite p (fun y => { y with pend := none })).raisePc p xPoison (x.va % 2 ^ 48)).drainRegs })) ∧
  (∀ f : FmtI, Ready s.m l p → Free s.m p [f.sd.toNat, f.sa.toNat] → 8 ≤ f.fn.toNat → f.fn.toNat < 16 →
    s.m.ea p f % 2 ^ (f.fn.toNat % 4) = 0 →
    ∀ r b', s.m.vread p (s.m.ctxOf p) (s.m.clsOf p) l (s.m.ea p f) (2 ^ (f.fn.toNat % 4)) (.load p) = (r, b') →
      r.exc = 0 → b'.regQ = [] →
      Runs (.scLd l f) s (fun b => ∃ x, b = b'.onSite p (fun y => { y with pend := some x }) ∧ x.kind = 0 ∧
        x.dst = f.sd.toNat ∧ x.value = leNat r.bytes ∧ x.poison = r.pois ∧ x.width = 2 ^ (f.fn.toNat % 4)))
  ) ∧
  (
   ∀ (s : State) (l : LTile) (p : Nat) (f : FmtI) (a : Nat), Ready s.m l p →
  a = s.m.ea p f → Free s.m p [f.sd.toNat, f.sa.toNat] →
  f.fn.toNat < 48 →
  (∀ n : Nat, n = 2 ^ (f.fn.toNat % 4) → f.fn.toNat / 4 % 4 = 0 → a % n = 0 → a + n ≤ 0x300000 →
    s.m.relWaits l (s.m.ctxOf p) (f.fn.toNat / 16) (s.m.ownPa l a) n = [] →
    (s.m.mem.word (lsKey p a / 16)).dev = 0 ∨ (s.m.mem.word (lsKey p a / 16)).dev = 0xFFFF →
    Runs (.scSt l f) s (fun b =>
      (∀ k, b.mem.loadB k = if lsKey p a ≤ k ∧ k < lsKey p a + n
        then BitVec.ofNat 8 ((s.m.sreg p f.sd.toNat).toNat / 2 ^ (8 * (k - lsKey p a))) else s.m.mem.loadB k) ∧
      b.mem.dev = SMap.set 0 s.m.mem.dev (lsKey p a / 16) (s.m.mem.word (lsKey p a / 16)).dev ∧
      Completes s.m { b with mem := s.m.mem } p [] id)) ∧
  (f.fn.toNat % 16 = 0 → f.sd.toNat < 16 → a % 32 = 0 → a + 32 ≤ 0x300000 →
    s.m.relWaits l (s.m.ctxOf p) (f.fn.toNat / 16) (s.m.ownPa l a) 32 = [] →
    Runs (.dscSt l f) s (fun b =>
      (∀ k, b.mem.loadB k = if lsKey p a ≤ k ∧ k < lsKey p a + 32
        then BitVec.ofNat 8 ((s.m.site p).d f.sd.toNat / 2 ^ (8 * (k - lsKey p a))) else s.m.mem.loadB k) ∧
      Completes s.m { b with mem := s.m.mem } p [] id))
  ) ∧
  (
   ∀ (s : State) (l : LTile) (p : Nat) (f : FmtR) (n va : Nat), Ready s.m l p →
  Free s.m p [f.sd.toNat, f.sa.toNat, f.sb.toNat] → f.res = 0 → f.fn.toNat < 6 → n = 4 + 4 * (f.fn.toNat % 2) →
  va = (s.m.sreg p f.sa.toNat).toNat → va % n = 0 → (s.m.site p).replay = none →
  ∀ x b1, s.m.tileXl p (s.m.ctxOf p) va true = (x, b1) → x.cause = 0 → nodeOf x.pa = b1.rd XL_NODE.SELF →
  b1.relWaits l (s.m.ctxOf p) (f.fn.toNat / 2) x.pa n = [] → b1.heldTile (offOf x.pa) = none →
  ∀ (op : Nat) (i : Instr), (op = 0 ∧ i = .scAadd l f) ∨ (op = 1 ∧ i = .scCas l f) →
  ∀ old pois b2, b1.matomic (s.m.ctxOf p) (offOf x.pa) n op ((s.m.sreg p f.sb.toNat).toNat % 2 ^ (8 * n))
      ((s.m.sreg p f.sd.toNat).toNat % 2 ^ (8 * n)) = (old, pois, .ok, b2) →
    exec i s = .next { s with m := ((b2.logEffect p 0 [old]).onSite p (fun y => { y with
      pend := some { kind := 2, dst := f.sd.toNat, value := old, poison := pois, exc := 0, va := va, signed := false,
                     width := n, ready := true } })).drainRegs }
  )

/-- R95, R137, R139, R145, R148, R150, R152, R153: a scalar instruction with a field outside what its entry allows raises
ILLEGAL_INSTR and has no effect of its own.
R141, R143, R148: a misaligned address raises ALIGN, and an own-store access that reaches past 3 MiB raises
TRANSLATION; neither has any other effect.
R126, R128, R566: an exception is captured in TL_EXC and TL_EXC_ADDR if none is held there, marks TL_EXC.MORE if one
is, counts in TL_EXC_CNT (saturating, SEM_FAULT in its own count too), and sends one fault record of class 1 with its code,
context, tile and site. -/
def Obligations.ScalarExceptions : Prop :=
  (
   ∀ (s : State) (l : LTile) (p : Nat), Ready s.m l p →
  (∀ rest, rest ≠ 0 → Raises (.scNop l rest) s p xIllegal 0 ∧ Raises (.stpEnd l rest) s p xIllegal 0) ∧
  (∀ f : FmtR, (f.res ≠ 0 ∨ 16 ≤ f.fn.toNat → Raises (.scArith l f) s p xIllegal 0) ∧
    (f.res ≠ 0 ∨ f.fn ≠ 0 ∨ f.sb ≠ 0 → Raises (.scJr l f) s p xIllegal 0) ∧
    (f.res ≠ 0 ∨ 6 ≤ f.fn.toNat → Raises (.scAadd l f) s p xIllegal 0 ∧ Raises (.scCas l f) s p xIllegal 0) ∧
    (f.res ≠ 0 ∨ f.fn ≠ 0 ∨ f.sb ≠ 0 ∨ 16 ≤ f.sd.toNat →
      Raises (.dscMv l f) s p xIllegal 0 ∧ Raises (.dscAdv l f) s p xIllegal 0) ∧
    (f.res ≠ 0 ∨ 4 ≤ f.fn.toNat ∨ f.sb ≠ 0 ∨ 16 ≤ f.sd.toNat → Raises (.dscPut l f) s p xIllegal 0) ∧
    (f.res ≠ 0 ∨ 4 ≤ f.fn.toNat ∨ f.sb ≠ 0 ∨ 16 ≤ f.sa.toNat → Raises (.dscGet l f) s p xIllegal 0) ∧
    (f.res ≠ 0 ∨ f.fn ≠ 0 ∨ f.sa ≠ 0 ∨ f.sb ≠ 0 → Raises (.tckCnt l f) s p xIllegal 0 ∧
      (∀ ns, Raises (.tckNs l f ns) s p xIllegal 0) ∧ ∀ c, Raises (.stpCyc l f c) s p xIllegal 0)) ∧
  (∀ f : FmtI, (16 ≤ f.fn.toNat → Raises (.scArithImm l f) s p xIllegal 0 ∧ Raises (.scLd l f) s p xIllegal 0) ∧
    (64 ≤ f.fn.toNat ∨ f.fn.toNat / 4 % 2 = 1 ∨ f.fn.toNat / 16 % 4 = 3 → Raises (.scSt l f) s p xIllegal 0) ∧
    (f.fn.toNat ≠ 0 ∧ f.fn.toNat ≠ 8 → Raises (.dscLd l f) s p xIllegal 0) ∧
    (16 ≤ f.sd.toNat → Free s.m p [f.sa.toNat] → Raises (.dscLd l f) s p xIllegal 0) ∧
    (48 ≤ f.fn.toNat ∨ f.fn.toNat % 8 ≠ 0 ∨ 16 ≤ f.sd.toNat → Raises (.dscSt l f) s p xIllegal 0) ∧
    (f.fn ≠ 0 ∨ f.sa ≠ 0 → Raises (.scLi l f) s p xIllegal 0 ∧ Raises (.scLih l f) s p xIllegal 0 ∧
      Raises (.scJal l f) s p xIllegal 0)) ∧
  (∀ f : FmtB, f.res ≠ 0 ∨ 7 ≤ f.cond.toNat ∨ (f.cond = 6 ∧ (f.sa ≠ 0 ∨ f.sb ≠ 0)) →
    Raises (.scBr l f) s p xIllegal 0)
  ) ∧
  (
   ∀ (s : State) (l : LTile) (p : Nat), Ready s.m l p →
  (∀ f : FmtI, Free s.m p [f.sd.toNat, f.sa.toNat] →
    (f.fn.toNat < 16 → s.m.ea p f % 2 ^ (f.fn.toNat % 4) ≠ 0 → Raises (.scLd l f) s p xAlign (s.m.ea p f % 2 ^ 48)) ∧
    (f.fn.toNat < 8 → s.m.ea p f % 2 ^ (f.fn.toNat % 4) = 0 → 0x300000 < s.m.ea p f + 2 ^ (f.fn.toNat % 4) →
      Raises (.scLd l f) s p xTranslation (s.m.ea p f % 2 ^ 48)) ∧
    (f.fn.toNat < 48 → f.fn.toNat / 4 % 2 = 0 → s.m.ea p f % 2 ^ (f.fn.toNat % 4) ≠ 0 →
      Raises (.scSt l f) s p xAlign (s.m.ea p f % 2 ^ 48)) ∧
    (f.fn.toNat < 48 → f.fn.toNat / 4 % 4 = 0 → s.m.ea p f % 2 ^ (f.fn.toNat % 4) = 0 →
      0x300000 < s.m.ea p f + 2 ^ (f.fn.toNat % 4) → Raises (.scSt l f) s p xTranslation (s.m.ea p f % 2 ^ 48)) ∧
    (f.fn.toNat = 0 ∨ f.fn.toNat = 8 → f.sd.toNat < 16 → s.m.ea p f % 32 ≠ 0 →
      Raises (.dscLd l f) s p xAlign (s.m.ea p f % 2 ^ 48)) ∧
    (f.fn.toNat < 48 → f.fn.toNat % 8 = 0 → f.sd.toNat < 16 → s.m.ea p f % 32 ≠ 0 →
      Raises (.dscSt l f) s p xAlign (s.m.ea p f % 2 ^ 48))) ∧
  (∀ f : FmtR, Free s.m p [f.sd.toNat, f.sa.toNat, f.sb.toNat] → f.res = 0 → f.fn.toNat < 6 →
    (s.m.sreg p f.sa.toNat).toNat % (4 + 4 * (f.fn.toNat % 2)) ≠ 0 →
    Raises (.scAadd l f) s p xAlign ((s.m.sreg p f.sa.toNat).toNat % 2 ^ 48) ∧
    Raises (.scCas l f) s p xAlign ((s.m.sreg p f.sa.toNat).toNat % 2 ^ 48))
  ) ∧
  (
   ∀ (a : Block) (p code eng pc va : Nat) (fatal : Bool), code < 2 ^ 8 →
  (let b := a.captureExc p code eng pc va fatal
   (a.rd TL_EXC.VALID p = 0 → b.rd TL_EXC.VALID p = 1 ∧ b.rd TL_EXC.CODE p = code ∧ b.rd TL_EXC.ENG p = eng % 8 ∧
     b.rd TL_EXC.PC p = pc % 2 ^ 13 ∧ b.rd TL_EXC.CTX p = a.ctxOf p % 2 ^ 12 ∧ b.rd TL_EXC_ADDR.VA p = va % 2 ^ 48 ∧
     b.rd TL_EXC.MORE p = a.rd TL_EXC.MORE p) ∧
   (a.rd TL_EXC.VALID p = 1 → b.rd TL_EXC.MORE p = 1 ∧ b.rd TL_EXC.CODE p = a.rd TL_EXC.CODE p ∧
     b.rd TL_EXC.PC p = a.rd TL_EXC.PC p ∧ b.rd TL_EXC_ADDR.VA p = a.rd TL_EXC_ADDR.VA p) ∧
   b.rd TL_EXC_CNT.EXCEPTIONS p = min (a.rd TL_EXC_CNT.EXCEPTIONS p + 1) (2 ^ 32 - 1) ∧
   b.rd TL_EXC_CNT.SEM_FAULTS p = (if code = xSem then min (a.rd TL_EXC_CNT.SEM_FAULTS p + 1) (2 ^ 32 - 1)
     else a.rd TL_EXC_CNT.SEM_FAULTS p) ∧
   (∃ r, b.faultQ = a.faultQ ++ [r] ∧ r.cls = 1 ∧ r.cause = code ∧ r.site = p ∧ r.unit = a.tileOf p ∧
     r.ctx = some (a.ctxOf p) ∧ r.addr = va) ∧
   b.mem = a.mem ∧ b.sites = a.sites ∧ b.out = a.out)
  )

/-- R103 to R105, R155, R156: at a tile with idle engines, `sem.set` sets the count, `sem.sub` takes its amount from a count
that holds it, `sem.sig` on the tile itself adds its amount, `sem.wait` takes its amount where the count holds it and stays
queued with the count unchanged where it does not, `sem.rd` writes the count into s[SD]; a `sem.sig` of another tile sends
one signal.
R104, R106: one update of a semaphore for which no engine waits: its signal and those that arrived in its cycle are added,
then subtractions taken; a count that would leave 0 to 255 stops at the bound and raises SEM_FAULT, and no other count
changes.
R102, R104, R105, R108, R155: a signal from another tile, or a write of TL_SEM.SIGNAL, arrives at a serving tile that waits
on nothing: the count rises by its amount, or, in the cycle of a later update of its semaphore, the signal stands ready for
that update; the tile notes it came from outside; at a tile whose requests are held, it is held. A signal is no sooner there
than those its source sent the tile before.
R115, R116, R153: `stp.end` holds the sequencer while anything of the step is outstanding; once nothing is, the step
counts in TL_STEP.STEPS_ENDED, its command's plan is told, and the tile's next step starts. -/
def Obligations.SemaphoresAndStepEnd : Prop :=
  (
   ∀ (s : State) (l : LTile) (p : Nat) (f : FmtI), Ready s.m l p → Idle s.m p →
  s.m.tileOf p = l → s.m.sem p (f.fn.toNat % 32) ≤ 255 → f.fn.toNat < 32 → f.imm.toNat < 256 →
  (let k := f.fn.toNat
   let c := s.m.sem p k
   let n := f.imm.toNat
   let did := fun (b : Block) (v : Nat) (g : Site → Site) => b.sem p k = v ∧
     Completes s.m b p [TL_SEM.COUNT.key p k] (fun x => { g x with nextId := x.nextId + 1 })
   (f.sa = 0 → f.sd = 0 → Runs (.semSet l f) s (fun b => did b n id)) ∧
   (f.sa = 0 → f.sd = 0 → 0 < n → n ≤ c → Runs (.semSub l f) s (fun b => did b (c - n) id) ∧
     Runs (.semWait l f) s (fun b => did b (c - n) id)) ∧
   (f.sa = 0 → f.sd = 0 → c < n → Runs (.semWait l f) s (fun b => b.sem p k = c ∧ b.pcOf p = (if s.m.pcOf p = 8191 then 8191
     else (s.m.pcOf p + 1) % 2 ^ 13) ∧ (b.site p).queue = [s.m.capIns p .semWait 1 noT [k, n] 0] ∧ (b.site p).flight = [])) ∧
   (f.sd = 0 → 0 < n → Free s.m p [f.sa.toNat] → (s.m.sreg p f.sa.toNat).toNat = l → c + n ≤ 255 →
     Runs (.semSig l f) s (fun b => did b (c + n) id)) ∧
   (∀ t : LTile, f.sd = 0 → 0 < n → Free s.m p [f.sa.toNat] → (s.m.sreg p f.sa.toNat).toNat = t → t ≠ l →
     s.m.served t = true → (s.m.site p).replay = none → Runs (.semSig l f) s (fun b => b.sem p k = c ∧
       b.sigs = s.m.sigs ++ [⟨l, t, k, n, s.m.ctxOf p⟩] ∧ b.mem = s.m.mem ∧ Idle b p)) ∧
   (f.sa = 0 → n = 0 → Free s.m p [f.sd.toNat] → Runs (.semRd l f) s (fun b => did b c (fun x => x.setS f.sd.toNat c))))
  ) ∧
  (
   ∀ (a : Block) (p k sig sub : Nat) (set : Option Nat) (src : SemSrc), k < 32 →
  (a.site p).queue = [] →
  (let c := set.getD (a.sem p k) + (((a.site p).semNow.filter (fun x => x.sem == k)).map (·.amount)).sum + sig
   let spent := fun (b : Block) => (b.site p).semNow = (a.site p).semNow.filter (fun x => x.sem != k) ∧
     Only a b [TL_SEM.COUNT.key p k] [p]
   (sub ≤ c → c ≤ 255 + sub → (a.semCycle p k set sig sub src).sem p k = c - sub ∧ spent (a.semCycle p k set sig sub src)) ∧
   (255 + sub < c → ∃ b x, a.semCycle p k set sig sub src = b.semFault p k x ∧ b.sem p k = 255 ∧ spent b) ∧
   (c < sub → ∃ b x, a.semCycle p k set sig sub src = b.semFault p k x ∧ b.sem p k = 0 ∧ spent b))
  ) ∧
  (
   ∀ (s : State) (l src : LTile) (k : BitVec 5), s.m.regQ = [] →
  s.m.served l = true → (s.m.site (s.m.siteOf l)).queue = [] → (s.m.site (s.m.siteOf l)).semNow = [] →
  (let p := s.m.siteOf l
   let c := s.m.sem p k.toNat
   let noted := fun n => SMap.set 0 (s.m.site p).fromOut k.toNat (SMap.get 0 (s.m.site p).fromOut k.toNat + n)
   let got := fun (a b : Block) (n : Nat) => b.sem p k.toNat = c + n ∧ Only a b [TL_SEM.COUNT.key p k.toNat] [p] ∧
     b.site p = { s.m.site p with fromOut := noted n }
   let stands := fun (a b : Block) (n : Nat) (x : SemSrc) =>
     b = a.setSite p { s.m.site p with fromOut := noted n, semNow := [⟨k.toNat, n, x⟩] }
   (s.m.held l = false → (c + 1 ≤ 255 → Runs (.tlSemSignal l ⟨k, false⟩) s (fun b => got s.m b 1)) ∧
     Runs (.tlSemSignal l ⟨k, true⟩) s (fun b => stands s.m b 1 ⟨l, 2, 0, none⟩)) ∧
   (∀ same, s.m.held l = true → Runs (.tlSemSignal l ⟨k, same⟩) s (fun b =>
     b = { s.m with heldQ := s.m.heldQ ++ [(l.val, HeldReq.signal ⟨l, l, k.toNat, 1, 0⟩ 2)] })) ∧
   (∀ x, s.m.sigs.find? (fun x => x.src == src.val && x.dst == l.val) = some x →
     (let a := { s.m with sigs := s.m.sigs.erase x }
      (x.sem = k.toNat → s.m.held l = false →
        (c + x.amount ≤ 255 → Runs (.signalArrive src l ⟨k, false⟩) s (fun b => got a b x.amount)) ∧
        Runs (.signalArrive src l ⟨k, true⟩) s (fun b => stands a b x.amount ⟨src, 1, 0, none⟩)) ∧
      (x.sem = k.toNat → s.m.held l = true → ∀ same, Runs (.signalArrive src l ⟨k, same⟩) s (fun b =>
        b = { a with heldQ := s.m.heldQ ++ [(l.val, HeldReq.signal x 1)] })) ∧
      (x.sem ≠ k.toNat → ∀ same, Runs (.signalArrive src l ⟨k, same⟩) s (fun b => b = s.m)))))
  ) ∧
  (
   ∀ (s : State) (l : LTile) (p : Nat), Ready s.m l p →
  (s.m.quiet p = false → Runs (.stpEnd l 0) s (fun b => Only s.m b [] [p] ∧
    b.site p = { s.m.site p with ending := true })) ∧
  (∀ r, s.m.quiet p = true → (s.m.site p).run = some r → r.d.pack = false → (s.m.site p).replay = none →
    exec (.stpEnd l 0) s = .next { s with
      m := ((((((s.m.onSite p (fun y => { y with ending := true })).inc TL_STEP.STEPS_ENDED 1 p).stepEnded
        (s.m.tileOf p) r.tick r.d.index).onSite p (fun y => { y with run := none, ending := false })).wr
        TL_RPL.LOG_USED 0 p).nextStep p).drainRegs })
  )

/-- R109 to R113, R158, R501: `wt.mem` of an aligned address that translates to this module, behind no held write of its line,
issues its first read, and the poll timer the next one; a returned value that meets the comparison completes the wait with the
value in s[SD]; one that does not is kept; at the timeout the wait completes with the value last read. -/
def Obligations.MemoryWaits : Prop := ∀ (s : State) (l : LTile) (p : Nat), s.m.siteOf l = p →
  (let out := fun (b1 : Block) (w : WaitRun) (x : Xl) (b : Block) => b = b1.onSite p (fun s => { s with
     wait := some { w with reading := true, off := some (offOf x.pa), ent := x.ent, since := b1.dm.uid } })
   let near := fun (b1 : Block) (w : WaitRun) (x : Xl) => x.cause = 0 ∧ nodeOf x.pa = b1.rd XL_NODE.SELF ∧
     b1.lineHeld (b1.tileOf p) x.pa (if w.wide then 8 else 4) = [] ∧ b1.regQ = [] ∧ (b1.site p).ending = false
   (∀ (f : FmtW), Ready s.m l p → Free s.m p [f.sd.toNat, f.sa.toNat, f.sb.toNat, f.sm.toNat] → f.res = 0 →
    (let va := (s.m.sreg p f.sa.toNat).toNat
     let wide := f.wide.toNat == 1
     let m := if wide then 2 ^ 64 else 2 ^ 32
     let i := s.m.capIns p .wtMem 1 noT [va, (s.m.sreg p f.sb.toNat).toNat, (s.m.sreg p f.sm.toNat).toNat, f.cmp.toNat,
       f.wide.toNat, f.timeout.toNat] f.sd.toNat
     let w : WaitRun := ⟨va, f.cmp.toNat, (s.m.sreg p f.sb.toNat).toNat % m, (s.m.sreg p f.sm.toNat).toNat % m, wide, f.sd.toNat,
       f.timeout.toNat, none, false, s.m.pcOf p, none, 0, none, 0⟩
     ∀ x b1, RoomFor s.m p i → va % (if wide then 8 else 4) = 0 →
       ((launch s.m p i).onSite p (fun s => { s with wait := some w })).tileXl p (s.m.ctxOf p) va false = (x, b1) →
       near b1 w x → Runs (.wtMem l f) s (out b1 w x))) ∧
   (∀ w, s.m.regQ = [] → (s.m.site p).wait = some w → (s.m.site p).ending = false →
     (let finished := fun (a b : Block) (v : Nat) (old : List (Nat × Nat × Nat)) => b.site p = { (a.site p).setS w.sd v with
        wait := none, pendReg := NSet.del (a.site p).pendReg w.sd, flight := (a.site p).flight.filter (fun i => i.op != .wtMem)
        waitOld := (a.site p).waitOld ++ old } ∧ b.mem = a.mem ∧ b.out = a.out
      (∀ a r b', (s.m.site p).waitOld = [] → w.off = some a → w.reading = true → s.m.heldAt a = false →
        s.m.mread (s.m.ctxOf p) a (if w.wide then 8 else 4) = (r, b') → r.tagFail = false → r.pois = false → b'.regQ = [] →
        b'.sites = s.m.sites →
        (waitMet w.cmp (leNat r.bytes) w.thr w.mask = true → Runs (.waitReadReturn l) s (fun b => finished b' b (leNat r.bytes) [])) ∧
        (waitMet w.cmp (leNat r.bytes) w.thr w.mask = false → Runs (.waitReadReturn l) s (fun b =>
          b = b'.onSite p (fun x => { x with wait := some { w with reading := false, last := some (leNat r.bytes) } })))) ∧
      (∀ x b1, w.reading = false → s.m.tileXl p (s.m.ctxOf p) w.va false = (x, b1) → near b1 w x →
        Runs (.waitPollTimer l) s (out b1 w x)) ∧
      (∀ v, w.last = some v → w.timeout ≠ 0 → Runs (.memWaitTimeout l) s (fun b => finished s.m b v
        (if w.reading then w.off.toList.map (fun a => (s.m.ctxOf p, a, if w.wide then 8 else 4)) else []))))))

/-- R91 to R93, R159 to R202: a DMA, Twill, Frond or Moss instruction whose fields and descriptors its entry allows, and
which no earlier instruction holds back, starts at once on its engine with the descriptors as they stand, and does what the
entry of its mnemonic says (`run…`).
R159, R161 to R165, R463: a `dma.cp` of one chunk of whole words of the own local store, and a `dma.fill` of one, that wait
for no earlier write write the words and stand done, and nothing else changes; a `dma.cmpl` of a command without a record hands
one over, made of STATUS, word 2 and word 3 of its image.
R91, R102, R103, R104: an engine starts the head of its queue once its order, room and semaphore allow; a done instruction
completes, leaves the engine and signals its semaphore if SE is set, at once or with the next update of that semaphore in the
same cycle. -/
def Obligations.EngineInstructions : Prop :=
  (
   ∀ (s : State) (l : LTile) (p : Nat) (t : FmtT), Ready s.m l p →
  t.we = false →
  (let go := fun (c : Instr) (op : EngOp) (eng : Nat) (legal : Bool) (ok : EngIns → Bool) (may : EngIns → Prop)
      (run : Block → Nat → EngIns → Block) =>
    let i := s.m.capIns p op eng t [] 0
    legal = true → ok i = true → may i → RoomFor s.m p i → Starts c s p i run
   let md := modOf t
   let now := fun (_ : EngIns) => True
   let read := fun i => (s.m.site p).passWrites i = false
   (let a := tLegal t true false false false false false
    go (.dmaCp l t) .dmaCp 2 (tLegal t true true false false false false && md 0 2 != 3 && md 2 14 == 0) cpOk now Block.runDmaCp ∧
    go (.dmaFill l t) .dmaFill 2 (a && md 0 2 != 3 && md 2 14 == 0) (fun i => descPlain i.da && !dKind i.da) now Block.runDmaFill ∧
    go (.dmaCmpl l t) .dmaCmpl 2 (a && t.md == 0) cmplOk (fun i => s.m.imageReady p i = true) Block.runDmaCmpl ∧
    go (.twlLd l t) .twlLd 3 (a && t.md == 0) ldOk read Block.runTwlLd ∧
    go (.twlLdm l t) .twlLdm 3 (a && md 0 4 != 0 && md 10 6 == 0 && (md 9 1 == 1 || md 4 5 == 0)) ldOk read Block.runTwlLdm ∧
    go (.twlMm l t) .twlMm 3 (tLegal t true false false false false true && md 14 2 == 0 && (md 13 1 == 0 || md 9 4 == 8 || md 9 4 == 9))
      mmOk (fun i => (md 1 1 = 0 ∨ s.m.loadRuns p = false) ∧ read i) Block.runTwlMm ∧
    go (.mssUpd l t) .mssUpd 5 (a && t.md == 0) (fun i => mssDaOk i.da) now Block.runMssUpd) ∧
   (let b := tLegal t true true false false false false
    go (.mssBag l t) .mssBag 5 (b && t.md == 0) mssOk now Block.runMssBag ∧
    go (.mssRaw l t) .mssRaw 5 (b && t.md == 0) mssOk now Block.runMssRaw) ∧
   (s.m.seedOf p ≠ .waiting →
    go (.frdEw l t) .frdEw 4 (tLegal t true (!opcUnary (md 0 6)) true false false false && opcKnown (md 0 6) && md 7 9 == 0)
      ewOk now Block.runFrdEw ∧
    go (.frdChn l t) .frdChn 4 (tLegal t true true true false false false) chnOk now Block.runFrdChn ∧
    go (.frdCvt l t) .frdCvt 4 (tLegal t true (md 9 1 == 1) true false false false && md 10 6 == 0) cvtOk now Block.runFrdCvt) ∧
   (let any := fun (_ : EngIns) => true
    go (.frdRed l t) .frdRed 4 (tLegal t false false false true false true && md 0 2 != 3 && md 4 7 ≤ 64 && md 11 5 == 0)
      any now Block.runFrdRed ∧
    go (.frdTopk l t) .frdTopk 4 (tLegal t false false false true true true && 1 ≤ md 0 7 && md 0 7 ≤ 64 && md 9 7 ≤ 64
      && t.ta != t.tb && t.ta != t.tc && t.tb != t.tc) any now Block.runFrdTopk ∧
    go (.frdPerm l t) .frdPerm 4 (tLegal t false false false true true true && md 1 15 == 0 && t.tc != t.tb) any now
      Block.runFrdPerm ∧
    go (.frdShf l t) .frdShf 4 (tLegal t false false false true false true && md 0 3 < 6 && md 10 6 == 0
      && (md 0 3 == 0 || md 0 3 == 4 || md 3 6 == 0) && (md 0 3 != 5 || md 9 1 == 0)) any now Block.runFrdShf ∧
    go (.frdPack l t) .frdPack 4 (packLegal t false) any now Block.runFrdPack ∧
    go (.frdUnpk l t) .frdUnpk 4 (packLegal t true) any now Block.runFrdUnpk))
  ) ∧
  (
   ∀ (s : State) (l : LTile) (p : Nat) (t : FmtT) (n : Nat), Ready s.m l p → t.we = false →
  (let md := modOf t
   let ends := fun (i : EngIns) (m : Mem) (b : Block) => b.mem = m ∧ StandsDone s.m b p i ∧
     (b.site p).runs = (s.m.site p).runs ∧ Only { s.m with mem := m } b [TL_STATUS.PC.key p 0] [p]
   let clear := fun (off len : Nat) => s.m.relWaits (s.m.tileOf p) (s.m.ctxOf p) (md 0 2) (s.m.ownPa (s.m.tileOf p) off) len = []
   (let i := s.m.capIns p .dmaCp 2 t [] 0
    let w := n * dBits i.da / 128
    tLegal t true true false false false false = true → md 0 2 < 3 → md 2 14 = 0 → cpOk i = true → RoomFor s.m p i →
    i.dmaChunks = [(0, n, 0)] → wholeWords i.da i.db 0 n 0 = true → s.m.ownHeld p (dBase i.da) (16 * w) = [] →
    clear (dBase i.db) (16 * w) →
    Runs (.dmaCp l t) s (ends i (s.m.lsPutWords p (dBase i.db) (s.m.lsWords p (dBase i.da) w)).mem)) ∧
   (let i := s.m.capIns p .dmaFill 2 t [] 0
    tLegal t true false false false false false = true → md 0 2 < 3 → md 2 14 = 0 → descPlain i.da = true → dKind i.da = false →
    RoomFor s.m p i → i.dmaChunks = [(0, n, 0)] → dSpace i.da = 0 → dBase i.da % 16 = 0 → n * dBits i.da % 128 = 0 →
    clear (dBase i.da) (n * dBits i.da / 8) →
    Runs (.dmaFill l t) s (ends i (s.m.lsStore p (dBase i.da)
      (elsBytes [] 0 (dBits i.da) (List.replicate n (dPadCode i.da, false)))).mem)) ∧
   (let i := s.m.capIns p .dmaCmpl 2 t [] 0
    ∀ r c ms b1, tLegal t true false false false false false = true → t.md = 0 → cmplOk i = true → RoomFor s.m p i →
    s.m.imageReady p i = true → (s.m.site p).replay = none → (s.m.site p).run = some r → r.d.pack = false →
    s.m.cmd r.d.cmdTag = some c → c.issued = false →
    ((launch s.m p i).logEffect p 2 []).lsBytes p (dBase i.da) 32 = (ms, b1) →
    Runs (.dmaCmpl l t) s (fun b => b.mem = b1.mem ∧ b.bk.recs = s.m.bk.recs ++ [s.m.newRec c (leNat (ms.bytes.take 1))
      (leNat ((ms.bytes.drop 16).take 8)) (leNat (ms.bytes.drop 24)) (some p) (MBytes.pois (ms.take 16)) (MBytes.pois (ms.drop 16))])))
  ) ∧
  (
   ∀ (s : State) (l : LTile) (eng : Fin 6) (p : Nat), s.m.siteOf l = p →
  s.m.served l = true → s.m.engLive p = true →
  (∀ h, (s.m.site p).head eng = some h → h.waitSem = none → s.m.canStart p h = true →
    (∀ r ∈ (s.m.site p).runs, r.ins.eng = 4 → r.dead = true) →
    exec (.engineInstructionStart l eng) s = .next { s with
      m := (((s.m.onSite p (fun x => { x with queue := x.queue.filter (fun i => i.id != h.id), flight := x.flight ++ [h] })).runIns
        p h).tryEnd p).drainRegs }) ∧
  (∀ (n : Nat) i same, ((s.m.site p).flight.filter (fun i => i.eng == eng.val &&
      (i.done || (s.m.site p).runs.any (fun r => r.ins.id == i.id && !r.dead))))[n]? = some i → i.done = true →
    (∀ r ∈ (s.m.site p).runs, r.ins.id ≠ i.id) → s.m.mayComplete p i = true →
    (let b := s.m.retire p i.id
     (∀ j ∈ (b.site p).flight, j.id ≠ i.id) ∧
     (i.t.se = false → exec (.engineInstructionComplete l eng ⟨n, same⟩) s = .next { s with m := (b.tryEnd p).drainRegs }) ∧
     (i.t.se = true → exec (.engineInstructionComplete l eng ⟨n, same⟩) s = .next { s with m :=
       ((if same then b.onSite p (fun x => { x with semNow := x.semNow ++ [⟨i.t.ssem.toNat, 1, ⟨s.m.tileOf p, 3, i.eng, some i.pc⟩⟩] })
         else b.semCycle p i.t.ssem.toNat none 1 0 ⟨s.m.tileOf p, 3, i.eng, some i.pc⟩).tryEnd p).drainRegs })))
  )

/-- R168, R169, R172, R175, R219, R220: what a Twill instruction does as it starts: `twl.ld` makes the shadow plane invalid and
gives it the weights and attributes read; `twl.ldm` sends the rows to the serving positions of DEST and is done; `twl.mm` of a
valid clean plane and clean activations of a class, after its swap, puts one more pass into the array.
R169, R170, R172, R176, R38: a load's end makes the shadow plane valid if no load overlapped it; of a multicast, the rows
arrive one by one; with the 64th the shadow plane takes the weights and is valid, and its signal is counted if it carries
one.
R206, R216, R218: the block sum of an integer pass is the exact sum of the products modulo 2³², and the words a pass
writes are one for each row and column in that order: v (added to the old word under ACC), rounded and converted as
OSHIFT, OFMT and OSIGNED say for an integer pass.
R177, R218, R548, R555 to R557: the oldest pass of a float class writes its words into TC and its instruction is done (not
sampled); a stopped step's replay starts at ENTRY with its start state; a sample not sent is skipped; a sample whose two runs
agree with the original is counted. -/
def Obligations.TwillArray : Prop :=
  (
   ∀ (s : State) (l : LTile) (p : Nat) (t : FmtT), Ready s.m l p → t.we = false →
  (let md := modOf t
   let free := fun i => (s.m.site p).passWrites i = false
   (∀ w sc bad b1, (let i := s.m.capIns p .twlLd 3 t [] 0
     tLegal t true false false false false false = true → t.md = 0 → ldOk i = true → RoomFor s.m p i → free i →
     (launch s.m p i).readPlane p i.da i.dax = (w, sc, bad, b1) → b1.regQ = [] → b1.sites = (launch s.m p i).sites →
     Runs (.twlLd l t) s (fun b => b.mem = b1.mem ∧ (b.site p).active = (s.m.site p).active ∧
       (b.site p).flight = (s.m.site p).flight ++ [i] ∧
       (b.site p).shadow = { (s.m.site p).shadow.begin false with
         w := w, scales := sc, pois := bad, fmt := dFmt i.da, signed := dSigned i.da, mx := dMx i.da }))) ∧
   (∀ w sc bad b1, (let i := s.m.capIns p .twlLdm 3 t [] 0
     let me := s.m.tileOf p
     tLegal t true false false false false false = true → md 0 4 ≠ 0 → md 10 6 = 0 → md 9 1 = 1 ∨ md 4 5 = 0 → ldOk i = true →
     RoomFor s.m p i → free i → (launch s.m p i).readPlane p i.da i.dax = (w, sc, bad, b1) → b1.regQ = [] →
     b1.sites = (launch s.m p i).sites → b1.regs = (launch s.m p i).regs → b1.mcasts = s.m.mcasts →
     Runs (.twlLdm l t) s (fun b => b.mem = b1.mem ∧ StandsDone s.m b p i ∧
       b.mcasts = s.m.mcasts ++ ((List.range 4).filter (fun k => bit (md 0 4) k && s.m.served (me / 4 * 4 + k))).map (fun k =>
         ⟨i.id, p, me, me / 4 * 4 + k, i.pc, md 4 5, md 9 1 == 1, dFmt i.da, dSigned i.da, dMx i.da, bad, w, sc, 0, false⟩)))) ∧
   (∀ kmax x int rows ea b1, (let i := s.m.capIns p .twlMm 3 t [] 0
     let a := if md 1 1 = 1 then (launch s.m p i).onSite p (fun x => { x with planeSel := 1 - x.planeSel }) else launch s.m p i
     let pl := if md 1 1 = 1 then (s.m.site p).shadow else (s.m.site p).active
     let nb := if dMx i.da then (mmK i.da + 31) / 32 else 1
     tLegal t true false false false false true = true → md 14 2 = 0 → md 13 1 = 0 ∨ md 9 4 = 8 ∨ md 9 4 = 9 → mmOk i = true →
     RoomFor s.m p i → free i → md 1 1 = 0 ∨ s.m.loadRuns p = false → (s.m.site p).planeSel ≤ 1 → (s.m.site p).replay = none →
     pl.valid = true → pl.pois = false → twClass pl.fmt (dFmt i.da) = some (kmax, x, int) → mmK i.da ≤ kmax → dMx i.da = pl.mx →
     a.mmRead p i (mmRows i.da) nb = (rows, ea, b1) → b1.regQ = [] → b1.sites = a.sites →
     (∀ r ∈ rows, ∀ e ∈ r, e.2 = false) → (∀ e ∈ ea, e.2 = false) →
     md 0 1 = 0 ∨ b1.accPois p i.t.tc.toNat (mmRows i.da) = false →
     Runs (.twlMm l t) s (fun b => b.mem = b1.mem ∧ (b.site p).active = pl ∧
       (b.site p).passes = (s.m.site p).passes ++ [b1.mmPass p i pl int nb rows ea] ∧
       (b.site p).passNo = (s.m.site p).passNo + 1 ∧ (b.site p).flight = (s.m.site p).flight ++ [i]))))
  ) ∧
  (
   ∀ (s : State) (l : LTile) (p : Nat), s.m.siteOf l = p → s.m.regQ = [] →
  (∀ i, (s.m.site p).flight.find? (fun i => i.op == .twlLd && !i.done) = some i → (s.m.site p).swapWait = false →
    (s.m.site p).shadow.loading = 1 → Runs (.twillLoadComplete l) s (fun b =>
      (b.site p).shadow = { (s.m.site p).shadow with loading := 0, valid := !(s.m.site p).shadow.overlap, overlap := false } ∧
      (b.site p).active = (s.m.site p).active ∧
      (b.site p).flight = (s.m.site p).flight.map (fun j => if j.id == i.id then { j with done := true } else j) ∧
      b.mem = s.m.mem)) ∧
  (∀ m (src : LTile) same, s.m.mcasts.find? (fun m => m.l == l.val && m.srcTile == src.val) = some m → s.m.served l = true →
    s.m.held l = false →
    (m.rows = 0 → Runs (.multicastRowArrive ⟨⟨l, src⟩, same⟩) s (fun b =>
      b.mcasts = s.m.mcasts.map (fun x => if x == m then { m with rows := 1 } else x) ∧
      (b.site p).shadow = { (s.m.site p).shadow.begin true with fmt := m.fmt, pois := m.pois } ∧
      (b.site p).active = (s.m.site p).active ∧ b.mem = s.m.mem)) ∧
    (1 ≤ m.rows → m.rows < 63 → Runs (.multicastRowArrive ⟨⟨l, src⟩, same⟩) s (fun b =>
      b = { s.m with mcasts := s.m.mcasts.map (fun x => if x == m then { m with rows := m.rows + 1 } else x) })) ∧
    (63 ≤ m.rows → m.cut = true → Runs (.multicastRowArrive ⟨⟨l, src⟩, same⟩) s (fun b =>
      b = { s.m with mcasts := s.m.mcasts.erase m })) ∧
    (63 ≤ m.rows → m.cut = false → (s.m.site p).shadow.loading = 1 → (s.m.site p).shadow.overlap = false →
      (s.m.site p).swapWait = false →
      (let took := fun (b : Block) => b.mcasts = s.m.mcasts.erase m ∧ b.mem = s.m.mem ∧
        (b.site p).active = (s.m.site p).active ∧
        (b.site p).shadow = { (s.m.site p).shadow with
          loading := 0, valid := true, overlap := false, w := m.w, scales := m.scales, pois := m.pois, fmt := m.fmt,
          signed := m.signed, mx := m.mx }
       (m.rse = false → Runs (.multicastRowArrive ⟨⟨l, src⟩, same⟩) s took) ∧
       (m.rse = true → m.srcTile ≠ m.l → m.rsem < 32 → (s.m.site p).queue = [] → (s.m.site p).semNow = [] →
        s.m.sem p m.rsem < 255 → Runs (.multicastRowArrive ⟨⟨l, src⟩, false⟩) s (fun b => took b ∧
          b.sem p m.rsem = s.m.sem p m.rsem + 1)))))
  ) ∧
  (
  (∀ (af pf : Nat) (asg psg : Bool) (aw : List (Nat × Nat)), blockSum true af asg pf psg aw =
    ofInt 32 ((aw.map (fun x => decodeI af x.1 asg * decodeI pf x.2 psg)).sum)) ∧
  (∀ (q : PassRun) (sums : List Nat) (old : Nat → Nat → Nat) (rnd : Nat → Rnd),
    (passWords q sums old rnd).words = (List.range q.rows).flatMap (fun r => (List.range 64).map (fun n =>
      let v := passValue q sums r n
      if q.int then
        let a := if q.ins.md 0 1 = 1 then (sat32 (toInt 32 (old r n) + v.1)).1 else v.1
        let code := (convI (q.ins.md 9 4) (q.ins.md 13 1 == 1) (.fin (decide (a < 0)) a.natAbs (2 ^ q.ins.md 3 6))
          (rnd (q.no * 4096 + r * 64 + n))).1
        (r, n, if q.ins.md 9 4 = 10 ∨ q.ins.md 13 1 = 1 then ofInt 32 (toInt (fmtBits (q.ins.md 9 4)) code) else code)
      else (r, n, if q.ins.md 0 1 = 1 then f32Add (old r n) v.2.1 else v.2.1))))
  ) ∧
  (
   ∀ (s : State) (l : LTile) (p : Nat), s.m.siteOf l = p → s.m.regQ = [] →
  (∀ q rest, (s.m.site p).passes = q :: rest → q.dead = false → q.check = false → q.int = false →
    s.m.sampled p q = none → (s.m.site p).replay = none →
    Runs (.twillPassComplete l []) s (fun b =>
      (let tc := q.ins.t.tc.toNat
       let ws := (passWords q q.sums (fun r n => (s.m.site p).tw tc r n) (fun _ => .ne)).words
       let x := ws.foldl (fun (x : Site) (w : Nat × Nat × Nat) => x.setTw tc w.1 w.2.1 w.2.2 false)
         { s.m.site p with passes := rest }
       b.site p = { x with flight := x.flight.map (fun i => if i.id == q.ins.id then { i with done := true } else i) }) ∧
      b.mem = s.m.mem ∧ b.faultQ = s.m.faultQ)) ∧
  (∀ r rp c, (s.m.site p).run = some r → (s.m.site p).replay = some rp → (s.m.site p).start = some c →
    (s.m.site p).stopped = true → rp.started = false → (s.m.site p).noReplay = false →
    Runs (.replayStart l) s (fun b => b.rd TL_STATUS.RUN p = 1 ∧ b.pcOf p = r.d.entry % 2 ^ 13 ∧ b.rd TL_RPL.STATE p = 1 ∧
      (b.site p).dreg = c.dreg ∧ (b.site p).planeSel = c.planeSel ∧ (b.site p).stopped = false ∧
      (b.site p).s 1 = r.d.argsVa % 2 ^ 64 ∧ b.mem = s.m.mem ∧
      ∀ k < 32, b.sem p k = min 255 (c.sems.getD k 0 + SMap.get 0 (s.m.site p).fromOut k))) ∧
  (∀ (q : SiteIx) x, s.m.samples.find? (fun x => x.site == q.val) = some x →
    Runs (.sampleSendTimeout q) s (fun b => b.samples = s.m.samples.erase x ∧
      b.rd FLT_SAMPLE_CNT.SKIPPED = min (s.m.rd FLT_SAMPLE_CNT.SKIPPED + 1) (2 ^ FLT_SAMPLE_CNT.SKIPPED.width - 1) ∧
      Only { s.m with samples := s.m.samples.erase x } b [FLT_SAMPLE_CNT.SKIPPED.key 0 0] []) ∧
    (s.m.rd TL_SITE.STATE 0 x.spare = 1 → x.due = none → Runs (.sampleResult q true true false none) s (fun b =>
      b.samples = s.m.samples.erase x ∧
      b.rd FLT_SAMPLE_CNT.SAMPLED = min (s.m.rd FLT_SAMPLE_CNT.SAMPLED + 1) (2 ^ FLT_SAMPLE_CNT.SAMPLED.width - 1) ∧
      Only { s.m with samples := s.m.samples.erase x } b [FLT_SAMPLE_CNT.SAMPLED.key 0 0] [])))
  )

/-- R178, R187 to R197, R284 to R288: a Frond operation on tile registers whose source words are clean is done with the words
its entry states in TC (`frd.topk`: the indices in TB), and no other tile, scalar or descriptor register changes.
R179 to R186, R270, R283: an element-wise Frond instruction over one row of at most 64 INT32 words of tile registers, all
of them clean, is done with the result of each element in DC's register: of the operation (`frd.ew`), of the chain of its
record (`frd.chn`), or the element itself (`frd.cvt` without shift or quantisation).
R161: `dma.cp` moves whole aligned words of the local store with their codes as stored, the chunk read before it is
written.
R179, R276: the operations of the Frond engine in the INT32 domain saturate the exact result to INT32 and say whether
they did; the bitwise ones are exact. -/
def Obligations.FrondOperations : Prop :=
  (
   ∀ (s : State) (l : LTile) (p : Nat) (t : FmtT), Ready s.m l p → t.we = false →
  (let x := s.m.site p
   let ta := t.ta.toNat
   let tb := t.tb.toNat
   let tc := t.tc.toNat
   let md := modOf t
   let go := fun (c : Instr) (op : EngOp) (legal : Bool) (ts : List Nat) (Q : Site → Prop) =>
     let i := s.m.capIns p op 4 t [] 0
     legal = true → RoomFor s.m p i → Runs c s (fun b => RegOpDone s.m b p i ts ∧ Q (b.site p))
   let is := fun (y : Site) (r : Nat) (c : Nat × Nat) (v : Nat) (m : Bool) => y.tw r c.1 c.2 = v % 2 ^ 32 ∧ y.tpoisAt r c.1 c.2 = m
   let val := fun (c : Nat × Nat) => x.tw ta c.1 c.2
   let clean := fun (c : Nat × Nat) => x.tpoisAt ta c.1 c.2 = false
   (let n := nOf (md 4 7)
    (∀ j < 64, ∀ k < n, clean (linePos (md 2 1) j k)) →
    go (.frdRed l t) .frdRed (tLegal t false false false true false true && md 0 2 != 3 && md 4 7 ≤ 64 && md 11 5 == 0) [tc]
      (fun y => ∀ j < 64, is y tc (linePos (md 2 1) j 0)
        (redLine (md 0 2) (md 3 1 == 1) ((List.range n).map (fun k => val (linePos (md 2 1) j k)))).1 false)) ∧
   (let n := nOf (md 9 7)
    let small := md 8 1 == 1
    let order := fun j => ((List.range n).map (fun k => (val (linePos (md 7 1) j k), k))).foldl
      (fun acc c => topInsert small c acc) []
    (∀ j < 64, ∀ k < n, clean (linePos (md 7 1) j k)) →
    go (.frdTopk l t) .frdTopk (tLegal t false false false true true true && 1 ≤ md 0 7 && md 0 7 ≤ 64 && md 9 7 ≤ 64
        && t.ta != t.tb && t.ta != t.tc && t.tb != t.tc) [tb, tc]
      (fun y => ∀ j < 64, ∀ m < md 0 7, match (order j)[m]? with
        | some c => is y tc (linePos (md 7 1) j m) (if decodeF 0 c.1 == XR.nan then 0x7FC00000 else c.1) false ∧
            is y tb (linePos (md 7 1) j m) c.2 false
        | none => is y tc (linePos (md 7 1) j m) (if small then 0x7F800000 else 0xFF800000) false ∧
            is y tb (linePos (md 7 1) j m) 0xFFFFFFFF false)) ∧
   (let src := fun (r c : Nat) => if md 0 1 = 0 then (r, x.tw tb r c % 64) else (x.tw tb r c % 64, c)
    (∀ r < 64, ∀ c < 64, x.tpoisAt tb r c = false ∧ (bit (x.tw tb r c) 31 = false → clean (src r c))) →
    go (.frdPerm l t) .frdPerm (tLegal t false false false true true true && md 1 15 == 0 && t.tc != t.tb) [tc]
      (fun y => ∀ r < 64, ∀ c < 64, is y tc (r, c) (if bit (x.tw tb r c) 31 then 0 else val (src r c)) false)) ∧
   (let src := fun (r c : Nat) => if md 0 3 = 5 then (c, r) else if md 9 1 = 0 then (r, shfSrc (md 0 3) (md 3 6) c)
      else (shfSrc (md 0 3) (md 3 6) r, c)
    (∀ r < 64, ∀ c < 64, clean (src r c)) →
    go (.frdShf l t) .frdShf (tLegal t false false false true false true && md 0 3 < 6 && md 10 6 == 0
        && (md 0 3 == 0 || md 0 3 == 4 || md 3 6 == 0) && (md 0 3 != 5 || md 9 1 == 0)) [tc]
      (fun y => ∀ r < 64, ∀ c < 64, is y tc (r, c) (val (src r c)) false)) ∧
   (let w := fmtBits (md 0 4)
    let per := 32 / w
    go (.frdPack l t) .frdPack (packLegal t false) [tc] (fun y => ∀ r < 64, ∀ c < 64,
      if c < 64 / per then is y tc (r, c) ((List.range per).map (fun k => val (r, c * per + k) % 2 ^ w * 2 ^ (w * k))).sum
        ((List.range per).any (fun k => x.tpoisAt ta r (c * per + k)))
      else is y tc (r, c) 0 false) ∧
    go (.frdUnpk l t) .frdUnpk (packLegal t true) [tc] (fun y => ∀ r < 64, ∀ c < 64,
      let e := bits (val (r, c / per)) (w * (c % per)) w
      is y tc (r, c) (if md 4 1 = 1 ∧ (md 0 4 = 8 ∨ md 0 4 = 9) then ofInt 32 (toInt w e) else e) (x.tpoisAt ta r (c / per)))))
  ) ∧
  (
   ∀ (s : State) (l : LTile) (p : Nat) (t : FmtT) (n : Nat), Ready s.m l p → t.we = false →
  s.m.seedOf p ≠ .waiting →
  (let x := s.m.site p
   let md := modOf t
   let row := fun d => dSpace d = 2 ∧ dFmt d = 10 ∧ dNdim d = 1 ∧ dMx d = false ∧ dSize d 0 = n
   let word := fun d k => x.tw (dReg d) 0 k
   let input := fun d => row d ∧ ∀ k < n, x.tpoisAt (dReg d) 0 k = false
   let has := fun (i : EngIns) (b : Block) (v : Nat → Nat) => StandsDone s.m b p i ∧ TilesBut [dReg i.dc] s.m b p ∧
     ∀ k < n, (b.site p).tw (dReg i.dc) 0 k = v k % 2 ^ 32 ∧ (b.site p).tpoisAt (dReg i.dc) 0 k = false
   (let i := s.m.capIns p .frdEw 4 t [] 0
    let o := md 0 6
    tLegal t true (!opcUnary o) true false false false = true → opcKnown o = true → o < 0x10 → md 7 9 = 0 → ewOk i = true →
    RoomFor s.m p i → row i.dc → input i.da → opcUnary o = true ∨ input i.db → o ≠ 3 ∨ input i.dc →
    Runs (.frdEw l t) s (fun b => b.mem = s.m.mem ∧ has i b (fun k => (opI o (word i.da k) (word i.db k) (word i.dc k)).1))) ∧
   (let i := s.m.capIns p .frdCvt 4 t [] 0
    tLegal t true false true false false false = true → md 1 15 = 0 → cvtOk i = true → RoomFor s.m p i → row i.dc → input i.da →
    Runs (.frdCvt l t) s (fun b => b.mem = s.m.mem ∧ has i b (word i.da))) ∧
   (let i := s.m.capIns p .frdChn 4 t [] 0
    let off := t.md.toNat * 64
    ∀ ms b1 rnd ops, tLegal t true true true false false false = true → chnOk i = true → RoomFor s.m p i → off + 128 ≤ 0x300000 →
    (launch s.m p i).lsBytes p off 128 = (ms, b1) → ms.pois = false → b1.regQ = [] → b1.sites = (launch s.m p i).sites →
    chnParse ((List.range 16).map (fun k => leNat ((ms.bytes.drop (8 * k)).take 8))) = some (true, rnd, ops) →
    chnFits i true ops = true → row i.dc →
    (let named := fun s => (ops.flatMap ChnOp.srcs).any (· == s)
     (∀ k < 3, named k = true → input (i.d.getD k 0)) →
     Runs (.frdChn l t) s (fun b => b.mem = b1.mem ∧ has i b (fun k =>
       (chnEval true (fun c => if c < 3 && named c then ofInt 32 (toInt 32 (word (i.d.getD c 0) k)) else 0) ops 0 0 0 0).1)))))
  ) ∧
  (
   ∀ (n : Nat) (a : Block) (p pc src dst rel : Nat), src % 16 = 0 → dst % 16 = 0 →
  src + 16 * n ≤ 0x300000 → dst + 16 * n ≤ 0x300000 → a.ownHeld p src (16 * n) = [] →
  a.relWaits (a.tileOf p) (a.ctxOf p) rel (a.ownPa (a.tileOf p) dst) (16 * n) = [] →
  (let r := a.moveWords p pc src dst n rel
   r.1 = .ok ∧
   (∀ k < n, (r.2.mem.word (lsKey p dst / 16 + k)).data = (a.mem.word (lsKey p src / 16 + k)).data ∧
     (r.2.mem.word (lsKey p dst / 16 + k)).dev = (a.mem.word (lsKey p src / 16 + k)).dev % 2 ^ 16) ∧
   ∀ w, (w < lsKey p dst / 16 ∨ lsKey p dst / 16 + n ≤ w) → r.2.mem.word w = a.mem.word w)
  ) ∧
  (
   ∀ a c e : Nat,
  (let x := toInt 32 a
   let y := toInt 32 c
   let out := fun (r : Nat × Bool) (v : Int) => toInt 32 r.1 = max (-(2 ^ 31)) (min v (2 ^ 31 - 1)) ∧
     (r.2 = true ↔ v < -(2 ^ 31) ∨ 2 ^ 31 - 1 < v)
   out (opI 0 a c e) (x + y) ∧ out (opI 1 a c e) (x - y) ∧ out (opI 2 a c e) (x * y) ∧
   out (opI 3 a c e) (x * y + toInt 32 e) ∧ out (opI 4 a c e) (min x y) ∧ out (opI 5 a c e) (max x y) ∧
   out (opI 6 a c e) (max x (-x)) ∧ out (opI 7 a c e) (-x) ∧ out (opI 8 a c e) (max x 0) ∧
   out (opI 9 a c e) (if y < x then 1 else 0) ∧ out (opI 0x0A a c e) (x * 2 ^ (c % 32)) ∧
   out (opI 0x0B a c e) (x / 2 ^ (c % 32)) ∧ (opI 0x0C a c e).1 = (a % 2 ^ 32) &&& (c % 2 ^ 32) ∧
   (opI 0x0D a c e).1 = (a % 2 ^ 32) ||| (c % 2 ^ 32) ∧ (opI 0x0E a c e).1 = (a % 2 ^ 32) ^^^ (c % 2 ^ 32))
  )

/-- R198 to R202, R304 to R308, R350, R351: a Moss instruction of a usable context takes a slot and its issue unit reads the first
group of its block. Without the table's directory entry it asks for that and waits; with it, a good group of a bag or a raw
fetch is split into parts and one of an update into contributions, and the unit goes on.
R299, R301, R307, R323, R352 to R355: what becomes of a group: a bag of a replicated table, and one of a sharded table whose
rows this module owns, goes as one part to its engine; a raw fetch of at most 256 / STRIDE rows this module owns is read and
its return item sent; one row of an update that this module owns is offered to its merge buffer and word 3 tells its
USTATUS.
R292, R296, R309, R312, R321, R342: the part waiting longest is accepted where its engine has room, and counted; a row
read that passes gives the row its values; a part all of whose rows are decided leaves the engine, and its pooled vector
goes back to its tile, or only its status where rows failed the reader rule or the tag check.
R62, R66, R297, R308, R315, R317, R332, R354: what reaches a tile's issue unit: an awaited directory entry read good is cached
and issue goes on; a return item for a degraded position is discarded and counted, and one for a tile whose requests are held
waits; a return, or the timeout of a part sent away, completes its part; an update without an acknowledgement gets USTATUS
TIMEOUT; an invalidation empties every cache of directory entries, has the parts that wait meet their checks again, and changes
nothing else.
R315, R317: a part's completion is noted on the open part of its tag alone; while other parts of its bag are open nothing
else happens but the counters; a return for no open part is counted and changes nothing else. -/
def Obligations.MossBags : Prop :=
  (
   ∀ (s : State) (l : LTile) (p : Nat) (t : FmtT), Ready s.m l p → t.we = false → t.md = 0 →
  (let reads := fun (i : EngIns) (a : Block) (Q : List Nat → Block → Prop) => ∀ ce b1 h b3,
     RoomFor s.m p i → a.ctxEntry (s.m.ctxOf p) = (some ce, b1) → b1.sites = a.sites → (s.m.site p).mss.miss = none →
     SMap.get 0 (s.m.site p).mss.read i.id = 0 → (b1.mssSlot p i).lsBytes p (dBase i.da) 32 = (h, b3) → h.pois = false →
     b3.regQ = [] → b3.sites = (b1.mssSlot p i).sites → Q (wordsOf h.bytes) b3
   let asks := fun (c : Instr) (b : Block) (table : Nat) =>
     b.held64 p table = none → exec c s = .next { s with m := b.askEntry p table }
   let goes := fun (c : Instr) (i : EngIns) (b : Block) => exec c s = .next { s with
     m := ((Block.mssPumpN (dSize i.da 0 / 32) (b.blockEnd p i) p).tryEnd p).drainRegs }
   let bag := fun (c : Instr) (op : EngOp) =>
     let i := s.m.capIns p op 5 t [] 0
     tLegal t true true false false false false = true → mssOk i = true → reads i (launch s.m p i) (fun w b3 =>
       let count := bits (w.getD 0 0) 32 11
       let size := 32 + 32 * ((count + 3) / 4)
       let table := bits (w.getD 0 0) 0 16
       ∀ x b4, count ≤ 1024 → size ≤ dSize i.da 0 → b3.lsBytes p (dBase i.da + 32) (size - 32) = (x, b4) → x.pois = false →
         b4.regQ = [] → b4.sites = b3.sites → asks c b4 table ∧
         (let list := ((wordsOf x.bytes).take count).map (fun r => (bits r 0 40, bits r 48 16))
          ∀ e, b4.held64 p table = some e → b4.entGood e = true →
          bagOk (op == .mssRaw) i.db e (w.getD 0 0) (w.getD 1 0) (w.getD 2 0) (wordsOf x.bytes) = true →
          (b4.site p).mss.bags.length < 4096 → (b4.site p).mss.openParts + (b4.partsOf (op == .mssRaw) e list).length ≤ 8192 →
          goes c i ((b4.readTo p i.id size).splitBag p i (dBase i.da) table (bits (w.getD 0 0) 16 2) (bits (w.getD 1 0) 0 16)
            (bits (w.getD 1 0) 16 16) e list)))
   bag (.mssBag l t) .mssBag ∧ bag (.mssRaw l t) .mssRaw ∧
   (let i := s.m.capIns p .mssUpd 5 t [] 0
    let logged := ((launch s.m p i).logEffect p 3 []).onMss p (fun y =>
      { y with logAt := SMap.set 0 y.logAt i.id ((s.m.site p).log.length + 1) })
    tLegal t true false false false false false = true → mssDaOk i.da = true → (s.m.site p).replay = none →
    (s.m.site p).noReplay = false → (s.m.site p).log.length < 32 → reads i logged (fun w b3 =>
      let count := bits (w.getD 0 0) 32 11
      let table := bits (w.getD 0 0) 0 16
      asks (.mssUpd l t) b3 table ∧
      ∀ (e : List Nat) (rows : List (Nat × MBytes)) (b4 : Block), b3.held64 p table = some e → b3.entGood e = true → eClass e = 1 → eUpd e = true → 1 ≤ count → count ≤ 1024 →
        bits (w.getD 0 0) 16 16 = 0 → bits (w.getD 0 0) 43 21 = 0 → w.getD 1 0 = 0 → w.getD 2 0 = 0 →
        (let step := 32 + 32 * ((eDim e + 7) / 8)
         32 + count * step ≤ dSize i.da 0 → b3.rowGroups p (dBase i.da + 32) step count = (rows, none, true, b4) →
         (∀ r ∈ rows, r.1 < eRows e) →
         goes (.mssUpd l t) i ((b4.readTo p i.id (32 + count * step)).sendGroup p i (dBase i.da) table e rows)))))
  ) ∧
  (
   ∀ (a : Block) (p item table mode i0 i1 : Nat) (i : EngIns) (e : List Nat),
  (∀ rows : List (Nat × Nat), rows ≠ [] → a.moss.nextTag < 2 ^ 32 → a.rd XL_NODE.SELF < 1024 →
    (let me := a.rd XL_NODE.SELF
     let b := a.splitBag p i item table mode i0 i1 e rows
     let bag := fun raw => (⟨i.id, item, e, raw, mode, i0, i1,
       [⟨a.moss.nextTag, me, List.range rows.length, false, false, none, []⟩]⟩ : MssBag)
     let part := fun eng owner => (⟨eng, a.tileOf p, a.moss.nextTag, none, owner, a.now, a.ctxOf p, table, mode, e, rows, [], none⟩ : MPart)
     let next := fun (m : Moss) => { m with nextTag := (a.moss.nextTag + 1) % 2 ^ 32 }
     let goes := fun eng owner => (b.site p).mss.bags = (a.site p).mss.bags ++ [bag false] ∧
       Only { a with moss := { next a.moss with waiting := a.moss.waiting ++ [part eng owner] } } b [] [p]
     let mine := ∀ r ∈ rows, a.ownerOfRow r.1 = me
     (i.op = .mssBag → eClass e = 0 → eRclk e = false → goes (stackFor (a.tileOf p) (eMask e)) false) ∧
     (i.op = .mssBag → eClass e = 1 → mine → goes (eHome e) true) ∧
     (i.op = .mssRaw → eClass e = 2 → mine → rows.length ≤ 256 / eStride e →
       ∀ st data b1, (({ a with moss := next a.moss }).onMss p (fun u => { u with bags := u.bags ++ [bag true] })).ownerRaw (a.ctxOf p)
         a.now table (rows.map (fun (r : Nat × Nat) => r.1)) = (st, data, b1) →
       b.moss.rets = b1.moss.rets ++ [⟨b1.tileOf p, a.moss.nextTag, st, rows.length, data⟩] ∧ b.mem = b1.mem ∧ b.sites = b1.sites))) ∧
  (∀ r row data st b1, (a.site p).run = some r → (a.site p).mss.seq < 2 ^ 26 → a.ownerOfRow row = a.rd XL_NODE.SELF →
    (let seq := (if r.spilled then 2 ^ 31 else 0) + r.d.index % 32 * 2 ^ 26 + (a.site p).mss.seq
     (∀ g ∈ (a.site p).mss.groups, g.ins ≠ i.id ∧ ∀ c ∈ g.contribs, c ≠ (seq, none)) →
     (a.onMss p (fun u => { u with groups := u.groups ++ [⟨i.id, item, [(seq, none)]⟩], seq := u.seq + 1 })).contribute
       (a.rd XL_NODE.SELF) (a.tileOf p) (a.ctxOf p) a.now
       ⟨table, eTver e a.now, row, seq, vecCodes data (eDim e), data.pois⟩ = (st, b1) → st ≠ 6 →
     b1.sites = (a.onMss p (fun u => { u with groups := u.groups ++ [⟨i.id, item, [(seq, none)]⟩], seq := u.seq + 1 })).sites →
     (let b := a.sendGroup p i item table e [(row, data)]
      (b.site p).mss.groups = (a.site p).mss.groups ∧ b.moss = b1.moss ∧
      b.mem = (b1.lsStore p (item + 24) (plain (leBytes 8 (groupWord [(seq, some st)])))).mem)))
  ) ∧
  (
   ∀ (s : State) (m : Fin 12), s.m.regQ = [] →
  (let shown := [MS_STATUS.PARTS.key m 0, MS_STATUS.ROWS.key m 0, MS_STATUS.QFULL.key m 0] ++
     (List.range 16).map (fun k => MS_SQ.OCC.key m k)
   let act := s.m.moss.active.filter (fun x => x.eng == m.val)
   (∀ q, s.m.moss.waiting.find? (fun q => q.eng == m.val) = some q → q.owner = false → q.from_ = none → act.length < 4096 →
     (act.map (fun x => x.rows.length)).sum + q.rows.length ≤ 16384 →
     Runs (.partAccept m) s (fun b =>
       b.rd MS_PART_CNT.LOCAL m = min (s.m.rd MS_PART_CNT.LOCAL m + 1) (2 ^ MS_PART_CNT.LOCAL.width - 1) ∧
       Only { s.m with moss := { s.m.moss with
         waiting := s.m.moss.waiting.erase q
         active := s.m.moss.active ++ [{ q with reads := q.rows.map (fun _ => ⟨0, false, 0, []⟩) }] } } b
         (MS_PART_CNT.LOCAL.key m 0 :: shown) [])) ∧
   (∀ (k row : Nat) q r x b1, s.m.partAt m k = some q → q.reads[row]? = some r → r.done = false →
     s.m.engRead m q.ctx (s.m.recAddr q.ent q.tick m (q.rows.getD row (0, 0)).1) (eStride q.ent) (decide (r.tries > 0)) = (x, b1) →
     x.find = 0 → b1.regQ = [] →
     Runs (.recordReadReturn m k row) s (fun b => Only { b1 with moss := { b1.moss with
       active := b1.moss.active.map (fun y => if y == q then
         { y with reads := y.reads.set row ⟨r.tries + 1, true, 0, recVals q.ent x.bytes⟩ } else y) } } b shown [])) ∧
   (∀ (k : Nat) q, s.m.partAt m k = some q → (∀ r ∈ q.reads, r.done = true) → q.from_ = none →
     (let has := fun f => q.reads.any (fun r => r.find == f)
      let vs := poolPart q.mode (eDim q.ent)
        (((q.reads.zip q.rows).filter (fun x => x.1.find == 0)).map (fun x => (x.1.vals, x.2.2)))
      Runs (.partPooled m k) s (fun b => b.moss.active = s.m.moss.active.erase q ∧ b.mem = s.m.mem ∧
        b.moss.rets = s.m.moss.rets ++ [if has 3 then ⟨q.l, q.tag, 3, q.rows.length, []⟩
          else if has 2 then ⟨q.l, q.tag, 2, q.rows.length, []⟩
          else ⟨q.l, q.tag, if has 1 then 1 else 0, q.rows.length, vecBytes vs.1 (has 1)⟩]))))
  ) ∧
  (
   ∀ (s : State) (l : LTile) (p : Nat), s.m.siteOf l = p → s.m.regQ = [] →
  (∀ t e b1, (s.m.site p).mss.miss = some t → s.m.dirRead t = (e, true, b1) →
    (let b2 := b1.onMss p (fun u => { u with miss := none })
     let r := b2.room 64 ((b2.site p).mss.cache.filter (fun x => x.1 != t))
     exec (.tableEntryReadReturn l) s = .next { s with m :=
       ((r.2.onMss p (fun u => { u with cache := r.1 ++ [(t, e)] })).mssPump p).drainRegs })) ∧
  (∀ (tag : W32) r, s.m.moss.rets.find? (fun r => r.l == l.val && r.tag == tag.toNat) = some r →
    (s.m.held l = true → Runs (.pooledReturnArrive l tag) s (fun b => b = s.m)) ∧
    (s.m.held l = false → s.m.served l = false → Runs (.pooledReturnArrive l tag) s (fun b =>
      b.rd TL_DROP_CNT.DROPPED_RETURNS = min (s.m.rd TL_DROP_CNT.DROPPED_RETURNS + 1)
        (2 ^ TL_DROP_CNT.DROPPED_RETURNS.width - 1) ∧
      Only { s.m with moss := { s.m.moss with rets := s.m.moss.rets.erase r } } b [TL_DROP_CNT.DROPPED_RETURNS.key 0 0] [])) ∧
    (s.m.held l = false → s.m.served l = true → exec (.pooledReturnArrive l tag) s = .next { s with
      m := (({ s.m with moss := { s.m.moss with rets := s.m.moss.rets.erase r } }.partDone p r.tag r.st r.data).mssPump p).drainRegs })) ∧
  (∀ tag : W32, (∃ g ∈ (s.m.site p).mss.bags, ∃ q ∈ g.parts, q.tag = tag.toNat ∧ q.remote = true ∧ q.sent = true ∧ q.st = none) →
    exec (.partTimeout l tag) s = .next { s with m := ((s.m.partDone p tag.toNat 7 []).mssPump p).drainRegs }) ∧
  (∀ seq : W32, (∃ g ∈ (s.m.site p).mss.groups, ∃ c ∈ g.contribs, c = (seq.toNat, none)) →
    (∀ k ∈ (s.m.site p).mss.packs, k.kind = 2 → seq.toNat ∉ k.tags) →
    exec (.updateTimeout l seq) s = .next { s with m := (s.m.contribDone p seq.toNat 10).drainRegs }) ∧
  Runs .msTdirInval s (fun b => (∀ q, b.site q = { s.m.site q with mss := { (s.m.site q).mss with cache := [] } }) ∧
    b.regs = s.m.regs ∧
    RestKept { s.m with moss := { s.m.moss with waiting := s.m.moss.waiting.map (fun (q : MPart) => { q with owner := true }) } } b)
  ) ∧
  (
   ∀ (a : Block) (p tag st : Nat) (data : MBytes),
  (∀ g, (a.site p).mss.bags.find? (fun g => g.parts.any (fun q => q.tag == tag && q.st.isNone)) = some g → st ≠ 7 →
    (∃ q ∈ g.parts, q.tag ≠ tag ∧ q.st = none) →
    (let b := a.partDone p tag st data
     (b.site p).mss.bags = (a.site p).mss.bags.map (fun x => if x == g then
       { g with parts := g.parts.map (fun q => if q.tag == tag then { q with st := some st, data := data } else q) } else x) ∧
     Only a b [] [p])) ∧
  ((a.site p).mss.bags.find? (fun g => g.parts.any (fun q => q.tag == tag && q.st.isNone)) = none → st ≠ 7 →
    (a.partDone p tag st data).rd TL_MSS_LATE.LATE_RETURNS p =
      min (a.rd TL_MSS_LATE.LATE_RETURNS p + 1) (2 ^ TL_MSS_LATE.LATE_RETURNS.width - 1) ∧
    Only a (a.partDone p tag st data) [TL_MSS_LATE.LATE_RETURNS.key p 0] [])
  )

/-- R352, R356: an apply pass adds the contributions of a row in ascending order of node, tile and SEQ, whatever order they
arrived in: two arrival orders of contributions with distinct keys give one order of addition.
R354, R362: a contribution is refused as of a closed window, LATE after the pass has begun, without ACCEPT, for a bucket
the module does not own or of another version, in that order of causes, and is counted; one that passes every check enters
the merge buffer at its row and window, joining an entry that is there.
R346, R358, R360: an apply pass marks its tick as begun; with one entry due, whose row the module owns and which is in no
grace, it applies that entry; in grace it defers it and counts the deferral; a row no longer owned is dropped with a record
of class MOSS. Applying an entry takes it out of the merge buffer. -/
def Obligations.MossMerges : Prop :=
  (
   ∀ l : List Contrib,
  (byKey l).Perm l ∧ (byKey l).Pairwise (fun x y => keyLe x y = true) ∧
  ∀ k : List Contrib, k.Perm l → (l.map (fun x => (x.node, x.l, x.seq))).Nodup → byKey k = byKey l
  ) ∧
  (
   ∀ (a : Block) (node l ctx u : Nat) (c : ContribItem) (e : List Nat) (good : Bool)
  (b1 : Block), a.dirRead c.table = (e, good, b1) → b1.regs = a.regs → b1.moss = a.moss →
  (let r := a.contribute node l ctx u c
   let e' := if good then e else []
   let m := min (eHome e') 11
   let same := fun (x : MEntry) => x.eng == m && x.table == c.table && x.row == c.row && x.window == u
   (u + 1 < a.now ∨ a.now + 1 < u → r.1 = 1) ∧
   (u + 1 = a.now → SMap.get 0 a.moss.passAt m = a.now + 1 → r.1 = 2) ∧
   (u = a.now → a.on MS_UPD_CTRL.ACCEPT = false → r.1 = 9) ∧
   (r.1 ≠ 0 → r.2.moss = a.moss) ∧
   (r.1 = 0 → a.moss.merge.any same = false → r.2.moss.merge = a.moss.merge ++
     [⟨m, c.table, c.row, u, e', [⟨node, l, c.seq, c.vals, c.pois⟩], false⟩]) ∧
   (r.1 = 0 → a.moss.merge.any same = true → r.2.moss.merge = a.moss.merge.map (fun x => if same x then
     { x with contribs := x.contribs ++ [⟨node, l, c.seq, c.vals, c.pois⟩] } else x)))
  ) ∧
  (
   ∀ (s : State) (m : Fin 12) (x : MEntry), s.m.regQ = [] →
  (let t := s.m.now
   let begun := { s.m with moss := { s.m.moss with
     passAt := SMap.set 0 s.m.moss.passAt m.val (t + 1)
     merge := s.m.moss.merge.map (fun (x : MEntry) => if x.eng == m.val then { x with deferred := false } else x) } }
   (begun.moss.merge.filter (fun (x : MEntry) => x.eng == m.val && decide (x.window + 1 ≤ t)) = [] →
     Runs (.applyPass m) s (fun b => b = begun.showMerge m)) ∧
   (begun.moss.merge.filter (fun (x : MEntry) => x.eng == m.val && decide (x.window + 1 ≤ t)) = [x] →
     ∀ e good b1, begun.dirRead x.table = (e, good, b1) → b1.regQ = [] →
     (let e' := if good && b1.entGood e && eClass e == 1 then e else x.ent
      let f := SMap.get 0 b1.moss.flips (b1.recAddr e' x.window 0 x.row)
      (b1.on MS_BSLOT.OWNED 0 (x.row % 4096) = false →
        Runs (.applyPass m) s (fun b => b = (b1.mergeDrop x 4).showMerge m)) ∧
      (b1.on MS_BSLOT.OWNED 0 (x.row % 4096) = true → f ≠ 0 → t < f + 1 → Runs (.applyPass m) s (fun b =>
        b = (({ b1 with moss := { b1.moss with
          merge := b1.moss.merge.map (fun y => if y == x then { y with deferred := true } else y) } }.inc
          MS_UPD_ERR.DEFERRALS 1 m.val).showMerge m))) ∧
      (b1.on MS_BSLOT.OWNED 0 (x.row % 4096) = true → f = 0 ∨ f + 1 ≤ t →
        exec (.applyPass m) s = .next { s with m := ((b1.entryApply x e').showMerge m).drainRegs })))) ∧
  ∀ e, x ∉ (s.m.entryApply x e).moss.merge
  )

/-- R377 to R379: a word in its poisoned form is recognised and left as it is in both modes; a word with its correct code is
left as it is; a word in which one of its 18 symbols has changed, data or code, is corrected back to its data with a fresh
code in correcting mode. -/
def Obligations.SymbolErrors : Prop := ∀ (d : Nat), d < 2 ^ 128 →
  (∀ c, checkWord c (Cw.clean d) = (.clean, Cw.clean d) ∧ checkWord c (Cw.poison d) = (.poison, Cw.poison d)) ∧
  (∀ k e, k < 18 → 0 < e → e < 256 → checkWord true ((Cw.clean d).upset (e * 2 ^ (8 * k))) = (.corrected, Cw.clean d))

/-- R365, R380, R386, R405, R419, R423, R503: at a stack that serves, under a context that passes the granule's tag, with no
copy in any cache and a clean word stored: a read of the word answers its 16 bytes and changes nothing; a write answers good
and leaves exactly that word changed; a 64-bit Fetch-and-Add answers the old value and adds; a Compare-and-Swap answers the
old value and stores only where it equals the comparand. Without a matching tag the answer is a tag failure with no data. A
control core's request carries XL_CORE_CTX; its read of another node waits for the data (`Block.dmRead`), its write there
carries path release (`Block.dmWrite` with REL 1; its class 0 is the model's choice, log 55), and its FENCE is answered
once it has no open write. -/
def Obligations.MemoryRequests : Prop := ∀ (s : State) (src : Nat) (ctx : BitVec 12) (pa : BitVec 56) (m o : Nat),
  s.m.regQ = [] →
  (let a := offOf pa.toNat
   let w := s.m.mem.word (a / 16)
   let put := fun (d : Nat) => { s.m with mem := s.m.mem.setWord (a / 16) ⟨d, 0⟩ }
   (coreOf src = none → s.m.place a = .hbm m o → s.m.rd MEM_STATUS.STATE m ≠ 3 → a % 16 = 0 → s.m.rc = [] → s.m.sf = [] →
     (tagPasses (s.m.tagAt a) ctx.toNat = true → w.dev = 0 →
       Runs (.memoryRequest src ctx pa (.read 16) false 0) s (fun b =>
         b = s.m.emit (.data src a 0 (plain (s.m.mem.loadBs a 16)))) ∧
       (∀ bs : List Byte, bs.length = 16 → Runs (.memoryRequest src ctx pa (.write (plain bs)) false 0) s (fun b =>
         b = (put (leNat bs)).emit (.data src a 0 []))) ∧
       (∀ v : W64, Runs (.memoryRequest src ctx pa (.fetchAdd true v) false 0) s (fun b =>
         b = (put (w.data / 2 ^ 64 * 2 ^ 64 + (w.data % 2 ^ 64 + v.toNat) % 2 ^ 64)).emit
           (.data src a 0 (plain (leBytes 8 (w.data % 2 ^ 64)))))) ∧
       (∀ v cmp : W64, Runs (.memoryRequest src ctx pa (.cas true v cmp) false 0) s (fun b =>
         b = ((if w.data % 2 ^ 64 = cmp.toNat then put (w.data / 2 ^ 64 * 2 ^ 64 + v.toNat) else s.m)).emit
           (.data src a 0 (plain (leBytes 8 (w.data % 2 ^ 64))))))) ∧
     (tagPasses (s.m.tagAt a) ctx.toNat = false → ∀ (n : Fin 129), Runs (.memoryRequest src ctx pa (.read n) false 0) s (fun b =>
       b = (s.m.tagFail ctx.toNat a).emit (.data src a 2 [])))) ∧
   (∀ h, coreOf src = some h →
     (let own := s.m.rd XL_CORE_CTX.CTX 0 h
      (s.m.openWrites src none = [] → Runs (.memoryRequest src ctx pa .fence false 0) s (fun b =>
        b = s.m.emit (.data src pa.toNat 0 []))) ∧
      (nodeOf pa.toNat ≠ s.m.rd XL_NODE.SELF →
        (∀ (n : Fin 129) b1, s.m.dmRead (nodeOf pa.toNat) 0 src own a n.val (.core h pa.toNat) = (true, b1) →
          exec (.memoryRequest src ctx pa (.read n) false 0) s = .next { s with m := b1.drainRegs }) ∧
        (∀ (ms : MBytes) b1, s.m.dmWrite (nodeOf pa.toNat) 0 src 1 own a ms none none = (true, b1) →
          exec (.memoryRequest src ctx pa (.write ms) false 0) s =
            .next { s with m := (b1.emit (.data src pa.toNat 0 [])).drainRegs })))))

/-- R81: at an absent address a read returns words that carry the poison syndrome, a write is discarded, and both write one
absent-address record against the requesting context, which for a control core is XL_CORE_CTX. -/
def Obligations.AbsentAddresses : Prop := ∀ (s : State) (src : Nat) (ctx : BitVec 12) (pa : BitVec 56), s.m.regQ = [] →
  coreOf src = none ∨ nodeOf pa.toNat = s.m.rd XL_NODE.SELF →
  (let a := offOf pa.toNat
   let recorded := fun (cause : Nat) =>
     s.m.report { cls := 4, cause := cause, level := 4, ctx := some (s.m.reqCtx src ctx.toNat), addr := a }
   (∀ n : Fin 129, 0 < n.val → (∀ k < n.val, s.m.place (a + k) = .absent) → ∀ parity flip,
     Runs (.memoryRequest src ctx pa (.read n) parity flip) s (fun b =>
       b = (recorded 1).emit (.data src a 0 (List.replicate n (0, true))))) ∧
   (∀ bs : MBytes, 0 < bs.length → (∀ k < bs.length, s.m.place (a + k) = .absent) → ∀ parity flip,
     Runs (.memoryRequest src ctx pa (.write bs) parity flip) s (fun b => b = (recorded 2).emit (.data src a 1 []))))

/-- R380, R382, R402: the patrol scrub of a live word: a word with its correct code or in its poisoned form is left; one with
a correctable error is rewritten corrected and counted; an uncorrectable one is rewritten in its poisoned form and counted
and recorded with the scrub as its source.
R371, R372, R375, R395: a live map-out of a channel of a serving stack with fewer than four channels out starts a
migration, any other request sets CFG_ERR and changes nothing else; a migration move counts one granule and the last one returns the stack to SERVING;
a failed package is marked; a row repair runs only in BRINGUP and ends as DONE or FAILED with the rows left. -/
def Obligations.MemoryMaintenance : Prop :=
  (
   ∀ (s : State) (off : BitVec 46), s.m.regQ = [] →
  (let a := off.toNat / 16 * 16
   let r := checkWord (s.m.correcting a) (s.m.getWord a)
   s.m.memLive a = true → s.m.on MEM_CTRL.SCRUB_EN (s.m.locOf a).1 = true →
   (r.1 = .clean ∨ r.1 = .poison → Runs (.scrubRead off 0) s (fun b => b = s.m)) ∧
   (r.1 = .corrected → Runs (.scrubRead off 0) s (fun b => b = (s.m.putWord a r.2).memCorr a)) ∧
   (r.1 = .uncorrectable → Runs (.scrubRead off 0) s (fun b => b = (s.m.putWord a r.2).memErr a 1)))
  ) ∧
  (
   ∀ (s : State) (m : Fin 12), s.m.regQ = [] →
  (∀ ch : BitVec 5,
    (let eff := s.m.rd MEM_CHMAP.EFFECTIVE m
     (s.m.rd MEM_STATUS.STATE m = 1 → s.m.chOut m < 4 → bit eff ch.toNat = false → Runs (.memMapoutGo m ch) s (fun b =>
       b.rd MEM_STATUS.STATE m = 2 ∧ b.rd MEM_CHMAP.EFFECTIVE m = setBits eff ch.toNat 1 1 % 2 ^ MEM_CHMAP.EFFECTIVE.width ∧
       b.rd MEM_STATUS.MIG_PROGRESS m = 0 ∧ b.rd MEM_MAPOUT.CHANNEL m = ch.toNat ∧
       Only { s.m with migCh := SMap.set 0 s.m.migCh m ch.toNat } b [MEM_MAPOUT.CHANNEL.key m 0, MEM_CHMAP.PENDING.key m 0,
         MEM_CHMAP.EFFECTIVE.key m 0, MEM_STATUS.STATE.key m 0, MEM_STATUS.OUT.key m 0, MEM_STATUS.MIG_PROGRESS.key m 0] [])) ∧
     (s.m.rd MEM_STATUS.STATE m ≠ 1 ∨ 4 ≤ s.m.chOut m ∨ bit eff ch.toNat = true → Runs (.memMapoutGo m ch) s (fun b =>
       b.rd MEM_STATUS.CFG_ERR m = 1 ∧ Only s.m b [MEM_STATUS.CFG_ERR.key m 0] [])))) ∧
  (s.m.rd MEM_STATUS.STATE m = 2 → (∀ k < 16, (s.m.getWord (m.val * 2 ^ 36 + s.m.rd MEM_STATUS.MIG_PROGRESS m * 256 + 16 * k)).dev
      = 0) → Runs (.migrationMove m) s (fun b =>
    b.rd MEM_STATUS.MIG_PROGRESS m = (s.m.rd MEM_STATUS.MIG_PROGRESS m + 1) % 2 ^ MEM_STATUS.MIG_PROGRESS.width ∧
    b.rd MEM_STATUS.STATE m = (if s.m.granules m ≤ s.m.rd MEM_STATUS.MIG_PROGRESS m + 1 then 1 else 2) ∧
    Only s.m b [MEM_STATUS.MIG_PROGRESS.key m 0, MEM_STATUS.STATE.key m 0] [])) ∧
  (∀ p : Fin 16, bit (s.m.rd MEM_PKGMAP.EFFECTIVE (12 + p.val / 4)) (p.val % 4) = false → Runs (.peatPackageFail p) s (fun b =>
    b.rd MEM_PKGMAP.FAILED (12 + p.val / 4) = setBits (s.m.rd MEM_PKGMAP.FAILED (12 + p.val / 4)) (p.val % 4) 1 1 %
      2 ^ MEM_PKGMAP.FAILED.width ∧ Only s.m b [MEM_PKGMAP.FAILED.key (12 + p.val / 4) 0] [])) ∧
  (∀ (ch : BitVec 5) (pc : Bool) (bank : BitVec 4) (row : BitVec 18),
    (let keys := [MEM_PPR.CHANNEL.key m 0, MEM_PPR.PC.key m 0, MEM_PPR.BANK.key m 0, MEM_PPR.ROW.key m 0]
     (s.m.rd MEM_STATUS.STATE m = 0 → s.m.on MEM_PPR_STATUS.BUSY m = false → Runs (.memPprGo m ch pc bank row) s (fun b =>
       b.rd MEM_PPR_STATUS.BUSY m = 1 ∧ b.rd MEM_PPR.ROW m = row.toNat ∧ Only s.m b (MEM_PPR_STATUS.BUSY.key m 0 :: keys) [])) ∧
     (s.m.rd MEM_STATUS.STATE m ≠ 0 ∨ s.m.on MEM_PPR_STATUS.BUSY m = true → Runs (.memPprGo m ch pc bank row) s (fun b =>
       b.rd MEM_STATUS.CFG_ERR m = 1 ∧ Only s.m b [MEM_STATUS.CFG_ERR.key m 0] [])))) ∧
  (∀ (ok : Bool) (spares : BitVec 8), s.m.on MEM_PPR_STATUS.BUSY m = true → Runs (.pprComplete m ok spares) s (fun b =>
    b.rd MEM_PPR_STATUS.BUSY m = 0 ∧ b.rd MEM_PPR_STATUS.SPARES m = spares.toNat ∧
    (if ok then b.rd MEM_PPR_STATUS.DONE m = 1 else b.rd MEM_PPR_STATUS.FAILED m = 1) ∧
    Only s.m b [MEM_PPR_STATUS.BUSY.key m 0, MEM_PPR_STATUS.SPARES.key m 0, (if ok then MEM_PPR_STATUS.DONE else
      MEM_PPR_STATUS.FAILED).key m 0] []))
  )

/-- R384, R385, R388, R389, R419: an access of a region master whose port waits for no line of the slice, to a line its cache
holds with a tag that passes, is served by the cache; a read that misses, with room for its miss, waits for its line and
nothing is answered; when the line arrives the waiting access is served. A port that waits for a line of a slice is blocked
there: the access leaves no trace.
R392, R393: LOCK_MASK takes its new value, no line stays in a way newly reserved and no locked line in a way given back;
a preload is accepted only when none runs and its lines are memory, else CFG_ERR; at its end every line of it has been
counted as done or failed and BUSY clears; the lock window reads the locked line's stored bytes and their codes. -/
def Obligations.RegionCaches : Prop :=
  (
   ∀ (s : State) (r : Fin 32) (port : Nat) (ctx : BitVec 12) (off : BitVec 46) (n : Fin 129),
  s.m.regQ = [] → s.m.cacheable off.toNat false = true →
  (let a := off.toNat
   let line := a / 128
   let len := min n.val (128 - a % 128)
   (s.m.portBlocked r port line = true → Runs (.regionCacheAccess r port ctx off none n none 0) s (fun b => b = s.m)) ∧
   (s.m.portBlocked r port line = false → (∀ y ∈ s.m.rcSet r line, y.bad = false) →
     (∀ x, s.m.rcFind r line = some x → tagPasses x.tag ctx.toNat = true → 0 < n.val →
       (let q := ((s.m.inc RC_ACC_CNT.HITS 1 r).plruUse r line x.way).rcReadHit r line (a % 128) len
        Runs (.regionCacheAccess r port ctx off none n none 0) s (fun b => b = q.2.emit (.data port a 0 q.1)))) ∧
     (s.m.rcFind r line = none → (s.m.rcWay r line).isSome = true →
       (s.m.misses.filter (fun x => x.region == r.val && sliceOf x.line == sliceOf line)).length < 32 →
       Runs (.regionCacheAccess r port ctx off none n none 0) s (fun b =>
         b = { s.m.inc RC_ACC_CNT.MISSES 1 r with
           misses := s.m.misses ++ [⟨r, line, port, false, a % 128, List.replicate len (0, false), ctx.toNat⟩] }))) ∧
   (∀ (x : RcMiss) (ln : BitVec 39), s.m.misses = [x] → x.region = r.val → x.line = ln.toNat → s.m.rcFind r ln.toNat = none →
     tagPasses (s.m.tagAt (x.line * 128)) x.ctx = true →
     exec (.cacheFillReturn r ln) s = .next { s with
       m := (({ s.m with misses := [] }.rcFill r x.ctx ln.toNat x.write).serveMiss x).drainRegs }))
  ) ∧
  (
   ∀ (s : State) (r : Fin 32), s.m.regQ = [] →
  (∀ mask : BitVec 16, Runs (.lockMaskWrite r mask) s (fun b => b.rd RC_CTRL.LOCK_MASK r = mask.toNat ∧
    ∀ x ∈ b.rc, x.region = r.val → x.way < 16 →
      (bit mask.toNat x.way = true → bit (s.m.rd RC_CTRL.LOCK_MASK r) x.way = true) ∧
      (x.st = .locked → bit (s.m.rd RC_CTRL.LOCK_MASK r) x.way = true → bit mask.toNat x.way = true))) ∧
  (∀ (way : BitVec 4) (addr : BitVec 39),
    (let n := s.m.rd RC_PRELOAD_CNT.COUNT r
     let keys := [RC_PRELOAD.WAY.key r 0, RC_PRELOAD.ADDR.key r 0]
     (s.m.on RC_STATUS.PRELOAD_BUSY r = false → s.m.linesOk addr.toNat n = true → Runs (.rcPreloadGo r way addr) s (fun b =>
       b.rd RC_STATUS.PRELOAD_BUSY r = 1 ∧
       Only { s.m with pre := s.m.pre ++ [⟨r, way.toNat, addr.toNat, n⟩] } b (RC_STATUS.PRELOAD_BUSY.key r 0 :: keys) [])) ∧
     (s.m.on RC_STATUS.PRELOAD_BUSY r = true ∨ s.m.linesOk addr.toNat n = false → Runs (.rcPreloadGo r way addr) s (fun b =>
       b.rd RC_STATUS.CFG_ERR r = 1 ∧ Only s.m b [RC_STATUS.CFG_ERR.key r 0] [])))) ∧
  (∀ q, s.m.pre.find? (fun x => x.region == r.val) = some q → Runs (.rcPreloadEnd r) s (fun b =>
    b.rd RC_STATUS.PRELOAD_BUSY r = 0 ∧ (∀ x ∈ b.pre, x.region ≠ r.val) ∧
    ∃ x : PreRes, x.done + x.failed = q.count ∧ b.rd RC_PRELOAD_STATUS.DONE r = x.done % 2 ^ RC_PRELOAD_STATUS.DONE.width ∧
      b.rd RC_PRELOAD_STATUS.FAILED r = x.failed % 2 ^ RC_PRELOAD_STATUS.FAILED.width)) ∧
  (∀ (src : Nat) (ctx : BitVec 12) (w : BitVec 23) x, s.m.lockedAt r w.toNat = some x → w.toNat % 16 = 0 →
    NSet.mem s.m.isolated (r.val / 4) = false →
    (let a := 0x030100000000 + r.val * 2 ^ 23 + w.toNat
     let word := x.words.getD (w.toNat % 128 / 16) (Cw.clean 0)
     Runs (.lockWindowAccess src ctx r w (.read 16)) s (fun b =>
       b = (s.m.emit (.data src a 0 (word.slice 0 16))).emit (.codes src a [word.code]))))
  )

/-- R407, R411 to R414, R424, R431: with translation enabled, a tile's access that hits its TLB, with the permission it needs
and a local page, is answered with the physical address the entry gives and cause 0; a walk whose last table is known reads
one entry there, and a good leaf of this module gives the address; a disabled unit or a non-canonical address is answered
with its cause, counted and recorded in a record of class 2.
R408, R409: the causes an entry of a page table ends the walk with, in the order the spec judges them. -/
def Obligations.Translations : Prop :=
  (
   ∀ (s : State) (p : SiteIx) (ctx : BitVec 12) (va : W64) (write : Bool), s.m.regQ = [] →
  (canonical va.toNat = true → s.m.on XL_CTRL.ENABLE = true → s.m.inval = none →
    ∀ e, (s.m.site p).tlb.find? (fun e => e.hits ctx.toNat va.toNat) = some e → e.cause write = 0 →
    nodeOf (e.pa va.toNat) = s.m.rd XL_NODE.SELF →
    Runs (.walkComplete (some p) ctx va write false) s (fun b => b.out = s.m.out ++ [.reply 4 0 [e.pa va.toNat]] ∧
      b.rd TL_TLB_CNT.LOOKUPS p = min (s.m.rd TL_TLB_CNT.LOOKUPS p + 1) (2 ^ TL_TLB_CNT.LOOKUPS.width - 1) ∧
      b.faultQ = s.m.faultQ ∧ b.mem = s.m.mem)) ∧
  (canonical va.toNat = true → s.m.on XL_CTRL.ENABLE = true → s.m.stlb.find? (fun e => e.hits ctx.toNat va.toNat) = none →
    ∀ e w pte b1, s.m.cctx.find? (fun e => e.ctx == ctx.toNat) = some e → e.valid = true → e.ctx = ctx.toNat →
    s.m.wcache.find? (fun w => w.ctx == e.ctx && w.level == 0 && w.prefix_ == va.toNat / 2 ^ 21 % 2 ^ 36) = some w →
    (s.m.inc XL_WALK_CNT.WALKS).tableWords (w.table + 8 * bits va.toNat 12 9) 1 = ([pte], false, b1) →
    pteCause pte 0 write = 0 →
    (let pa := (bits pte 10 44 * 4096 + va.toNat % 4096) % 2 ^ 56
     nodeOf pa = b1.rd XL_NODE.SELF → b1.regQ = [] → Runs (.walkComplete none ctx va write false) s (fun b =>
       b.out = b1.out ++ [.reply 4 0 [pa]] ∧ b.mem = b1.mem ∧ b.faultQ = b1.faultQ))) ∧
  (∀ site, canonical va.toNat = false ∨ s.m.on XL_CTRL.ENABLE = false →
    (let c := if s.m.on XL_CTRL.ENABLE then 2 else 1
     Runs (.walkComplete site ctx va write false) s (fun b => b = (s.m.xlFail c ctx.toNat va.toNat).emit (.reply 4 c [0]) ∧
       (∃ f, b.faultQ = s.m.faultQ ++ [f] ∧ f.cls = 2 ∧ f.cause = c ∧ f.ctx = some ctx.toNat ∧ f.addr = va.toNat) ∧
       b.rd XL_FAULT_CNT.XLAT = min (s.m.rd XL_FAULT_CNT.XLAT + 1) (2 ^ XL_FAULT_CNT.XLAT.width - 1))))
  ) ∧
  (
   ∀ (pte level : Nat) (write : Bool), level ≤ 3 →
  (bit pte 0 = false → pteCause pte level write = cInvalid) ∧
  (bit pte 0 = true → bit pte 2 = true → bit pte 1 = false → pteCause pte level write = cReserved) ∧
  (pteCause pte level write = 0 → bit pte 0 = true ∧ bits pte 54 10 = 0 ∧
    (bit pte 1 = true → level < 3 ∧ bits pte 10 44 % 2 ^ (9 * level) = 0 ∧ bit pte 6 = true ∧
      (write = true → bit pte 2 = true ∧ bit pte 7 = true)) ∧
    (bit pte 1 = false → bit pte 3 = false ∧ level ≠ 0))
  )

/-- R415 to R417: an invalidation is refused with CFG_ERR while one runs or for a scope it has not; else the shared
translations it covers go at once and BUSY is set; each tile it is sent to removes the covered entries of its TLB when it
arrives; once a reached tile has drained it reports; with every report in and the unit's own users drained, BUSY clears and
DONE_SEQ counts one. -/
def Obligations.Invalidation : Prop := ∀ (s : State), s.m.regQ = [] →
  (∀ (scope : BitVec 2) (ctx : BitVec 12) (pages : BitVec 20),
    (let keys := [XL_INVAL.SCOPE.key 0 0, XL_INVAL.CTX.key 0 0, XL_INVAL.PAGES.key 0 0]
     (s.m.on XL_INVAL_STATUS.BUSY = true ∨ scope = 3 ∨ (scope = 2 ∧ pages = 0) → Runs (.xlInvalGo scope ctx pages) s (fun b =>
       b.rd XL_INVAL_STATUS.CFG_ERR = 1 ∧ Only s.m b (XL_INVAL_STATUS.CFG_ERR.key 0 0 :: keys) [])) ∧
     (s.m.on XL_INVAL_STATUS.BUSY = false → scope ≠ 3 → (scope = 2 → pages ≠ 0) → Runs (.xlInvalGo scope ctx pages) s (fun b =>
       b.rd XL_INVAL_STATUS.BUSY = 1 ∧ RegsBut (XL_INVAL_STATUS.BUSY.key 0 0 :: keys) s.m b ∧
       (∀ e ∈ b.stlb, e ∈ s.m.stlb ∧ (scope = 0 → False) ∧ (scope = 1 → e.ctx ≠ ctx.toNat)) ∧
       (∃ i, b.inval = some i ∧ i.scope = scope.toNat ∧ i.ctx = ctx.toNat ∧ i.pages = pages.toNat ∧
         i.va = s.m.rd XL_INVAL_VA.VA * 4096 ∧ i.toArrive = s.m.invalSites ∧ i.toReport = s.m.invalSites) ∧
       b.sites = s.m.sites ∧ b.mem = s.m.mem)))) ∧
  (∀ (p : SiteIx) i, s.m.inval = some i → NSet.mem i.toArrive p = true → Runs (.invalidationArrive p) s (fun b =>
    (b.site p) = { s.m.site p with tlb := (s.m.site p).tlb.filter (fun e => !i.hits e) } ∧ SitesBut [p.val] s.m b ∧
    (∃ j, b.inval = some j ∧ j.toArrive = NSet.del i.toArrive p ∧ j.toReport = i.toReport) ∧
    b.rd TL_TLB_STATUS.DRAINING p = 1 ∧ b.mem = s.m.mem)) ∧
  (∀ (p : SiteIx) i, s.m.inval = some i → NSet.mem i.toArrive p = false → NSet.mem i.toReport p = true →
    s.m.drained p i.drains = true → Runs (.drainReport p) s (fun b => b.rd TL_TLB_STATUS.DRAINING p = 0 ∧
      Only { s.m with inval := some { i with toReport := NSet.del i.toReport p } } b [TL_TLB_STATUS.DRAINING.key p 0] [])) ∧
  (∀ i, s.m.inval = some i → i.toReport = [] → s.m.drained 576 i.drains = true → Runs .invalidationComplete s (fun b =>
    b.inval = none ∧ b.rd XL_INVAL_STATUS.BUSY = 0 ∧
    b.rd XL_INVAL_STATUS.DONE_SEQ = (s.m.rd XL_INVAL_STATUS.DONE_SEQ + 1) % 2 ^ XL_INVAL_STATUS.DONE_SEQ.width ∧
    Only { s.m with inval := none } b [XL_INVAL_STATUS.BUSY.key 0 0, XL_INVAL_STATUS.DONE_SEQ.key 0 0] []))

/-- R419 to R422: a tag change of a range of granules, all of which have tags, sets BUSY, anything else is a CFG_ERR; at its
completion every granule of the range has the tag, every other keeps its own, and DONE_SEQ counts one; a tag read answers
the granule's tag.
R430: a window removal, refused while one runs, takes the entry (or all) out of the window caches and sets BUSY; its
completion, once no write to a held tile waits, clears BUSY and counts one in DONE_SEQ. -/
def Obligations.TagsAndWindows : Prop :=
  (
   ∀ (s : State), s.m.regQ = [] →
  (∀ (first : BitVec 25) (count : BitVec 20) (tag : BitVec 12),
    (let keys := [XL_TAG_SET.FIRST.key 0 0, XL_TAG_SET.COUNT.key 0 0, XL_TAG_SET.TAG.key 0 0]
     let ok := s.m.on XL_TAG_STATUS.BUSY = false ∧ count ≠ 0 ∧ ∀ k < count.toNat, s.m.granulePresent (first.toNat + k) = true
     (ok → Runs (.xlTagSetGo first count tag) s (fun b => b.rd XL_TAG_STATUS.BUSY = 1 ∧
       Only { s.m with tagSet := some (first.toNat, count.toNat, tag.toNat) } b (XL_TAG_STATUS.BUSY.key 0 0 :: keys) [])) ∧
     (¬ ok → Runs (.xlTagSetGo first count tag) s (fun b => b.rd XL_TAG_STATUS.CFG_ERR = 1 ∧
       Only s.m b (XL_TAG_STATUS.CFG_ERR.key 0 0 :: keys) [])))) ∧
  (∀ first count tag, s.m.tagSet = some (first, count, tag) → Runs .tagSetComplete s (fun b =>
    (∀ g, SMap.get 0xFFF b.tags g = if first ≤ g ∧ g < first + count then tag else SMap.get 0xFFF s.m.tags g) ∧
    b.tagSet = none ∧ b.rd XL_TAG_STATUS.BUSY = 0 ∧
    b.rd XL_TAG_STATUS.DONE_SEQ = (s.m.rd XL_TAG_STATUS.DONE_SEQ + 1) % 2 ^ XL_TAG_STATUS.DONE_SEQ.width)) ∧
  (∀ g : BitVec 25, Runs (.xlTagRd g) s (fun b => b.rd XL_TAG_RD.GRANULE = g.toNat ∧
    Only { s.m with out := s.m.out ++ [.reply 5 (s.m.granulePresent g.toNat).toNat [SMap.get 0xFFF s.m.tags g.toNat]] } b
      [XL_TAG_RD.GRANULE.key 0 0] []))
  ) ∧
  (
   ∀ (s : State), s.m.regQ = [] →
  (∀ (index : BitVec 13) (all : Bool),
    (let keys := [XL_WINVAL.INDEX.key 0 0, XL_WINVAL.ALL.key 0 0]
     (s.m.on XL_WINVAL_STATUS.BUSY = false → Runs (.xlWinvalGo index all) s (fun b => b.rd XL_WINVAL_STATUS.BUSY = 1 ∧
       Only { s.m with wins := s.m.wins.filter (fun w => !(all || w.index == index.toNat)) } b
         (XL_WINVAL_STATUS.BUSY.key 0 0 :: keys) [])) ∧
     (s.m.on XL_WINVAL_STATUS.BUSY = true → Runs (.xlWinvalGo index all) s (fun b => b.rd XL_WINVAL_STATUS.CFG_ERR = 1 ∧
       Only s.m b (XL_WINVAL_STATUS.CFG_ERR.key 0 0 :: keys) [])))) ∧
  (s.m.on XL_WINVAL_STATUS.BUSY = false ∨ s.m.heldQ.any (fun x => x.2.isStore) = true →
    Runs .windowRemovalComplete s (fun b => b = s.m)) ∧
  (s.m.on XL_WINVAL_STATUS.BUSY = true → s.m.heldQ.any (fun x => x.2.isStore) = false →
    Runs .windowRemovalComplete s (fun b => b.rd XL_WINVAL_STATUS.BUSY = 0 ∧
    b.rd XL_WINVAL_STATUS.DONE_SEQ = (s.m.rd XL_WINVAL_STATUS.DONE_SEQ + 1) % 2 ^ XL_WINVAL_STATUS.DONE_SEQ.width ∧
    Only s.m b [XL_WINVAL_STATUS.BUSY.key 0 0, XL_WINVAL_STATUS.DONE_SEQ.key 0 0] []))
  )

/-- R22, R47, R49, R510, R553: the alignment state after each event outside a boundary: the reference lost and regained, the
clock locked, the holdover at its end, ENABLE set and cleared, EPOCH_LOAD; leaving LOCKED writes one record of class 18; the
window of the residue counters clears them at its boundary and at no other tick. -/
def Obligations.AlignmentStates : Prop := ∀ (s : State), s.m.regQ = [] →
  (let st := s.m.rd TK_STATUS.STATE
   let own := s.m.rd TK_CTRL.SOURCE = 0
   let left : List FaultRec := if st = 2 then [{ cls := 18, cause := 1, level := 4 }] else []
   Runs .referenceLost s (fun b => b.rd DM_PTP_CTRL.REF_LOST = 1 ∧ b.tick.reference = false ∧
     b.rd TK_STATUS.STATE = (if own then (if st = 2 ∨ st = 3 then 4 else if st = 6 then 5 else st) else st) ∧
     b.faultQ = s.m.faultQ ++ (if own then left else []) ∧
     RegsBut [DM_PTP_CTRL.REF_LOST.key 0 0, TK_STATUS.STATE.key 0 0] s.m b) ∧
   (∀ d : W64,
     (s.m.on DM_PTP_CTRL.SERVO_LOCKED = true → Runs (.referenceRegained d) s (fun b =>
       b.rd DM_PTP_CTRL.REF_LOST = 0 ∧ b.tick.reference = true ∧
       b.rd TK_STATUS.STATE = (if own then (if st = 4 then (if d.toNat ≤ s.m.rd TK_ALIGN.RESYNC_US * 1000 then 3 else 6)
         else if st = 5 then 6 else st) else st) ∧
       RegsBut [DM_PTP_CTRL.REF_LOST.key 0 0, TK_STATUS.STATE.key 0 0] s.m b)) ∧
     (s.m.on DM_PTP_CTRL.SERVO_LOCKED = false → Runs (.referenceRegained d) s (fun b =>
       b = { s.m with tick := { s.m.tick with reference := true } })) ∧
     Runs (.clockLocked d) s (fun b => RegsBut [TK_STATUS.STATE.key 0 0] s.m b ∧ b.rd TK_STATUS.STATE =
       (if st = 1 ∧ s.m.on DM_PTP_CTRL.SERVO_LOCKED = true ∧ s.m.tick.reference = true ∧ d.toNat ≤ s.m.rd TK_ALIGN.LIMIT_NS
         then 6 else st))) ∧
   Runs .holdoverExpire s (fun b => RegsBut [TK_STATUS.STATE.key 0 0] s.m b ∧ b.rd TK_STATUS.STATE =
     (if st = 4 ∧ s.m.rd TK_ALIGN.HOLDOVER_TICKS ≤ s.m.tick.holdover then 5 else st)) ∧
   (s.m.tick.fatal = false → Runs .tickEnable s (fun b => b.rd TK_CTRL.ENABLE = 1 ∧ b.tick.stopping = false ∧
     b.rd TK_STATUS.STATE = (if st = 0 then (if own then 1 else 5) else st) ∧
     (st = 0 → b.tick.epNs = s.m.rd TK_EPOCH_NS.EPOCH_NS ∧ b.tick.epTick = s.m.rd TK_EPOCH_TICK.EPOCH_TICK))) ∧
   (s.m.rst = none → s.m.mrst.pending = none → Runs .tickDisable s (fun b => b.rd TK_CTRL.ENABLE = 0 ∧
     b.rd TK_STATUS.STATE = (if st = 1 ∨ st = 6 then 0 else st) ∧
     (st ≠ 0 → st ≠ 1 → st ≠ 6 → b.tick.stopping = true) ∧
     RegsBut [TK_CTRL.ENABLE.key 0 0, TK_STATUS.STATE.key 0 0] s.m b)) ∧
   Runs .epochLoad s (fun b => RegsBut [TK_STATUS.STATE.key 0 0] s.m b ∧
     (st = 0 ∨ s.m.tick.fatal = true → b = s.m) ∧
     (st ≠ 0 → s.m.tick.fatal = false → b.rd TK_STATUS.STATE = 6 ∧ b.faultQ = s.m.faultQ ++ left ∧
       b.tick.epNs = s.m.rd TK_EPOCH_NS.EPOCH_NS ∧ b.tick.epTick = s.m.rd TK_EPOCH_TICK.EPOCH_TICK)) ∧
   Runs .transientWindowClear s (fun b =>
     if s.m.rd TK_COUNT.COUNT % max 1 (s.m.rd FLT_RES_CTRL.WINDOW_TICKS) = 0 then
       (∀ p, b.rd TL_RPL.TRANSIENTS p = 0 ∧ b.rd TL_RPL.CHECKER p = 0) ∧
       (∀ (f : Field) i j, f.id ≠ TL_RPL.TRANSIENTS.id → f.id ≠ TL_RPL.CHECKER.id → b.rd f i j = s.m.rd f i j) ∧ RestKept s.m b
     else b = s.m))

/-- R16, R17, R528: AT_TICK 0 takes a pending period change back; a tick nearer than the stated lead is rejected with
CFG_ERR and changes nothing else; any other value is taken. At the first boundary for a tick at or after AT the next period
is in force, counted from T(AT); that TK_PERIOD_AT then reads 0 is the model's choice (assumption log 16).
R14, R30, R47 to R49, R571: a boundary is generated in LOCKED, SLEWING, HOLDOVER and FREE_RUN: TK_COUNT rises by one,
BOUNDARY_NS takes its time, and every tile in service flips its banks. In SLEWING that time lies at most SLEW_NS from one
period behind the last boundary and between there and the reference's. In RESYNC the reference boundary sets TK_COUNT, with
RESYNCED where it skips a tick. Where ENABLE was cleared before, either leaves STOPPED. Otherwise nothing happens. (Stated for a module in which nothing else waits for the
boundary; the steps and lists of a tile have their own statement.) -/
def Obligations.TickBoundaries : Prop :=
  (
   ∀ (s : State), s.m.regQ = [] →
  (let lead := if s.m.on GRP_CTRL.ENABLE = true ∧ s.m.rd GRP_ROLE.ROLE = 3 then 4 else 2
   Runs (.tkPeriodAtWrite 0) s (fun b => b.rd TK_PERIOD_AT.AT_TICK = 0 ∧ Only s.m b [TK_PERIOD_AT.AT_TICK.key 0 0] []) ∧
   (∀ v : W64, v ≠ 0 →
     (v.toNat < s.m.rd TK_COUNT.COUNT + lead → Runs (.tkPeriodAtWrite v) s (fun b => b.rd TK_STATUS.CFG_ERR = 1 ∧
       Only s.m b [TK_STATUS.CFG_ERR.key 0 0] [])) ∧
     (s.m.rd TK_COUNT.COUNT + lead ≤ v.toNat → lead = 2 → Runs (.tkPeriodAtWrite v) s (fun b =>
       b.rd TK_PERIOD_AT.AT_TICK = v.toNat ∧ Only s.m b [TK_PERIOD_AT.AT_TICK.key 0 0] [])) ∧
     (s.m.rd TK_COUNT.COUNT + lead ≤ v.toNat → lead = 4 → Runs (.tkPeriodAtWrite v) s (fun b =>
       b.rd TK_PERIOD_AT.AT_TICK = v.toNat)))) ∧
  (∀ a : Block, let t := a.rd TK_PERIOD_AT.AT_TICK
    (t = 0 ∨ a.rd TK_COUNT.COUNT < t → a.periodApply = a) ∧
    (t ≠ 0 → t ≤ a.rd TK_COUNT.COUNT → a.periodApply.rd TK_PERIOD.PERIOD_US = a.rd TK_PERIOD.NEXT_US % 2 ^ TK_PERIOD.PERIOD_US.width ∧
      a.periodApply.rd TK_EPOCH_TICK.EPOCH_TICK = t % 2 ^ 64 ∧ a.periodApply.rd TK_PERIOD_AT.AT_TICK = 0 ∧
      a.periodApply.rd TK_EPOCH_NS.EPOCH_NS = tickTime a.tick.epNs a.tick.epTick (a.rd TK_PERIOD.PERIOD_US) t % 2 ^ 64))
  ) ∧
  (
   ∀ (s : State) (m ns : W64),
  (let st := s.m.rd TK_STATUS.STATE
   let n := s.m.rd TK_COUNT.COUNT
   let flips := fun (b : Block) => ∀ l < 512, s.m.served l = true → b.rd TL_STATUS.BANK (s.m.siteOf l) = 1 - s.m.rd TL_STATUS.BANK (s.m.siteOf l)
   (s.m.regQ = [] → (s.m.tick.fatal = true ∨ st = 0 ∨ st = 1 ∨ st = 6 → Runs (.tickBoundary ns) s (fun b => b = s.m)) ∧
     (s.m.tick.fatal = true ∨ st ≠ 6 ∨ m.toNat ≤ n → Runs (.resyncBoundary m ns) s (fun b => b = s.m))) ∧
   (Quiet s.m → s.m.tick.fatal = false → (∀ l < 512, s.m.rd TL_LMAP.SITE 0 l < 18) →
     (∀ l < 512, ∀ k < 512, s.m.siteOf l = s.m.siteOf k → l = k) →
     (st ≠ 0 → st ≠ 1 → st ≠ 6 → Runs (.tickBoundary ns) s (fun b => b.rd TK_COUNT.COUNT = (n + 1) % 2 ^ 64 ∧
       b.rd TK_LAST_BOUNDARY.BOUNDARY_NS = s.m.slewed ns.toNat % 2 ^ 64 ∧ flips b ∧ b.mem = s.m.mem ∧
       (s.m.tick.stopping = true → b.rd TK_STATUS.STATE = 0))) ∧
     (st = 6 → n < m.toNat → Runs (.resyncBoundary m ns) s (fun b => b.rd TK_COUNT.COUNT = m.toNat ∧
       b.rd TK_LAST_BOUNDARY.BOUNDARY_NS = ns.toNat ∧ flips b ∧ b.mem = s.m.mem ∧
       b.rd TK_STATUS.STATE = (if s.m.tick.stopping = true then 0 else if s.m.rd TK_CTRL.SOURCE = 0 then 2 else 5) ∧
       (n + 1 < m.toNat → b.rd TK_STATUS.RESYNCED = 1)))) ∧
  (∀ (a : Block) (ns : Nat),
    (let x := a.slewed ns
     let due := a.rd TK_LAST_BOUNDARY.BOUNDARY_NS + a.rd TK_PERIOD.PERIOD_US * 1000
     let t := tickTime a.tick.epNs a.tick.epTick (a.rd TK_PERIOD.PERIOD_US) (a.now + 1)
     (a.rd TK_STATUS.STATE ≠ 3 ∨ a.rd TK_CTRL.SOURCE ≠ 0 ∨ a.tick.stepped = true → x = ns) ∧
     (a.rd TK_STATUS.STATE = 3 → a.rd TK_CTRL.SOURCE = 0 → a.tick.stepped = false →
       due ≤ x + a.rd TK_ALIGN.SLEW_NS ∧ x ≤ due + a.rd TK_ALIGN.SLEW_NS ∧ min due t ≤ x ∧ x ≤ max due t))))
  )

/-- R30, R34, R36 to R38: what a boundary does to the step that still runs on a site: it counts as overrun once; a soft step
that may spill goes on, marked; any other is aborted, counted, with its program counter kept and its semaphore counts
unchanged. When what an abort left has drained, t0–t7 are undefined, and the next step of the list starts or the tile is idle. -/
def Obligations.StepsAtBoundary : Prop :=
  (∀ (a : Block) (p : Nat) (r : StepRun), p < 576 → (a.site p).run = some r → r.d.pack = false →
    (let b := a.runAtBoundary p .none
     let ovr := if r.spilled then a.rd TK_OVERRUN_CNT.OVERRUN_STEPS else
       min (a.rd TK_OVERRUN_CNT.OVERRUN_STEPS + 1) (2 ^ TK_OVERRUN_CNT.OVERRUN_STEPS.width - 1) % 2 ^ TK_OVERRUN_CNT.OVERRUN_STEPS.width
     b.rd TK_OVERRUN_CNT.OVERRUN_STEPS = ovr ∧
     (r.d.soft = true → r.spilled = false → a.on TK_CTRL.SOFT_SPILL_EN = true →
       (b.site p).run = some (r.spill (a.bankOf p)) ∧ (r.spill (a.bankOf p)).spilled = true ∧ (b.site p).queue = (a.site p).queue ∧
       (b.site p).sreg = (a.site p).sreg ∧ SitesBut [p] a b ∧
       RegsBut [TK_OVERRUN_CNT.OVERRUN_STEPS.key 0 0, TK_LATE_CNT.SPILLED_STEPS.key 0 0] a b ∧ b.mem = a.mem) ∧
     (r.d.soft = false ∨ r.spilled = true ∨ a.on TK_CTRL.SOFT_SPILL_EN = false →
       (b.site p).run = none ∧ (b.site p).queue = [] ∧ (b.site p).flight = [] ∧ (b.site p).draining = true ∧
       b.rd TL_STATUS.RUN p = 2 ∧ b.pcOf p = a.pcOf p ∧ (∀ k, b.rd TL_SEM.COUNT p k = a.rd TL_SEM.COUNT p k) ∧ b.mem = a.mem ∧
       (r.d.soft = false → b.rd TK_ABORT_CNT.HARD_ABORTS = min (a.rd TK_ABORT_CNT.HARD_ABORTS + 1)
         (2 ^ TK_ABORT_CNT.HARD_ABORTS.width - 1) % 2 ^ TK_ABORT_CNT.HARD_ABORTS.width)))) ∧
  (∀ (s : State) (l : LTile), s.m.regQ = [] → s.m.served l = true → (s.m.site (s.m.siteOf l)).draining = true →
    (s.m.site (s.m.siteOf l)).run = none → (s.m.site (s.m.siteOf l)).copying = false →
    (let p := s.m.siteOf l
     ((s.m.site p).todo = [] → Runs (.abortDrainEnd l) s (fun b => b.rd TL_STATUS.RUN p = 0 ∧
       (∃ seed, b.site p = { s.m.site p with
         draining := false, treg := Arr.undef seed, tpois := [], twritten := [], runs := [], far := [] }) ∧
       RegsBut [TL_STATUS.RUN.key p 0] s.m b ∧ SitesBut [p] s.m b ∧ b.mem = s.m.mem ∧ b.bk = s.m.bk ∧ b.out = s.m.out)) ∧
     (∀ r rest, (s.m.site p).todo = r :: rest → s.m.isTerm r.d.ctx = false ∨ r.d.pack = true → r.d.swap = false →
       Runs (.abortDrainEnd l) s (fun b => (b.site p).run = some r ∧ (b.site p).todo = rest ∧ b.rd TL_STATUS.RUN p = 1 ∧
         b.pcOf p = r.d.entry % 2 ^ 13 ∧ b.rd TL_STATUS.CTX p = r.d.ctx % 2 ^ 12 ∧ (b.site p).s 1 = r.d.argsVa % 2 ^ 64 ∧
         (b.site p).s 2 = r.d.rows % 2 ^ 64 ∧ (b.site p).s 3 = r.tick % 2 ^ 64 ∧ (b.site p).s 5 = r.d.budget % 2 ^ 64 ∧
         SitesBut [p] s.m b ∧ b.mem = s.m.mem))))

/-- R29, R31, R571, R665: a plan is closed once for each tick, by an enabled Bracken of a module whose tick runs on: with no
work in flight and no tile in service nothing but the closed tick changes; a disabled Bracken closes none and the lists of
that tick are not late. R120, R121: a page that has arrived holds its 512 words of the image, VALID, not LOADING. R256: a
seed that has been read stands in the bank of its step's list, in place of one a retirement copied. -/
def Obligations.Plans : Prop :=
  (∀ (s : State) (m : W64) (hints : PlanHints), s.m.regQ = [] →
    (let st := s.m.rd TK_STATUS.STATE
     let n := s.m.rd TK_COUNT.COUNT
     let t := if st = 1 ∨ st = 6 then max m.toNat (n + 1) else n + 1
     (s.m.tick.fatal = true → Runs (.planClose m hints) s (fun b => b = s.m)) ∧
     (s.m.tick.fatal = false → s.m.on BK_CTRL.ENABLE = false → Runs (.planClose m hints) s (fun b =>
       b = { s.m with bk := { s.m.bk with off := NSet.add s.m.bk.off t } })) ∧
     (s.m.tick.fatal = false → s.m.on BK_CTRL.ENABLE = true → t ≤ s.m.bk.closedTick → Runs (.planClose m hints) s (fun b =>
       b = s.m)) ∧
     (s.m.tick.fatal = false → s.m.on BK_CTRL.ENABLE = true → s.m.bk.closedTick < t → s.m.bk.cmds = [] → s.m.bk.segs = [] →
       s.m.bk.steps = [] → s.m.on FLT_TP_CTRL.EN = false → Runs (.planClose m hints) s (fun b => b.bk.closedTick = t ∧
         b.regs = s.m.regs ∧ b.mem = s.m.mem ∧
         ∀ l < 512, s.m.served l = true → (∀ k < 512, s.m.siteOf l = s.m.siteOf k → l = k) →
           (b.nextBank (s.m.siteOf l)) = ⟨t, true, [], [], []⟩)))) ∧
  (∀ (s : State) (l : LTile) (page : BitVec 4) x, s.m.regQ = [] → s.m.bk.loads = [x] → x.l = l.val → x.page = page.toNat →
    (let p := s.m.siteOf l
     p < 576 → s.m.nextBank p = PlanBank.empty →
     Runs (.pageLoadEnd l page) s (fun b => b.rd TL_IMEM_PAGE.VALID p page.toNat = 1 ∧ b.rd TL_IMEM_PAGE.LOADING p page.toNat = 0 ∧
       b.rd TL_IMEM_PAGE.PROG_ID p page.toNat = x.prog % 2 ^ TL_IMEM_PAGE.PROG_ID.width ∧ b.bk.loads = [] ∧
       ∀ i < 512, SMap.get 0 (b.site p).imem (page.toNat * 512 + i) =
         leNat (((s.m.mread 0xFFF x.image 4096).1.bytes.drop (8 * i)).take 8)))) ∧
  (∀ (s : State) (p : SiteIx) (index : BitVec 5) q, s.m.regQ = [] →
    s.m.bk.seedReads.find? (fun q => q.site == p.val && q.index == index.toNat) = some q →
    (s.m.mread q.ctx q.off 8).1.tagFail = false → (s.m.mread q.ctx q.off 8).1.pois = false → (s.m.site p).bank0.tick = q.tick →
    Runs (.seedReadReturn p index) s (fun b => ((b.site p).bank0).seeds = (s.m.site p).bank0.seeds.filter (fun x => x.1 != q.index) ++
        [(q.index, leNat (s.m.mread q.ctx q.off 8).1.bytes)] ∧ b.bk.seedReads = s.m.bk.seedReads.erase q ∧
      (b.site p).sreg = (s.m.site p).sreg ∧ SitesBut [p.val] s.m b))

/-- R61, R62: a retirement is accepted when its region has none pending, the tile is in service, its tick lies ahead and a
spare is free for it: PENDING gains the region's bit and nothing else changes; otherwise CFG_ERR. At the end of the copy
PENDING loses the bit. At its boundary the map names the new site, which is ACTIVE, and the old one is RETIRED with the
cause; without a spare the tile loses its place and the request ends. A copy takes the pages, the class M fields and the
semaphore counts along. -/
def Obligations.Retirement : Prop :=
  (∀ (s : State) (l : BitVec 9) (site : BitVec 5) (cause : BitVec 4), s.m.regQ = [] →
    (let r := l.toNat / 16
     let keys := [TL_RETIRE.LTILE.key 0 0, TL_RETIRE.SITE.key 0 0, TL_RETIRE.CAUSE.key 0 0]
     let pick := if site = 31 then s.m.freeSpare r else if (site = 16 ∨ site = 17) ∧
       s.m.rd TL_SITE.STATE 0 (r * 18 + site.toNat) = 1 then some site.toNat else none
     let at_ := s.m.rd TL_RETIRE_AT.AT_TICK
     let ok := bit (s.m.rd TL_MAP_STATUS.PENDING) r = false ∧ s.m.served l.toNat = true ∧
       (at_ = 0 ∨ s.m.rd TK_COUNT.COUNT + 1 ≤ at_) ∧ (site = 31 ∨ pick.isSome)
     let req : Retire := ⟨r, l.toNat, pick, s.m.siteOf l.toNat, cause.toNat, at_, false, false⟩
     (ok → Runs (.tlRetireGo l site cause) s (fun b => bit (b.rd TL_MAP_STATUS.PENDING) r = true ∧
       Only { s.m with retires := s.m.retires ++ [req] } b (TL_MAP_STATUS.PENDING.key 0 0 :: keys) [])) ∧
     (¬ ok → Runs (.tlRetireGo l site cause) s (fun b => b.rd TL_MAP_STATUS.CFG_ERR = 1 ∧
       Only s.m b (TL_MAP_STATUS.CFG_ERR.key 0 0 :: keys) [])))) ∧
  (∀ (s : State) (region : Fin 32) r, s.m.regQ = [] → s.m.retires.find? (fun r => r.region == region.val && r.copying) = some r →
    s.m.heldQ = [] → s.m.rst = none → (s.m.site (s.m.siteOf r.l)).todo = [] →
    Runs (.retirementCopyEnd region) s (fun b => bit (b.rd TL_MAP_STATUS.PENDING) region = false ∧
      (∀ x ∈ b.retires, x.region ≠ region.val) ∧ (b.site (s.m.siteOf r.l)).copying = false ∧ b.mem = s.m.mem ∧
      SitesBut [s.m.siteOf r.l] s.m b)) ∧
  (∀ (a : Block) (p q : Nat), p < 576 → q < 576 → p ≠ q →
    (let b := a.copySite p q
     (b.site q).imem = (a.site p).imem ∧ (b.site q).copying = true ∧ (b.site q).run = none ∧
     (∀ f ∈ allFields, f.moves = true → ∀ k < f.count, b.rd f q k = a.rd f p k % 2 ^ f.width) ∧
     b.site p = a.site p)) ∧
  (∀ (a : Block) (r : Retire), r.l < 512 → r.region = r.l / 16 → a.siteOf r.l < 576 →
    (let p := a.siteOf r.l
     let b := a.retireApply r
     (∀ k < 18, a.spareFor r = some k → r.region * 18 + k ≠ p →
       b.rd TL_LMAP.SITE 0 r.l = k ∧ b.rd TL_SITE.STATE 0 p = 2 ∧ b.rd TL_SITE.CAUSE 0 p = r.cause % 2 ^ TL_SITE.CAUSE.width ∧
       b.rd TL_SITE.STATE 0 (r.region * 18 + k) = 0 ∧ b.rd TL_SITE.LTILE 0 (r.region * 18 + k) = r.l) ∧
     (a.spareFor r = none → b.rd TL_LMAP.VALID 0 r.l = 0 ∧ bit (b.rd TL_MAP_STATUS.PENDING) r.region = false ∧
       ∀ x ∈ b.retires, x.region ≠ r.region)))

/-- R7, R8: a write sets a RW field, clears the bits of a W1C field where it carries 1, sets those of a W1S field, and is
ignored by RO, RC and WO fields; a read returns the current value, 0 for WO; it clears an RC field and changes no other.
R7, R17, R21, R22, R82: reads and writes of the register space, shown on registers of every access code: TK_COUNT (read
only), TK_EPOCH_NS (read and write), TK_STATUS (bits cleared by writing 1), TK_OVERRUN_CNT (cleared by the read); a write
outside a stated range is ignored as a whole, with its block's CFG_ERR.
R82: an access of the register space that is narrow, not aligned to 8 bytes, or names no register has no effect but one
record of class 5 (cause 2, or 1 where no register lies there); a read of it gives 0; an access that reaches a register is
none of these.
R12, R331: a write of MS_CTRL, judged against the register just before it: another PRESET loads that preset's values and
leaves EXPERT_EN 0; the same PRESET with EXPERT_EN 0 to 1 keeps the values, with 1 before and in the write sets the governed
fields (MS_STATUS and MS_SQ show the queues under the new QDEPTH, R328), with 1 to 0 reloads the preset, and with 0 before and in
the write changes nothing. A preset or a value out of range
is rejected with CFG_ERR. -/
def Obligations.RegisterAccesses : Prop :=
  (
   ∀ (a : Block) (f : Field) (i j v : Nat), v < 2 ^ f.width →
  (let w := a.writeField f i j v
   RegsBut [f.key i j] a w ∧ RestKept a w ∧
   (f.acc = .rw → w.rd f i j = v) ∧ (f.acc = .ro ∨ f.acc = .rc ∨ f.acc = .wo → w = a) ∧
   (a.rd f i j < 2 ^ f.width → ∀ k, (f.acc = .w1c → (w.rd f i j).testBit k = ((a.rd f i j).testBit k && !v.testBit k)) ∧
     (f.acc = .w1s → (w.rd f i j).testBit k = ((a.rd f i j).testBit k || v.testBit k)))) ∧
  (f.acc = .wo → a.readField f i j = 0) ∧ (f.acc ≠ .wo → a.readField f i j = a.rd f i j) ∧
  (f.acc = .rc → (a.afterRead f i j).rd f i j = 0) ∧ (f.acc ≠ .rc → a.afterRead f i j = a)
  ) ∧
  (
   ∀ (s : State) (src : Nat) (ctx : BitVec 12) (v : W64) (lichen : Bool), s.m.regQ = [] →
  (let answers := fun (off n : Nat) (b : Block) => b = s.m.emit (.data src (0x030000000000 + off) 0 (plain (leBytes 8 n)))
   let err := fun (b : Block) => b.rd TK_STATUS.CFG_ERR = 1 ∧ Only s.m b [TK_STATUS.CFG_ERR.key 0 0] []
   Runs (.rcRead src ctx 0) s (answers 0 (s.m.rd TK_COUNT.COUNT)) ∧
   Runs (.rcRead src ctx 3) s (answers 0x18 (s.m.rd TK_EPOCH_NS.EPOCH_NS)) ∧
   Runs (.rcRead src ctx 10) s (fun b =>
     b.out = s.m.out ++ [.data src 0x030000000050 0 (plain (leBytes 8
       (s.m.rd TK_OVERRUN_CNT.OVERRUN_STEPS + s.m.rd TK_OVERRUN_CNT.OVERRUN_TICKS * 2 ^ 32)))] ∧
     b.rd TK_OVERRUN_CNT.OVERRUN_STEPS = 0 ∧ b.rd TK_OVERRUN_CNT.OVERRUN_TICKS = 0 ∧
     RegsBut [TK_OVERRUN_CNT.OVERRUN_STEPS.key 0 0, TK_OVERRUN_CNT.OVERRUN_TICKS.key 0 0] s.m b ∧ b.mem = s.m.mem) ∧
   Runs (.registerWrite lichen ctx 0 v) s (fun b => b = s.m) ∧
   Runs (.registerWrite lichen ctx 3 v) s (fun b => b.rd TK_EPOCH_NS.EPOCH_NS = v.toNat ∧
     Only s.m b [TK_EPOCH_NS.EPOCH_NS.key 0 0] []) ∧
   (s.m.rd TK_STATUS.PLAN_LATE < 2 → s.m.rd TK_STATUS.CFG_ERR < 2 → s.m.rd TK_STATUS.RESYNCED < 2 →
     Runs (.registerWrite lichen ctx 8 v) s (fun b =>
       b.rd TK_STATUS.PLAN_LATE = (if v.getLsbD 3 then 0 else s.m.rd TK_STATUS.PLAN_LATE) ∧
       b.rd TK_STATUS.CFG_ERR = (if v.getLsbD 4 then 0 else s.m.rd TK_STATUS.CFG_ERR) ∧
       b.rd TK_STATUS.RESYNCED = (if v.getLsbD 5 then 0 else s.m.rd TK_STATUS.RESYNCED) ∧
       Only s.m b [TK_STATUS.PLAN_LATE.key 0 0, TK_STATUS.CFG_ERR.key 0 0, TK_STATUS.RESYNCED.key 0 0] [])) ∧
   (v.toNat / 2 % 4 > 1 →
     Runs (.registerWrite lichen ctx 5 v) s err))
  ) ∧
  (
   ∀ (s : State) (src : Nat) (ctx : BitVec 12), s.m.regQ = [] →
  (∀ (off : BitVec 32) (n : Fin 129),
    (let cause := if n.val ≠ 8 ∨ off.toNat % 8 ≠ 0 then 2 else 1
     let rec_ := s.m.report { cls := 5, cause := cause, level := 4, ctx := some ctx.toNat, addr := 0x030000000000 + off.toNat }
     (s.m.isUnmapped off.toNat n = true →
       Runs (.unmappedRegisterAccess src ctx off n true) s (fun b => b = rec_) ∧
       Runs (.unmappedRegisterAccess src ctx off n false) s (fun b =>
         b = rec_.emit (.data src (0x030000000000 + off.toNat) 0 (plain (leBytes n 0))))) ∧
     (s.m.isUnmapped off.toNat n = false → ∀ write, Runs (.unmappedRegisterAccess src ctx off n write) s (fun b => b = s.m)))) ∧
  (∀ off, (s.m.isUnmapped off 8 = false → off % 8 = 0) ∧ (s.m.isUnmapped off 4 = true))
  ) ∧
  (
   ∀ (s : State) (m : Fin 12) (preset : BitVec 4) (expert : Bool) (share : BitVec 7)
    (depth : BitVec 8), s.m.regQ = [] →
  (let w := Instr.presetRegisterWrite m preset expert share depth
   let held := s.m.rd MS_CTRL.PRESET m
   let was := s.m.on MS_CTRL.EXPERT_EN m
   let keys := [MS_CTRL.BAG_SHARE.key m 0, MS_CTRL.QDEPTH.key m 0, MS_STATUS.PARTS.key m 0, MS_STATUS.ROWS.key m 0,
     MS_STATUS.QFULL.key m 0] ++ (List.range 16).map (fun k => MS_SQ.OCC.key m k)
   let good := 25 ≤ share.toNat ∧ share.toNat ≤ 100 ∧ 16 ≤ depth.toNat ∧ depth.toNat ≤ 128
   let holds := fun (b : Block) (p : Nat) => b.rd MS_CTRL.BAG_SHARE m = (presetOf p).1 ∧ b.rd MS_CTRL.QDEPTH m = (presetOf p).2 ∧
     b.rd MS_CTRL.EXPERT_EN m = 0
   (2 < preset.toNat → Runs w s (fun b => b.rd MS_STATUS.CFG_ERR m = 1 ∧ Only s.m b [MS_STATUS.CFG_ERR.key m 0] [])) ∧
   (preset.toNat ≤ 2 → preset.toNat ≠ held → Runs w s (fun b => b.rd MS_CTRL.PRESET m = preset.toNat ∧ holds b preset.toNat ∧
     b.mem = s.m.mem)) ∧
   (preset.toNat ≤ 2 → preset.toNat = held →
     (was = false → expert = true → Runs w s (fun b => b.rd MS_CTRL.EXPERT_EN m = 1 ∧ Only s.m b [MS_CTRL.EXPERT_EN.key m 0] [])) ∧
     (was = true → expert = true → good → Runs w s (fun b => b.rd MS_CTRL.BAG_SHARE m = share.toNat ∧
       b.rd MS_CTRL.QDEPTH m = depth.toNat ∧ Only s.m b keys [])) ∧
     (was = true → expert = true → ¬ good → Runs w s (fun b => b.rd MS_STATUS.CFG_ERR m = 1 ∧
       Only s.m b [MS_STATUS.CFG_ERR.key m 0] [])) ∧
     (was = true → expert = false → Runs w s (fun b => holds b held ∧ Only s.m b (MS_CTRL.EXPERT_EN.key m 0 :: keys) [])) ∧
     (was = false → expert = false → Runs w s (fun b => b = s.m))) ∧
   presetOf 0 = (90, 128) ∧ presetOf 1 = (75, 96) ∧ presetOf 2 = (50, 64))
  )

/-- R437, R439, R440, R445, R470, R473, R665: the queue operations. Enabling a DISABLED queue whose table entry keeps its
rules arms it at SKIP and reads its doorbell word; any other enable, and any operation in a state that does not take it, is a
CFG_ERR. Disabling releases its watch; parking it, with cause 5, is counted and recorded; a resume advances CONS by SKIP, and
leaves the queue ARMED where SKIP lies beyond the producer. A doorbell is noted, and wakes an ARMED queue. Bracken is enabled
and disabled as a whole. -/
def Obligations.QueueOperations : Prop := ∀ (s : State) (q : BitVec 10) (skip : BitVec 32), s.m.regQ = [] →
  (let keys := [BK_QCMD.QUEUE.key 0 0, BK_QCMD.OP.key 0 0, BK_QCMD.SKIP.key 0 0]
   let err := fun (b : Block) => b.rd BK_STATUS.CFG_ERR = 1 ∧ Only s.m b (BK_STATUS.CFG_ERR.key 0 0 :: keys) []
   let at_ := s.m.rd BK_QTAB.BASE * 2 ^ 16 + 64 * q.toNat
   let r := (((s.m.wr BK_QCMD.QUEUE q.toNat).wr BK_QCMD.OP 1).wr BK_QCMD.SKIP skip.toNat).tableWords at_ 8
   (s.m.qState q.toNat ≠ 0 → Runs (.queueEnable q skip) s err) ∧
   (s.m.qState q.toNat = 0 → (r.2.1 = true ∨ s.m.queueOk r.1 = false) → Runs (.queueEnable q skip) s (fun b =>
     b.rd BK_STATUS.CFG_ERR = 1 ∧ b.bk.queues = s.m.bk.queues)) ∧
   (s.m.qState q.toNat = 0 → r.2.1 = false → s.m.queueOk r.1 = true → Runs (.queueEnable q skip) s (fun b =>
     ∃ x, b.queue q.toNat = some x ∧ x.st = 1 ∧ x.rd = 2 ∧ x.cons = skip.toNat ∧ x.prodSeen = skip.toNat ∧ x.w0 = r.1.getD 0 0 ∧
       x.ringVa = r.1.getD 1 0 ∧ x.consVa = r.1.getD 2 0)) ∧
   (s.m.qState q.toNat = 0 → Runs (.queueDisable q) s err) ∧
   (s.m.qState q.toNat ≠ 0 → Runs (.queueDisable q) s (fun b => b.qState q.toNat = 0 ∧
     (∀ w ∈ b.bk.watches, w.queue ≠ q.toNat) ∧ RegsBut (BK_STATUS.WATCH_USED.key 0 0 :: keys) s.m b ∧ b.bk.cmds = s.m.bk.cmds)) ∧
   (1 ≤ s.m.qState q.toNat → s.m.qState q.toNat ≤ 4 → Runs (.queuePark q) s (fun b => b.qState q.toNat = 5 ∧
     (∀ w ∈ b.bk.watches, w.queue ≠ q.toNat) ∧ (b.queue q.toNat).map (·.cause) = some 5 ∧
     b.rd BK_ERR_CNT.PARKS = min (s.m.rd BK_ERR_CNT.PARKS + 1) (2 ^ BK_ERR_CNT.PARKS.width - 1) ∧
     b.faultQ = s.m.faultQ ++ [{ cls := 14, cause := 8, level := 4 }])) ∧
   (s.m.qState q.toNat = 0 ∨ 4 < s.m.qState q.toNat → Runs (.queuePark q) s err) ∧
   (s.m.qState q.toNat ≠ 5 → Runs (.queueResume q skip) s err) ∧
   (∀ x, s.m.queue q.toNat = some x → x.st = 5 → Runs (.queueResume q skip) s (fun b => ∃ y, b.queue q.toNat = some y ∧
     y.cons = (x.cons + skip.toNat) % 2 ^ 32 ∧ y.faultRun = 0 ∧ y.cause = 0 ∧ Only { s.m with bk := b.bk } b keys [] ∧
     (if (x.prodSeen + 2 ^ 32 - x.cons) % 2 ^ 32 < skip.toNat then y.st = 1 ∧ y.rd = 0
      else if y.cons ≠ x.prodSeen then y.st = 2 ∧ y.rd = 1 else y.st = 1 ∧ y.rd = 2))) ∧
   (∀ x, s.m.queue q.toNat = some x → Runs (.doorbellNotify q) s (fun b => Only { s.m with bk := b.bk } b [] [] ∧
     ∃ y, b.queue q.toNat = some y ∧ (if x.st = 0 ∨ x.st = 5 then y = x else y = { x with dbPend := true, rd :=
       (if x.st = 1 ∧ x.rd = 0 ∧ s.m.bkRuns = true then 2 else x.rd) }))) ∧
   Runs .brackenDisable s (fun b => b.rd BK_CTRL.ENABLE = 0 ∧ b.rd BK_STATUS.RUN = 0 ∧
     Only s.m b [BK_CTRL.ENABLE.key 0 0, BK_STATUS.RUN.key 0 0] []) ∧
   (s.m.on BK_CTRL.ENABLE = false → s.m.bk.cmds = [] → s.m.bk.watches = [] → s.m.lc.acts = [] →
     (∀ h < 8, s.m.rd BK_WORK_DB.CONS 0 h = s.m.rd BK_WORK_DB.PROD 0 h) → Runs .brackenEnable s (fun b =>
       b.rd BK_CTRL.ENABLE = 1 ∧ b.rd BK_STATUS.RUN = 1 ∧ Only { s.m with bk := b.bk } b [BK_CTRL.ENABLE.key 0 0, BK_STATUS.RUN.key 0 0] [] ∧
       ∀ x ∈ s.m.bk.queues, (if x.st = 1 ∧ x.rd = 0 ∧ x.dbPend = true then { x with rd := 2 } else x) ∈ b.bk.queues)))

/-- R40, R41, R436, R441, R443 to R446: what the read of a queue's doorbell word and of its head entry lead to: the producer
is noted and the entry read, or the queue rests or is parked (2 unreadable, 3 producer beyond the ring); a stale entry is
read again, at most 64 times; a valid STEPS entry is accepted with the deadline of its queue and one step for each of
NSTEPS, CONS advances, and the queue is served on. The PHASE of a current entry i is ((i div SIZE) + 1) mod 256, so zeroed
ring memory is stale on the first lap. -/
def Obligations.RingEntries : Prop := ∀ (s : State) (q : BitVec 10) (far : Option (List Byte)) x, s.m.regQ = [] →
  s.m.bkRuns = true → s.m.queue q.toNat = some x → x.st ≠ 4 →
  (let d := (s.m.mread x.ctx (s.m.rd BK_DB.BASE * 2 ^ 16 + 64 * x.q) 8).1
   let prod := leNat d.bytes % 2 ^ 32
   let e := s.m.bread x.ctx (sext48 (x.ringVa + 64 * (x.cons % x.size))) 64 far
   let ent := words64 8 e.1.bytes
   let stale := bits (ent.getD 0 0) 0 8 ≠ phaseOf x.cons x.size
   (∀ i, phaseOf i x.size = (i / x.size + 1) % 256) ∧ (∀ i < x.size, phaseOf i x.size ≠ 0) ∧
   (x.rd = 2 →
     (d.tagFail = true ∨ d.pois = true → Runs (.ringEntryFetch q far) s (fun b => ∃ y, b.queue q.toNat = some y ∧ y.st = 5 ∧
       y.cause = 2)) ∧
     (d.tagFail = false → d.pois = false → Runs (.ringEntryFetch q far) s (fun b => ∃ y, b.queue q.toNat = some y ∧
       y.dbPend = false ∧ y.prodSeen = prod ∧ y.cons = x.cons ∧
       (if x.size < (prod + 2 ^ 32 - x.cons) % 2 ^ 32 then y.st = 5 ∧ y.cause = 3
        else if prod = x.cons then y.st = x.st ∧ y.rd = 0 else y.st = 2 ∧ y.rd = 1)))) ∧
   (x.rd = 1 →
     (e.1.fail ≠ 0 → Runs (.ringEntryFetch q far) s (fun b => ∃ y, b.queue q.toNat = some y ∧ y.st = 5 ∧ y.cause = 2)) ∧
     (e.1.fail = 0 → stale → Runs (.ringEntryFetch q far) s (fun b => ∃ y, b.queue q.toNat = some y ∧ y.st = 2 ∧ y.rd = 3 ∧
       y.tries = 0)) ∧
     (e.1.fail = 0 → ¬ stale → entryBad ent = false → bit (ent.getD 0 0) 12 = false → bits (ent.getD 0 0) 8 3 = 0 →
       s.m.roomFor x = true → s.m.isTerm x.ctx = false → s.m.bk.watches = [] → s.m.bk.cmds = [] → s.m.bk.steps = [] →
       Runs (.ringEntryFetch q far) s (fun b => ∃ c, b.bk.cmds = [c] ∧ c.queue = x.q ∧ c.qctx = x.ctx ∧ c.index = x.cons ∧
         c.user = bits (ent.getD 0 0) 32 32 ∧ c.prog = bits (ent.getD 7 0) 0 32 ∧ c.args = ent.getD 1 0 ∧ c.complVa = ent.getD 2 0 ∧
         c.deadline = s.m.rd TK_COUNT.COUNT + x.lat - 1 ∧ c.done = false ∧
         b.bk.steps = (List.range (bits (ent.getD 7 0) 32 6)).map (fun j => ⟨c.tag, c.prog, (c.args + 256 * j) % 2 ^ 48, false, none⟩) ∧
         ∃ y, b.queue q.toNat = some y ∧ y.cons = (x.cons + 1) % 2 ^ 32 ∧ y.pub = true ∧
           (if y.cons ≠ x.prodSeen then y.st = 2 ∧ y.rd = 1 else y.st = 1 ∧ y.rd = 2)))) ∧
   (x.rd = 3 → e.1.fail = 0 → stale → Runs (.staleEntryReread (.inl q) far) s (fun b => ∃ y, b.queue q.toNat = some y ∧
     (if x.tries < 63 then y.st = 2 ∧ y.rd = 3 ∧ y.tries = x.tries + 1 else y.st = 5 ∧ y.cause = 1))))

/-- R441, R448, R449, R665: while Bracken runs, a watched value that has been read, by its 8-byte word, and does not meet its
condition is watched on; a notification of a write to a local one, and a poll of a remote one, read it again through a fresh
translation, whose failure completes the command FAULT; one that meets its condition, and one whose WAIT_TICKS have passed,
has its command accepted, the latter with status WAIT_TIMEOUT, and the watch entry is free. While Bracken does not run
nothing is accepted. -/
def Obligations.Watches : Prop := ∀ (s : State) (q : BitVec 10) w x, s.m.regQ = [] →
  s.m.bk.watches = [w] → w.queue = q.toNat → s.m.queue q.toNat = some x → x.q = q.toNat →
  (let r := (s.m.mread x.ctx (offOf (w.pa.getD 0) / 8 * 8) 8).1
   let v := w.pick (leNat r.bytes)
   let room := s.m.roomFor x = true ∧ s.m.isTerm x.ctx = false ∧ s.m.bk.cmds = [] ∧ bits (w.ent.getD 0 0) 8 3 ≠ 1
   (s.m.bkRuns = false → Runs (.watchReadReturn q) s (fun b => b = s.m) ∧ Runs (.watchNotify q) s (fun b => b = s.m) ∧
     Runs (.watchPoll q) s (fun b => b = s.m) ∧ Runs (.waitTimeout q) s (fun b => b = s.m)) ∧
   (s.m.bkRuns = true →
     (w.reading = true → w.remote = false → r.tagFail = false → r.pois = false →
       (waitMet w.cmp v w.thr w.mask = false → Runs (.watchReadReturn q) s (fun b =>
         b.bk.watches = [{ w with reading := false }] ∧ b.bk.cmds = s.m.bk.cmds ∧ b.queue q.toNat = some x)) ∧
       (waitMet w.cmp v w.thr w.mask = true → room → Runs (.watchReadReturn q) s (fun b => b.bk.watches = [] ∧
         ∃ y, b.queue q.toNat = some y ∧ y.cons = (x.cons + 1) % 2 ^ 32 ∧ y.pub = true))) ∧
     (w.reading = false → ∀ t b1, s.m.xlate x.ctx w.va false = (t, b1) → b1.regQ = [] →
       (let far := nodeOf t.pa != b1.rd XL_NODE.SELF
        let i := if w.remote then Instr.watchPoll q else .watchNotify q
        (t.cause = 0 → far = false → Runs i s (fun b => b = { b1 with bk := { b1.bk with watches :=
          [{ w with reading := true, pa := some t.pa, remote := false }] } })) ∧
        (t.cause = 0 → far = true → b1.hasPath (nodeOf t.pa) 0 512 = true → Runs i s (fun b =>
          b.bk.watches = [{ w with reading := true, pa := some t.pa, remote := true }] ∧ b.queue q.toNat = some x)) ∧
        (t.cause ≠ 0 → room → Runs i s (fun b => b.bk.watches = [] ∧
          ∃ r ∈ b.bk.recs, r.status = 2 ∧ r.cmd.queue = x.q ∧ r.cmd.index = x.cons)))) ∧
     (if w.remote then Runs (.watchNotify q) s (fun b => b = s.m) else Runs (.watchPoll q) s (fun b => b = s.m)) ∧
     (x.waitTicks = 0 ∨ w.ticks.getD 0 < x.waitTicks → Runs (.waitTimeout q) s (fun b => b = s.m)) ∧
     (x.waitTicks ≠ 0 → x.waitTicks ≤ w.ticks.getD 0 → room → Runs (.waitTimeout q) s (fun b => b.bk.watches = [] ∧
       (∃ r ∈ b.bk.recs, r.status = 5 ∧ r.cmd.queue = x.q ∧ r.cmd.index = x.cons) ∧
       ∃ y, b.queue q.toNat = some y ∧ y.cons = (x.cons + 1) % 2 ^ 32))))

/-- R450 to R452, R457, R459, R468: work records. Rows and steps of a command that is open join its pending work; a record
for any other command, or with no or too many rows, only writes a record of class 14, cause 6; CLOSE ends the command's
records and frees its handoff entry; DONE completes it at once with its status, or 0x1F, a record of cause 7 and its number, and takes its unplanned work away; a producer
index equal to the consumer's consumes nothing. -/
def Obligations.WorkRecords : Prop := ∀ (s : State) (tag prog key : BitVec 32) (rows : BitVec 7) (va : BitVec 48) (last : Bool)
    (tile : Option LTile), s.m.regQ = [] →
  (let on := s.m.on BK_CTRL.ENABLE = true
   let skipped := fun (b : Block) => b = s.m.report { cls := 14, cause := 6, level := 4, cmdTag := tag.toNat }
   (on → s.m.workCmd tag.toNat = none → Runs (.workRows tag prog key rows va) s skipped ∧
     Runs (.workStep tag prog va last tile) s skipped ∧ Runs (.workClose tag) s skipped ∧
     (∀ st, Runs (.workDone tag st) s skipped)) ∧
   (∀ c, on → s.m.workCmd tag.toNat = some c →
     (rows = 0 ∨ 64 < rows.toNat → Runs (.workRows tag prog key rows va) s skipped) ∧
     (rows ≠ 0 → rows.toNat ≤ 64 → Runs (.workRows tag prog key rows va) s (fun b => b = { s.m with bk := { s.m.bk with
       segs := s.m.bk.segs ++ [⟨c.tag, c.slot, key.toNat, prog.toNat, va.toNat, 0, rows.toNat, c.deadline, c.ingest, none⟩] } })) ∧
     Runs (.workStep tag prog va last tile) s (fun b => b = { s.m with bk := { s.m.bk with
       steps := s.m.bk.steps ++ [⟨c.tag, prog.toNat, va.toNat, last, tile.map (·.val)⟩] } }) ∧
     (s.m.bk.segs.any (fun g => g.tag == c.tag) = true → Runs (.workClose tag) s (fun b => b = { s.m with bk := { s.m.bk with
       cmds := s.m.bk.cmds.map (fun y => if y.tag == c.tag then { y with closed := true, hand := none } else y) } })) ∧
     (∀ st : BitVec 8, st = 0 ∨ (16 ≤ st.toNat ∧ st.toNat ≤ 31) → Runs (.workDone tag st) s (fun b =>
       (∀ g ∈ b.bk.segs, g.tag ≠ c.tag) ∧ (∀ g ∈ b.bk.steps, g.tag ≠ c.tag) ∧ b.faultQ = s.m.faultQ ∧ b.mem = s.m.mem ∧
       ∃ r, b.bk.recs = s.m.bk.recs ++ [r] ∧ r.status = st.toNat ∧ r.cmd.tag = c.tag ∧ r.w3 = 0)) ∧
     (∀ st : BitVec 8, ¬ (st = 0 ∨ (16 ≤ st.toNat ∧ st.toNat ≤ 31)) → Runs (.workDone tag st) s (fun b =>
       b.faultQ = s.m.faultQ ++ [{ cls := 14, cause := 7, level := 4, ctx := some c.qctx, cmdTag := c.tag }] ∧
       ∃ r, b.bk.recs = s.m.bk.recs ++ [r] ∧ r.status = 0x1F ∧ r.cmd.tag = c.tag ∧ r.w3 = s.m.nextSeq))) ∧
   (∀ (h : Fin 8) (prod : BitVec 32), s.m.rd BK_WORK_DB.CONS 0 h = prod.toNat → Runs (.workDoorbell h prod) s (fun b =>
     b.rd BK_WORK_DB.PROD 0 h = prod.toNat ∧ Only s.m b [BK_WORK_DB.PROD.key 0 h] [])))

/-- R447, R461 to R467, R505: a completion record whose release conditions hold is issued once, with LATE where its tick lies
beyond the deadline, and written at its address; a second record of a command is dropped; one whose address is misaligned is
diverted; the increment follows the record, as an atomic of the memory that owns its address, or is diverted; a step counts as released once none of its writes is open; CONS is written to its
address. -/
def Obligations.CompletionRecords : Prop := ∀ (s : State) (tag : BitVec 32), s.m.regQ = [] →
  (∀ r c, s.m.bk.recs = [r] → r.cmd = c → c.tag = tag.toNat → r.src = none → r.phase = 0 → s.m.cmd tag.toNat = some c →
    c.lost = false → r.bad = false →
    (c.issued = true → Runs (.completionRecordWrite tag none) s (fun b => b = { s.m with bk := { s.m.bk with recs := [] } })) ∧
    (c.issued = false → s.m.recReady r = true → s.m.bkRuns = true → s.m.tick.fatal = false → c.complVa % 32 ≠ 0 →
      s.m.bk.cmds = [c] → s.m.bk.segs = [] → s.m.bk.steps = [] →
      Runs (.completionRecordWrite tag none) s (fun b =>
        b.rd BK_CMD_CNT.COMPLETED = min (s.m.rd BK_CMD_CNT.COMPLETED + 1) (2 ^ BK_CMD_CNT.COMPLETED.width - 1) ∧
        b.rd BK_ERR_CNT.DIVERTED = min (s.m.rd BK_ERR_CNT.DIVERTED + 1) (2 ^ BK_ERR_CNT.DIVERTED.width - 1) ∧
        b.rd TK_LATE_CNT.LATE_CMDS = (if c.deadline < s.m.rd TK_COUNT.COUNT
          then min (s.m.rd TK_LATE_CNT.LATE_CMDS + 1) (2 ^ 32 - 1) else s.m.rd TK_LATE_CNT.LATE_CMDS) ∧
        (c.inc = false → b.bk.recs = []))) ∧
    (let va := sext48 c.complVa
     ∀ e m o, c.issued = false → s.m.recReady r = true → s.m.bkRuns = true → s.m.tick.fatal = false →
      c.complVa % 32 = 0 → c.route = false → c.inc = false → r.pois0 = false → r.pois1 = false → canonical va = true →
      s.m.on XL_CTRL.ENABLE = true → s.m.stlb.find? (fun e => e.hits c.qctx va) = some e → e.cause true = 0 →
      nodeOf (e.pa va) = s.m.rd XL_NODE.SELF → offOf (e.pa va) % 32 = 0 → s.m.place (offOf (e.pa va)) = .hbm m o →
      s.m.rd MEM_STATUS.STATE m ≠ 3 → tagPasses (s.m.tagAt (offOf (e.pa va))) c.qctx = true → s.m.rc = [] → s.m.sf = [] →
      Runs (.completionRecordWrite tag none) s (fun b => b.bk.recs = [] ∧
        b.rd BK_CMD_CNT.COMPLETED = min (s.m.rd BK_CMD_CNT.COMPLETED + 1) (2 ^ BK_CMD_CNT.COMPLETED.width - 1) ∧
        b.rd BK_ERR_CNT.DIVERTED = s.m.rd BK_ERR_CNT.DIVERTED ∧ b.mem.loadBs (offOf (e.pa va)) 32 = bytesOf
          [r.status + (decide (c.deadline < s.m.rd TK_COUNT.COUNT)).toNat * 2 ^ 8 + c.queue * 2 ^ 16 + c.user * 2 ^ 32,
           c.index + c.tag * 2 ^ 32, s.m.rd TK_COUNT.COUNT, r.w3]))) ∧
  (∀ r, s.m.bk.recs = [r] → r.cmd.tag = tag.toNat → r.phase = 2 → s.m.openWrites (s.m.recSrc r) (some r.cmd.qctx) = [] →
    r.cmd.incVa % 8 ≠ 0 → Runs (.completionIncrement tag) s (fun b => b.bk.recs = [] ∧
      b.rd BK_ERR_CNT.DIVERTED = min (s.m.rd BK_ERR_CNT.DIVERTED + 1) (2 ^ BK_ERR_CNT.DIVERTED.width - 1))) ∧
  (∀ r, s.m.bk.recs = [r] → r.cmd.tag = tag.toNat → r.phase = 2 → s.m.openWrites (s.m.recSrc r) (some r.cmd.qctx) = [] →
    r.cmd.incVa % 8 = 0 → r.cmd.route = false → ∀ t b1 old p b2, s.m.xlate r.cmd.qctx (sext48 r.cmd.incVa) true = (t, b1) →
    t.cause = 0 → nodeOf t.pa = b1.rd XL_NODE.SELF → b1.matomic r.cmd.qctx (offOf t.pa) 8 0 r.cmd.incVal 0 = (old, p, .ok, b2) →
    exec (.completionIncrement tag) s = .next { s with m := { b2 with bk := { b2.bk with recs := [] } }.drainRegs }) ∧
  (∀ p : SiteIx, s.m.dm.send = [] → s.m.dm.holds = [] → s.m.heldQ = [] → Runs (.stepReleased tag p) s (fun b =>
    b = { s.m with bk := { s.m.bk with unreleased := s.m.bk.unreleased.filter (· != (tag.toNat, p.val)) } })) ∧
  (∀ (q : BitVec 10) x, s.m.queue q.toNat = some x → x.q = q.toNat →
    (x.pub = false ∨ x.consVa = 0 → Runs (.consPublish q) s (fun b => b = s.m)) ∧
    (let a := s.m.onQueue x.q (fun y => { y with pub := false })
     let w := (a.bwrite 0 512 x.ctx (sext48 x.consVa) (plain (leBytes 8 x.cons)) 1 none).2
     x.pub = true → x.consVa ≠ 0 → w.regQ = [] → Runs (.consPublish q) s (fun b => b = w)))

/-- R474 to R478, R514, R518: links and frames. A link comes up only on a sub-port its port's mode has, with all its lanes in
service, and leaves with its pauses; the FEC mark follows the error rate of the window against the limit of its start, with a tenth of hysteresis; PFC
pauses and resumes the selected priorities; a frame on a sub-port in service is counted, and dropped with its own count
where its check, its protection, its address or its kind is refused; a solicitation and an echo for this node are answered. -/
def Obligations.LinksAndFrames : Prop := ∀ (s : State) (sub : Fin 64), s.m.regQ = [] →
  (let port := sub.val / 4
   let n := fun (f : Field) => min (s.m.rd f port + 1) (2 ^ f.width - 1)
   let up := NSet.mem s.m.ports.up sub = true
   let keys := [DM_PSTATUS.LANE_FAIL.key port 0, DM_PSTATUS.LINK.key port 0]
   (s.m.subExists sub = false → Runs (.linkUp sub) s (fun b => b = s.m)) ∧
   (s.m.subExists sub = true → Runs (.linkUp sub) s (fun b => NSet.mem b.ports.up sub = true ∧
     bit (b.rd DM_PSTATUS.LINK port) (sub % 4) = true ∧ Only { s.m with ports := b.ports } b keys [])) ∧
   (∀ lanes, Runs (.linkDown sub lanes) s (fun b => NSet.mem b.ports.up sub = false ∧ SMap.get 0 b.ports.paused sub = 0 ∧
     bit (b.rd DM_PSTATUS.LINK port) (sub % 4) = false ∧ b.ports.assocs = s.m.ports.assocs ∧
     Only { s.m with ports := b.ports } b keys [])) ∧
   (∀ (errors bitsIn : W64) (uncorr : BitVec 16), Runs (.fecDegWindow sub errors bitsIn uncorr) s (fun b =>
     b.rd DM_PERR_CNT.FEC_UNCORR port = min (s.m.rd DM_PERR_CNT.FEC_UNCORR port + uncorr.toNat) (2 ^ DM_PERR_CNT.FEC_UNCORR.width - 1) ∧
     (let lim := SMap.get DM_PCTRL.FEC_DEG_PPM.reset s.m.ports.fecLim sub * bitsIn.toNat
      bit (b.rd DM_PSTATUS.FEC_DEG port) (sub % 4) = (if lim < errors.toNat * 1000000 then true
        else if errors.toNat * 10000000 < 9 * lim then false else bit (s.m.rd DM_PSTATUS.FEC_DEG port) (sub % 4))) ∧
     SMap.get DM_PCTRL.FEC_DEG_PPM.reset b.ports.fecLim sub = s.m.rd DM_PCTRL.FEC_DEG_PPM port ∧ b.ports.up = s.m.ports.up ∧
     Only { s.m with ports := b.ports } b [DM_PSTATUS.FEC_DEG.key port 0, DM_PERR_CNT.FEC_UNCORR.key port 0] [])) ∧
   (¬ up → (∀ f, Runs (.frameReceive sub f) s (fun b => b = s.m)) ∧ ∀ p r, Runs (.pfcFrame sub p r) s (fun b => b = s.m)) ∧
   (up → (∀ p r : BitVec 8, Runs (.pfcFrame sub p r) s (fun b => ∀ k < 8,
       bit (SMap.get 0 b.ports.paused sub) k = ((bit (SMap.get 0 s.m.ports.paused sub) k &&
         !(bit r.toNat k && bit (s.m.rd DM_PCTRL.PFC_EN port) k)) || (bit p.toNat k && bit (s.m.rd DM_PCTRL.PFC_EN port) k)) ∧
       b.regs = s.m.regs ∧ b.mem = s.m.mem)) ∧
     (let drops := fun (f : Field) (b : Block) => b.rd DM_PFRM_CNT.RX port = n DM_PFRM_CNT.RX ∧ b.rd f port = n f ∧
        Only s.m b [DM_PFRM_CNT.RX.key port 0, f.key port 0] []
      let takes := fun (b : Block) => b.rd DM_PFRM_CNT.RX port = n DM_PFRM_CNT.RX ∧ Only s.m b [DM_PFRM_CNT.RX.key port 0] []
      let bare := s.m.on DM_PCTRL.MSEC_EN port = false
      Runs (.frameReceive sub .bad) s (drops DM_PERR_CNT.FCS) ∧
      Runs (.frameReceive sub (.bare .pfc)) s takes ∧
      (∀ i, bare = false → s.m.clearFrame sub i = false → Runs (.frameReceive sub (.bare i)) s (drops DM_PERR_CNT.FILTER_DROP)) ∧
      (bare → Runs (.frameReceive sub (.bare .other)) s (drops DM_PERR_CNT.FILTER_DROP) ∧
        ∀ d : BitVec 128,
          (d.toNat ≠ s.m.nodeAddress → Runs (.frameReceive sub (.bare (.damask d))) s (drops DM_PERR_CNT.FILTER_DROP) ∧
            Runs (.frameReceive sub (.bare (.solicit d))) s (drops DM_PERR_CNT.FILTER_DROP)) ∧
          (d.toNat = s.m.nodeAddress → s.m.on DM_CTRL.ENABLE = true → Runs (.frameReceive sub (.bare (.damask d))) s takes ∧
            Runs (.frameReceive sub (.bare (.roce d))) s takes) ∧
          (∀ data, d.toNat = s.m.nodeAddress → Runs (.frameReceive sub (.bare (.echo d data))) s (fun b => b.out = s.m.out ++
            [.frame sub 1 [s.m.nodeAddress, s.m.gateway sub, s.m.rd LC_INV1.MAC_BASE + sub] data] ∧
            b.rd DM_PFRM_CNT.TX port = n DM_PFRM_CNT.TX))) ∧
      (∀ (an : BitVec 2) (pn : W64) ok i,
        (s.m.ports.assocs.find? (fun a => !a.tx && a.sub == sub.val && a.an == an.toNat) = none →
          Runs (.frameReceive sub (.msec an pn ok i)) s (drops DM_PERR_CNT.MSEC_DROP)) ∧
        (∀ a, s.m.ports.assocs.find? (fun a => !a.tx && a.sub == sub.val && a.an == an.toNat) = some a →
          (ok = false ∨ pn.toNat < a.pn → Runs (.frameReceive sub (.msec an pn ok i)) s (drops DM_PERR_CNT.MSEC_DROP)) ∧
          (ok = true → a.pn ≤ pn.toNat → i = .pfc → Runs (.frameReceive sub (.msec an pn ok i)) s (fun b =>
            { a with pn := pn.toNat + 1 } ∈ b.ports.assocs ∧ b.rd DM_PFRM_CNT.RX port = n DM_PFRM_CNT.RX)))))))

/-- R508 to R511, R513, R515, R635: MACsec associations and the clock. An install takes the staged key, salt, SSCI and PN and
clears the staging registers, and is refused while the vault is locked; a delete removes its association; only a transmit
association that exists can become the one in use. A clock message received while the service runs fills the next slot of
its ring; a write of TX_PROD with the service off sends nothing, and with it on sends no entry beyond TX_PROD; the clock
steps to the value written; the edge of the 1PPS input is latched; the output rises. -/
def Obligations.MacsecAndClock : Prop := ∀ (s : State), s.m.regQ = [] →
  (∀ (p : Fin 16) (k : Fin 4) (rx : Bool) (an : BitVec 2),
    (let sub := 4 * p.val + k.val
     let keys := [DM_MSEC_SEL.SUB.key p 0, DM_MSEC_SEL.DIR.key p 0, DM_MSEC_SEL.AN.key p 0, DM_MSEC_SEL.OP.key p 0]
     let same := fun (a : Assoc) => a.sub = sub ∧ a.tx = !rx ∧ a.an = an.toNat
     let err := fun (b : Block) => b.rd DM_PSTATUS.CFG_ERR p = 1 ∧ Only s.m b (DM_PSTATUS.CFG_ERR.key p 0 :: keys) []
     (s.m.on SV_STATUS.LOCKED = true → Runs (.msecInstall p k rx an) s err) ∧
     (s.m.on SV_STATUS.LOCKED = false → Runs (.msecInstall p k rx an) s (fun b =>
       (∃ rest, b.ports.assocs = rest ++ [s.m.staged p k rx an.toNat] ∧ ∀ a ∈ rest, ¬ same a) ∧
       (∀ j, b.rd DM_MSEC_KEY.KEY p j = 0) ∧ b.rd DM_MSEC_SALT0.SALT_LO p = 0 ∧ b.rd DM_MSEC_SALT1.SALT_HI p = 0 ∧
       b.rd DM_MSEC_SALT1.SSCI p = 0 ∧ b.ports.up = s.m.ports.up ∧ b.mem = s.m.mem)) ∧
     Runs (.msecDelete p k rx an) s (fun b => (∀ a ∈ b.ports.assocs, ¬ same a) ∧
       (∀ a ∈ s.m.ports.assocs, ¬ same a → a ∈ b.ports.assocs) ∧ Only { s.m with ports := b.ports } b keys []) ∧
     (rx = true ∨ (∀ a ∈ s.m.ports.assocs, ¬ (a.sub = sub ∧ a.tx = true ∧ a.an = an.toNat)) → Runs (.msecActivate p k rx an) s err) ∧
     (rx = false → (∃ a ∈ s.m.ports.assocs, same a) → Runs (.msecActivate p k rx an) s (fun b =>
       SMap.get 4 b.ports.active sub = an.toNat ∧ Only { s.m with ports := b.ports } b keys [])))) ∧
  (∀ (sub : Fin 64) (t : ClockTime) (frame : List Byte),
    (let size := 2 ^ (s.m.rd DM_PTP_RX.LOG2_SIZE + 4)
     let prod := s.m.rd DM_PTP_IDX.RX_PROD
     let full := size ≤ (prod + 2 ^ 16 - s.m.rd DM_PTP_IDX.RX_CONS) % 2 ^ 16
     (s.m.on DM_PTP_CTRL.ENABLE = false ∨ NSet.mem s.m.ports.up sub = false ∨ full →
       Runs (.ptpFrameReceive sub t frame) s (fun b => b = s.m)) ∧
     (s.m.on DM_PTP_CTRL.ENABLE = true → NSet.mem s.m.ports.up sub = true → ¬ full →
       (let w := (s.m.mwrite 0xFFF (s.m.rd DM_PTP_RX.BASE * 2 ^ 12 + 256 * (prod % size)) (plain (ptpEntry (phaseOf prod size) sub t frame))).2
        w.regQ = [] → Runs (.ptpFrameReceive sub t frame) s (fun b => b.rd DM_PTP_IDX.RX_PROD = (prod + 1) % 2 ^ 16 ∧
          Only w b [DM_PTP_IDX.RX_PROD.key 0 0] []))))) ∧
  (∀ (prod : BitVec 16) (ts : List ClockTime), (s.m.on DM_PTP_CTRL.ENABLE = false ∨ s.m.rd DM_PTP_IDX.TX_CONS = prod.toNat) →
    Runs (.ptpTransmit prod ts) s (fun b => b.rd DM_PTP_IDX.TX_PROD = prod.toNat ∧ Only s.m b [DM_PTP_IDX.TX_PROD.key 0 0] [])) ∧
  (∀ t : ClockTime, Runs (.ptpTimeStep t) s (fun b => b.rd DM_PTP_TIME.SEC = t.sec.toNat ∧ b.rd DM_PTP_TIME.NS = t.ns.toNat ∧
      Only { s.m with tick := { s.m.tick with stepped := true } } b [DM_PTP_TIME.SEC.key 0 0, DM_PTP_TIME.NS.key 0 0] []) ∧
    Runs (.ppsInEdge t) s (fun b => b.rd DM_PPS_IN.SEC = t.sec.toNat ∧ b.rd DM_PPS_IN.NS = t.ns.toNat ∧
      Only s.m b [DM_PPS_IN.SEC.key 0 0, DM_PPS_IN.NS.key 0 0] [])) ∧
  Runs .ppsOut s (fun b => b = s.m.emit (.pin pinPps true))

/-- R480, R483 to R486: the target. A request that is not for a READY queue pair is dropped and counted; one in sequence
through a window that admits it is performed: a write leaves its bytes in memory and is acknowledged (with the PSN of its last
packet, PRESUMED, assumption log 59), a read answers them, an
atomic answers the old value and updates memory; a Send or an immediate without a receive queue is refused; one that finds a
slot fills it and is acknowledged. -/
def Obligations.RoceRequests : Prop := ∀ (s : State) (p : RocePkt) (t : RoceTarget),
  (let n := min (s.m.rd DM_PERR_CNT.FILTER_DROP (p.sub.val / 4) + 1) (2 ^ DM_PERR_CNT.FILTER_DROP.width - 1)
   let drops := fun (b : Block) => b.rd DM_PERR_CNT.FILTER_DROP (p.sub.val / 4) = n ∧ Only s.m b [DM_PERR_CNT.FILTER_DROP.key (p.sub.val / 4) 0] []
   (s.m.regQ = [] → s.m.netTakes p.sub = true → (p.icrc = false ∨ p.qpn.toNat < 0x1000 ∨ 0x2000 ≤ p.qpn.toNat ∨
       (s.m.qp (p.qpn.toNat - 0x1000)).elim 0 (·.st) ≠ 1) →
     (∀ data, Runs (.rdmaWrite p t data) s drops ∧ Runs (.send p data none) s drops) ∧
     (∀ len full, Runs (.rdmaRead p t len full) s drops)) ∧
   (∀ q, InOrder s.m p q →
     (let psn := p.psn.toNat
      let k := q.packets
      let last := fun (n : Nat) => (psn + q.packets n - 1) % 2 ^ 24
      let next := fun (b : Block) (n : Nat) => ∃ y, b.qp q.i = some y ∧ y.epsn = (q.epsn + n) % 2 ^ 24 ∧ y.st = 1
      let refused := fun (b : Block) => b.rd DM_ROCE_CNT.NAK_SENT = min (s.m.rd DM_ROCE_CNT.NAK_SENT + 1) (2 ^ DM_ROCE_CNT.NAK_SENT.width - 1) ∧
        b.out = s.m.out ++ [packet s.m q 3 [psn, nakInvalid] []] ∧ (∃ y, b.qp q.i = some y ∧ y.st = 2) ∧ b.mem = s.m.mem
      (∀ w o (data : List Byte), data.length = 16 → AtHbm s.m p t q w (·.wr) o 16 → Runs (.rdmaWrite p t data) s (fun b =>
        b.mem = s.m.mem.setWord (o / 16) ⟨leNat data, 0⟩ ∧ b.out = s.m.out ++ [packet s.m q 2 [last 16] []] ∧ next b (k 16))) ∧
      (∀ w o, AtHbm s.m p t q w (·.rd) o 16 → (s.m.mem.word (o / 16)).dev = 0 → 16 ≤ q.pmtu → Runs (.rdmaRead p t 16 false) s
        (fun b => b.mem = s.m.mem ∧ b.out = s.m.out ++ [packet s.m q 4 [psn] (s.m.mem.loadBs o 16)] ∧ next b 1)) ∧
      (∀ w o, t.addr.toNat % 8 = 0 → AtHbm s.m p t q w (·.atom) o 16 → (s.m.mem.word (o / 16)).dev = 0 →
        (let d := (s.m.mem.word (o / 16)).data
         let hi := d / 2 ^ 64 * 2 ^ 64
         let old := d % 2 ^ 64
         ∀ v cmp : W64,
           Runs (.fetchAndAdd p t v false) s (fun b => b.mem = s.m.mem.setWord (o / 16) ⟨hi + (old + v.toNat) % 2 ^ 64, 0⟩ ∧
             b.out = s.m.out ++ [packet s.m q 5 [psn, old] []] ∧ next b 1) ∧
           Runs (.compareAndSwap p t v cmp false) s (fun b =>
             b.mem = (if old = cmp.toNat then s.m.mem.setWord (o / 16) ⟨hi + v.toNat, 0⟩ else s.m.mem) ∧
             b.out = s.m.out ++ [packet s.m q 5 [psn, old] []] ∧ next b 1))) ∧
      (∀ data imm, (q.rqEn = false ∨ q.slotSize - 32 < data.length) → q.reqs = [] → Runs (.send p data imm) s refused) ∧
      (∀ data imm, q.rqEn = false → q.reqs = [] → Runs (.writeWithImmediate p t data imm) s refused) ∧
      (let a := fun n => s.m.onQp q.i (fun y => { y with nakSent := false, epsn := (y.epsn + n) % 2 ^ 24 })
       ∀ (data : List Byte) imm, q.rqEn = true → s.m.slotFree q = true → data.length ≤ q.slotSize - 32 →
         (let f := (a (k data.length)).fillSlot q data data.length 0 (imm.map (·.toNat)) psn
          f.1 = true → f.2.regQ = [] → Runs (.send p data imm) s (fun b => b.mem = f.2.mem ∧
            b.out = f.2.out ++ [packet s.m q 2 [last data.length] []] ∧
            ∃ y, b.qp q.i = some y ∧ y.rqProd = (q.rqProd + 1) % 2 ^ 32))) ∧
      (∀ w o (data : List Byte) (imm : BitVec 32), q.rqEn = true → s.m.slotFree q = true → data.length = 16 →
        AtHbm s.m p t q w (·.wr) o 16 →
        (let a := { s.m.onQp q.i (fun y => { y with nakSent := false, epsn := (y.epsn + k 16) % 2 ^ 24 }) with
          mem := s.m.mem.setWord (o / 16) ⟨leNat data, 0⟩ }
         let f := a.fillSlot q [] 16 1 (some imm.toNat) psn
         f.1 = true → f.2.regQ = [] → Runs (.writeWithImmediate p t data imm) s (fun b => b.mem = f.2.mem ∧
           b.out = f.2.out ++ [packet s.m q 2 [last 16] []] ∧ ∃ y, b.qp q.i = some y ∧ y.rqProd = (q.rqProd + 1) % 2 ^ 32))))))

/-- R464, R481, R482, R486, R487: queue pairs and the requester. An enable reads and checks the entry and makes the pair
READY; a disable drops it; a CNP halves the rate, to no less than 1, and the gap timer raises it again where none came; an
acknowledgement ends the operations it covers; a NAK, and a time-out or an RNR timer without retries left, moves the pair to
ERROR, counted and recorded; with retries left every operation is sent again. -/
def Obligations.QueuePairs : Prop := ∀ (s : State) (i : BitVec 12), s.m.regQ = [] →
  (let err := fun (b : Block) => b.rd DM_STATUS.CFG_ERR = 1 ∧ b.qps = s.m.qps ∧ b.mem = s.m.mem
   let r := ((s.m.wr DM_QPCMD.QP i.toNat).wr DM_QPCMD.OP 1).tableWords (s.m.rd DM_QPT.BASE * 2 ^ 16 + 64 * i.toNat) 8
   let errors := min (s.m.rd DM_ROCE_CNT.QP_ERR + 1) (2 ^ DM_ROCE_CNT.QP_ERR.width - 1)
   let fails := fun (q : Qp) (b : Block) => (∃ y, b.qp q.i = some y ∧ y.st = 2 ∧ y.reqs = []) ∧ b.rd DM_ROCE_CNT.QP_ERR = errors
   ((s.m.qp i.toNat).elim 0 (·.st) ≠ 0 → Runs (.qpEnable i) s err) ∧
   ((s.m.qp i.toNat).elim 0 (·.st) = 0 → (r.2.1 = true ∨ qpOk r.1 = false) → Runs (.qpEnable i) s (fun b =>
     b.rd DM_STATUS.CFG_ERR = 1 ∧ b.qps = s.m.qps)) ∧
   ((s.m.qp i.toNat).elim 0 (·.st) = 0 → r.2.1 = false → qpOk r.1 = true → Runs (.qpEnable i) s (fun b =>
     b.qp i.toNat = some (s.m.qpFrom i.toNat r.1) ∧ (s.m.qpFrom i.toNat r.1).st = 1)) ∧
   Runs (.qpDisable i) s (fun b => b.qp i.toNat = none ∧ (∀ q ∈ s.m.qps, q.i ≠ i.toNat → q ∈ b.qps)) ∧
   (∀ q, s.m.qp i.toNat = some q → Runs (.cnpGapTimer i) s (fun b => b.qp i.toNat = some { q with
       rate := (if q.cnpGot then q.rate else min (q.rate + 1) (s.m.portRate i.toNat)), cnpGot := false, cnpSent := false } ∧
       b.regs = s.m.regs ∧ b.mem = s.m.mem)) ∧
   (∀ (p : RocePkt) q, s.m.qpOf p = some q → p.ce = false →
     Runs (.cnp p) s (fun b => b.qp q.i = some { q with rate := max 1 (q.rate / 2), cnpGot := true } ∧
       Only { s.m with qps := b.qps } b [DM_ROCE_CNT.CNP_RCVD.key 0 0] []) ∧
     (∀ req, q.reqs = [req] → s.m.bk.recs = [] → Runs (.roceAck p) s (fun b => b.qp q.i = some { q with
       reqs := if (p.psn.toNat + 2 ^ 24 - req.1) % 2 ^ 24 < 2 ^ 23 then [] else [req] } ∧ b.regs = s.m.regs ∧ b.mem = s.m.mem)) ∧
     (∀ syn : BitVec 8,
       (syn.toNat / 32 = 1 ∨ q.reqs = [] → Runs (.roceNak p syn) s (fun b => b.qp q.i = some { q with lastErr := syn.toNat } ∧
         b.regs = s.m.regs ∧ b.faultQ = s.m.faultQ)) ∧
       (syn.toNat / 32 ≠ 1 → q.reqs ≠ [] → s.m.bk.recs = [] → Runs (.roceNak p syn) s (fun b => fails q b ∧
         b.faultQ = s.m.faultQ ++ [{ cls := 16, cause := 3, level := 4 }])))) ∧
   (∀ q req, s.m.qp i.toNat = some q → q.st = 1 → q.reqs = [req] → s.m.bk.recs = [] →
     (let more := fun (x : Nat × Nat × Bool × Nat × Nat) (b : Block) => b.qp i.toNat = some { q with reqs := [x] } ∧ b.regs = s.m.regs
      (q.retryCnt ≤ req.2.2.2.1 → Runs (.roceAckTimeout i) s (fails q)) ∧
      (req.2.2.2.1 < q.retryCnt → Runs (.roceAckTimeout i) s
        (more (req.1, req.2.1, req.2.2.1, req.2.2.2.1 + 1, req.2.2.2.2))) ∧
      (q.rnrRetry ≠ 7 → q.rnrRetry ≤ req.2.2.2.2 → Runs (.roceRnrRetry i) s (fails q)) ∧
      (q.rnrRetry = 7 ∨ req.2.2.2.2 < q.rnrRetry → Runs (.roceRnrRetry i) s
        (more (req.1, req.2.1, req.2.2.1, req.2.2.2.1, req.2.2.2.2 + 1))))))

/-- R144, R318 to R321, R353 to R355, R490, R493: what each message next in order on a known path does, once: a WRITE leaves its
bytes in memory, a READ and an ATOMIC are answered, an answer reaches the load that waits for it (its data; poison where the
status is an error, CONTEXT_TAG where it is TAG_MISMATCH, ABSENT_WRITE for an atomic that was discarded), a WRITE_ERR ends the
step that wrote, a remote bag out of step is refused and counted and another joins its engine where the reorder store has
room, returns (held on the mesh for a tile that copies or resets), contributions and acknowledgements reach their unit; the path then stands at the message's SEQ. CLOSE frees the
path. -/
def Obligations.DamaskMessages : Prop := ∀ (s : State) (h : DmHdr) (r : RecvPath), NextMsg s.m h r →
  (let t := taken s.m h
   let tm := t.onRecv h.node.toNat h.path.toNat (fun r => { r with dirty := true })
   let node := h.node.toNat
   let off := h.off.toNat
   let ctx := h.ctx.toNat
   let inHbm := off % 16 = 0 ∧ (∃ m k, s.m.place off = .hbm m k ∧ s.m.rd MEM_STATUS.STATE m ≠ 3) ∧
     tagPasses (s.m.tagAt off) ctx = true ∧ s.m.rc = [] ∧ s.m.sf = []
   let w := s.m.mem.word (off / 16)
   Runs (.dmClose h) s (fun b => b.recvOf node h.path.toNat = none ∧ b.mem = s.m.mem) ∧
   (∀ bs : List Byte, inHbm → bs.length = 16 → Runs (.dmWrite h (plain bs)) s (fun b =>
     b.mem = s.m.mem.setWord (off / 16) ⟨leNat bs, 0⟩ ∧ Performed b h)) ∧
   (∀ tag, inHbm → w.dev = 0 → Runs (.dmRead h tag 16) s (fun b => b.mem = s.m.mem ∧ Performed b h ∧
     b.dm.send = (tm.dmSend node h.bulk.toNat 521 0x12 0 ctx 0 [tag.toNat, 0] (plain (s.m.mem.loadBs off 16)) none none).2.dm.send)) ∧
   (∀ (tag : BitVec 32) (v cmp : W64), inHbm → w.dev = 0 →
     (let old := w.data % 2 ^ 64
      let send := fun (b : Block) => (b.dmSend node h.bulk.toNat 521 0x14 0 ctx 0 [tag.toNat, 0] (plain (leBytes 8 old)) none none).2
      Runs (.dmAtomic h tag false true v cmp) s (fun b => Performed b h ∧ b.dm.send = (send tm).dm.send ∧
        b.mem = s.m.mem.setWord (off / 16) ⟨w.data / 2 ^ 64 * 2 ^ 64 + (old + v.toNat) % 2 ^ 64, 0⟩) ∧
      Runs (.dmAtomic h tag true true v cmp) s (fun b => Performed b h ∧ b.dm.send = (send tm).dm.send ∧
        b.mem = (if old = cmp.toNat then s.m.mem.setWord (off / 16) ⟨w.data / 2 ^ 64 * 2 ^ 64 + v.toNat, 0⟩ else s.m.mem)))) ∧
   (∀ (tag : BitVec 32) x p, s.m.dm.tags = [x] → x.tag = tag.toNat → x.who = .load p →
     (let got := fun (b : Block) (v : Nat) (pois : Bool) (exc : Nat) => b.dm.tags = [] ∧ Performed b h ∧ b.mem = s.m.mem ∧
        (b.site p).pend = (s.m.site p).pend.map (fun y => { y with value := v, poison := pois, exc := exc, ready := true })
      (∀ data, let d : MBytes := (data.drop (x.off % 16)).take x.len
        Runs (.dmReadResp h tag 0 data) s (fun b => got b (leNat d.bytes) d.pois 0)) ∧
      (∀ (st : BitVec 8) data, 0 < x.len → st ≠ 0 → st ≠ 2 → Runs (.dmReadResp h tag st data) s (fun b => got b 0 true 0)) ∧
      (∀ data, Runs (.dmReadResp h tag 2 data) s (fun b => got b 0 false xTag)) ∧
      (∀ (old : W64) pois, Runs (.dmAtomicResp h tag 0 old pois) s (fun b => got b old.toNat pois 0) ∧
        Runs (.dmAtomicResp h tag 1 old pois) s (fun b => got b 0 false xAbsentWrite) ∧
        Runs (.dmAtomicResp h tag 2 old pois) s (fun b => got b 0 false xTag) ∧
        Runs (.dmAtomicResp h tag 3 old pois) s (fun b => got b 0 false xAbsentWrite)))) ∧
   (∀ (seq : BitVec 32) (st : BitVec 8) (path : BitVec 12),
     (s.m.dm.send.find? (fun p => p.id == path.toNat && p.node == node) = none → Runs (.dmWriteErr h seq st path) s (fun b =>
       Performed b h ∧ b.sites = s.m.sites ∧ b.mem = s.m.mem)) ∧
     (∀ p q, s.m.dm.send.find? (fun p => p.id == path.toNat && p.node == node) = some p →
       s.m.ownerRuns (p.writer seq.toNat) = some q → q.site < 576 →
       (t.raiseLate (p.writer seq.toNat) (if st = 2 then xTag else xAbsentWrite)).regQ = [] →
       Runs (.dmWriteErr h seq st path) s (fun b => Performed b h ∧ (b.site q.site).run = none ∧
         b.rd TL_EXC_CNT.EXCEPTIONS q.site =
           min (s.m.rd TL_EXC_CNT.EXCEPTIONS q.site + 1) (2 ^ TL_EXC_CNT.EXCEPTIONS.width - 1)))) ∧
   (∀ (g : BagHdr) raw parts,
     (let n := s.m.rd TK_COUNT.COUNT
      let room := s.m.storeUse (h.sub.val / 4) + (parts.map (fun q => partUnits q.rows.length)).sum ≤ 65536
      (raw = true ∨ room → g.tick + 1 < n ∨ n + 1 < g.tick → Runs (.dmRemoteBag h g raw parts) s (fun b => Performed b h ∧ b.moss = s.m.moss ∧
        b.rd MS_ERR_CNT.TICK_SKEW = min (s.m.rd MS_ERR_CNT.TICK_SKEW + 1) (2 ^ MS_ERR_CNT.TICK_SKEW.width - 1))) ∧
      (n ≤ g.tick + 1 → g.tick ≤ n + 1 → ∀ (q : PartItem) e b1, parts = [q] → room →
        t.ownerCheck q.table 1 (q.rows.map (·.1)) = (0, e, b1) → b1.moss = s.m.moss → b1.dm = t.dm → b1.regQ = [] →
        Runs (.dmRemoteBag h g false parts) s (fun b => Performed b h ∧ b.moss.waiting = s.m.moss.waiting ++ [{
          eng := eHome e, l := g.ltile, tag := q.tag, from_ := some (node, h.bulk.toNat, [g.tick, g.ltile, g.instr, 0]),
          owner := false, tick := g.tick, ctx := g.ctx, table := q.table, mode := q.mode, ent := e, rows := q.rows, reads := [],
          port := some (h.sub.val / 4) }])))) ∧
   (∀ (l : LTile) (it : RetItem),
     (s.m.served l = false → Runs (.dmPooledReturn h l [it]) s (fun b => Performed b h ∧ b.sites = s.m.sites ∧
       b.rd TL_DROP_CNT.DROPPED_RETURNS = min (s.m.rd TL_DROP_CNT.DROPPED_RETURNS + 1) (2 ^ TL_DROP_CNT.DROPPED_RETURNS.width - 1))) ∧
     (s.m.served l = true → s.m.held l = true → Runs (.dmPooledReturn h l [it]) s (fun b => Performed b h ∧ b.sites = s.m.sites ∧
        b.moss = { s.m.moss with rets := s.m.moss.rets ++ [⟨l.val, it.tag, it.pstatus, it.rows, it.data⟩] })) ∧
     (let x := (t.partDone (s.m.siteOf l) it.tag it.pstatus it.data).mssPump (s.m.siteOf l)
      s.m.served l = true → s.m.held l = false → x.dm.recv = t.dm.recv → x.regQ = [] → Runs (.dmPooledReturn h l [it]) s (fun b =>
        Performed b h ∧ b.sites = x.sites ∧ b.moss = x.moss))) ∧
   (∀ (g : BagHdr) (c : ContribItem),
     (let x := (t.contribute node g.ltile g.ctx g.tick c).2
      x.dm.recv = t.dm.recv → x.regQ = [] → Runs (.dmUpdate h g [c]) s (fun b => Performed b h ∧ b.moss = x.moss ∧ b.sites = x.sites))) ∧
   (∀ (l : LTile) (seq : BitVec 32) (st : BitVec 8),
     (s.m.served l = false → Runs (.dmUpdateAck h l [(seq, st)]) s (fun b => Performed b h ∧ b.sites = s.m.sites)) ∧
     (let x := t.contribDone (s.m.siteOf l) seq.toNat st.toNat
      s.m.served l = true → x.dm.recv = t.dm.recv → x.regQ = [] → Runs (.dmUpdateAck h l [(seq, st)]) s (fun b =>
        Performed b h ∧ b.sites = x.sites))))

/-- R488, R491 to R497, R571: paths. A packet for another node, or whose sender's address is not that of its node, is
counted and dropped; OPEN opens a receive path; a sequenced message on an unknown path, and one received before, performs
nothing, and one with a release that comes before its turn is kept where the reorder store has room; an ACK ends the messages
it covers and moves the window; a RESET, and a timer beyond RETRY_MAX, fails the path with one record; a timer before sends the message again; an ACK
is owed until its delay has passed; an idle path is closed, one with messages outstanding is not. -/
def Obligations.DamaskPaths : Prop := ∀ (s : State), s.m.regQ = [] →
  (let sat := fun (f : Field) => min (s.m.rd f + 1) (2 ^ f.width - 1)
   (∀ h : DmHdr,
     (s.m.netTakes h.sub = false ∨ h.ver.toNat ≠ 1 → Runs (.dmOpen h) s (fun b => b = s.m) ∧ (∀ d, Runs (.dmWrite h d) s (fun b => b = s.m))) ∧
     (s.m.netTakes h.sub = true → h.ver.toNat = 1 → h.dst.toNat ≠ s.m.rd XL_NODE.SELF ∨ s.m.nodeAddr h.node.toNat ≠ some h.addr.toNat →
       (∀ d, Runs (.dmWrite h d) s (fun b => b.rd DM_RETX_CNT.BAD_NODE = sat DM_RETX_CNT.BAD_NODE ∧ Only s.m b [DM_RETX_CNT.BAD_NODE.key 0 0] []))) ∧
     (Takes s.m h → s.m.recvOf h.node.toNat h.path.toNat = none →
       (h.seq = 0 → s.m.dm.recv.length < 4096 → Runs (.dmOpen h) s (fun b => b.rd DM_MSG_CNT.RX = sat DM_MSG_CNT.RX ∧
         Only { s.m with dm := { s.m.dm with recv := s.m.dm.recv ++
           [⟨h.node.toNat, h.path.toNat, 0, [], [], [], h.sub.val, true, h.ce, false⟩] } } b [DM_MSG_CNT.RX.key 0 0] [])) ∧
       (∀ d, Runs (.dmWrite h d) s (fun b => b.mem = s.m.mem ∧ b.dm = s.m.dm ∧ b.rd DM_MSG_CNT.TX = sat DM_MSG_CNT.TX))) ∧
     (∀ r d, Takes s.m h → s.m.recvOf h.node.toNat h.path.toNat = some r → seqLe h.seq.toNat r.cum = true →
       Runs (.dmWrite h d) s (fun b => b.mem = s.m.mem ∧ b.dm.send = s.m.dm.send ∧ (s.m.tick.fatal = false → b.rd DM_MSG_CNT.TX = sat DM_MSG_CNT.TX))) ∧
     (∀ p, Takes s.m h → s.m.dm.send = [p] → p.id = h.path.toNat → p.node = h.node.toNat → s.m.dm.holds = [] →
       (∀ m sack ece, p.unacked = [m] → p.queue = [] → m.record = none → m.type ≠ 2 → s.m.grp.omapOut = [] →
         seqLe m.seq h.seq.toNat = true → Runs (.dmAck h sack ece) s (fun b => ∃ y, b.dm.send = [y] ∧ y.unacked = [] ∧ y.id = p.id ∧
           y.next = p.next ∧ y.cwnd = (if ece then (if p.cwnd ≤ p.halved + 1 then max 4 (p.cwnd / 2) else p.cwnd)
             else if p.cwnd ≤ p.grown + 1 then min (p.cwnd + (p.grown + 1) / p.cwnd) (s.m.rd DM_CTRL.WINDOW) else p.cwnd))) ∧
       (p.unacked = [] → p.queue = [] → Runs (.dmReset h) s (fun b => b.dm.send = [] ∧ b.rd DM_PATH_CNT.FAILED = sat DM_PATH_CNT.FAILED ∧
         b.faultQ = s.m.faultQ ++ [{ cls := 16, cause := 1, level := 4, node := some p.node }])))) ∧
   (∀ (h : DmHdr) r (d : MBytes), Takes s.m h → s.m.dm.recv = [r] → r.node = h.node.toNat → r.path = h.path.toNat →
     seqLe h.seq.toNat r.cum = false → h.seq.toNat ≠ (r.cum + 1) % 2 ^ 32 → h.seq.toNat ∉ r.got → 0 < h.rel.toNat →
     s.m.storeUse (h.sub.val / 4) + (rxMsg h 0x10 [d.length] d).units ≤ 65536 → Runs (.dmWrite h d) s (fun b => b.mem = s.m.mem ∧
       ∃ y, b.dm.recv = [y] ∧ y.held = r.held ++ [rxMsg h 0x10 [d.length] d] ∧ y.cum = r.cum ∧ y.perf = r.perf ∧ y.dirty = true)) ∧
   (∀ (node : BitVec 10) (path : BitVec 12) r, s.m.dm.recv = [r] → r.node = node.toNat → r.path = path.toNat →
     (r.dirty = false ∨ s.m.tick.fatal = true → Runs (.ackDelayTimer node path) s (fun b => b = s.m)) ∧
     (r.dirty = true → s.m.tick.fatal = false → Runs (.ackDelayTimer node path) s (fun b =>
       b.dm.recv = [{ r with dirty := false, ece := false, full := false }] ∧ b.rd DM_MSG_CNT.TX = sat DM_MSG_CNT.TX ∧ b.mem = s.m.mem))) ∧
   (∀ (path : BitVec 12) p, s.m.dm.send = [p] → p.id = path.toNat →
     (∀ (seq : BitVec 32) m, p.unacked = [m] → m.seq = seq.toNat →
       (s.m.tick.fatal = true → Runs (.damaskRetransmitTimer path seq) s (fun b => b = s.m)) ∧
       (s.m.tick.fatal = false → m.sends ≤ s.m.rd DM_CTRL.RETRY_MAX → Runs (.damaskRetransmitTimer path seq) s (fun b =>
         b.rd DM_RETX_CNT.RETX = sat DM_RETX_CNT.RETX ∧ b.mem = s.m.mem ∧
         ∃ k, b.dm.send = [{ p with unacked := [{ m with sends := m.sends + 1, port := k }] }])) ∧
       (s.m.tick.fatal = false → s.m.rd DM_CTRL.RETRY_MAX < m.sends → p.queue = [] → s.m.dm.holds = [] → s.m.dm.tags = [] →
         m.record = none → s.m.grp.omapOut = [] → m.type = 0x11 → Runs (.damaskRetransmitTimer path seq) s (fun b => b.dm.send = [] ∧
           b.rd DM_PATH_CNT.FAILED = sat DM_PATH_CNT.FAILED ∧
           b.faultQ = s.m.faultQ ++ [{ cls := 16, cause := 1, level := 4, node := some p.node }]))) ∧
     (p.closing = true ∨ p.unacked ≠ [] ∨ p.queue ≠ [] → Runs (.pathIdleClose path) s (fun b => b = s.m)) ∧
     (p.closing = false → p.unacked = [] → p.queue = [] → 0 < min p.cwnd (s.m.rd DM_CTRL.WINDOW) → s.m.tick.fatal = false →
       Runs (.pathIdleClose path) s (fun b => b.mem = s.m.mem ∧ b.rd DM_MSG_CNT.TX = sat DM_MSG_CNT.TX ∧
         ∃ y m, b.dm.send = [y] ∧ y.closing = true ∧ y.unacked = [m] ∧ m.type = 2 ∧ m.seq = p.next ∧ y.queue = []))))

/-- R522, R526, R527, R529, R530, R536, R539, R541, R651: what each group control message does at its receiver: nothing while
the group is off, a count in MISSED from a node that is no member, and its stated effect from a member or from the manager
under the module's own term. -/
def Obligations.GroupMessages : Prop := ∀ (s : State) (h : DmHdr) (r : RecvPath) (g : GrpHdr),
  (let sat := fun (f : Field) => min (s.m.rd f + 1) (2 ^ f.width - 1)
   let node := g.node.toNat
   let mgr := s.m.fromManager g = true
   let role := s.m.rd GRP_ROLE.ROLE
   let n := s.m.rd TK_COUNT.COUNT
   (NextMsg s.m h r → ∀ inSvc cause, Runs (.service h g inSvc cause) s (fun b => Performed b h ∧
     (s.m.grpOn = false → RegsBut [DM_MSG_CNT.RX.key 0 0] s.m b) ∧
     (s.m.grpOn = true → s.m.grpForeign g = true → b.rd GRP_HB_CNT.MISSED = sat GRP_HB_CNT.MISSED ∧
       RegsBut [DM_MSG_CNT.RX.key 0 0, GRP_HB_CNT.MISSED.key 0 0] s.m b))) ∧
   (GroupMsg s.m h r g →
     (∀ inSvc (cause : BitVec 8), mgr → Runs (.service h g inSvc cause) s (fun b => Performed b h ∧
       b.rd GRP_SVC.IN_SERVICE = inSvc.toNat ∧ b.rd GRP_SVC.BY_MGR = 1 ∧ b.rd GRP_SVC.CAUSE = cause.toNat)) ∧
     (∀ l : GrpLead,
       (s.m.rd GRP_ROLE.TERM < g.term.toNat → Runs (.takeover h g l) s (fun b => Performed b h ∧
         b.rd GRP_ROLE.MANAGER_NODE = l.manager.toNat ∧ b.rd GRP_ROLE.DEPUTY_NODE = l.deputy.toNat ∧
         b.rd GRP_ROLE.DEP_VALID = l.depValid.toNat ∧ b.rd GRP_ROLE.TERM = g.term.toNat ∧
         (role = 3 → b.rd GRP_ROLE.ROLE = 1 ∧ b.rd GRP_STATUS.DEMOTED = 1 ∧
           b.faultQ = s.m.faultQ ++ [{ cls := 17, cause := 2, level := 5, node := some node }]) ∧
         (role ≠ 3 → b.rd GRP_ROLE.ROLE = role ∧ b.faultQ = s.m.faultQ))) ∧
       (mgr → Runs (.takeover h g l) s (fun b => Performed b h ∧ b.rd GRP_ROLE.DEPUTY_NODE = l.deputy.toNat ∧
         b.rd GRP_ROLE.DEP_VALID = l.depValid.toNat ∧ b.rd GRP_ROLE.ROLE = role ∧ b.rd GRP_ROLE.TERM = s.m.rd GRP_ROLE.TERM))) ∧
     (∀ e : EpochFields, mgr → role ≠ 3 → e.at_ = 0 → s.m.rd GRP_STATUS.EPOCH_DIFF = 0 →
       (s.m.rd TK_PERIOD.PERIOD_US = e.per.toNat → s.m.ownTime e.tick.toNat = e.ns.toNat → Runs (.epoch h g e) s (fun b =>
         Performed b h ∧ RegsBut [DM_MSG_CNT.RX.key 0 0] s.m b)) ∧
       (s.m.rd TK_PERIOD.PERIOD_US ≠ e.per.toNat → Runs (.epoch h g e) s (fun b => Performed b h ∧
         b.rd GRP_STATUS.EPOCH_DIFF = 1 ∧ b.rd TK_EPOCH_NS.EPOCH_NS = s.m.rd TK_EPOCH_NS.EPOCH_NS)) ∧
       (s.m.rd TK_PERIOD.PERIOD_US = e.per.toNat → s.m.ownTime e.tick.toNat ≠ e.ns.toNat → s.m.on GRP_CTRL.AUTO_EPOCH = true →
         Runs (.epoch h g e) s (fun b => Performed b h ∧ b.rd GRP_STATUS.EPOCH_DIFF = 1 ∧
           b.rd TK_EPOCH_NS.EPOCH_NS = e.ns.toNat ∧ b.rd TK_EPOCH_TICK.EPOCH_TICK = e.tick.toNat ∧
           (s.m.rd TK_STATUS.STATE ≠ 0 → s.m.tick.fatal = false → b.rd TK_STATUS.STATE = 6)))) ∧
     (∀ m : HbMsg,
       (g.term.toNat < s.m.rd GRP_ROLE.TERM → Runs (.heartbeat h g m) s (fun b => Performed b h ∧ b.grp = s.m.grp ∧
         RegsBut [DM_MSG_CNT.RX.key 0 0] s.m b)) ∧
       (mgr → role ≠ 3 → Runs (.heartbeat h g m) s (fun b => Performed b h ∧ b.rd GRP_STATUS.MGR_ALIVE = 1 ∧
         (b.member node).misses = 0 ∧ (b.member node).last = max (s.m.member node).last g.tick.toNat))) ∧
     (∀ (at_ : W64) (e : OmapEntry), mgr →
       (at_.toNat ≤ n → Runs (.placement h g at_ [e]) s (fun b => Performed b h ∧ b.rd GRP_STATUS.CFG_ERR = 1 ∧ b.grp = s.m.grp)) ∧
       (n < at_.toNat → Runs (.placement h g at_ [e]) s (fun b => Performed b h ∧ b.grp.omapAt = some at_.toNat ∧
         b.rd GRP_OMAP_CMD.BUSY = 1 ∧ b.rd GRP_OMAP.PEND 0 e.bucket.toNat = 1 ∧
         b.rd GRP_OMAP.PEND_NODE 0 e.bucket.toNat = e.node.toNat ∧ b.rd GRP_OMAP.PEND_VALID 0 e.bucket.toNat = e.valid.toNat ∧
         ∀ k, b.rd GRP_OMAP.NODE 0 k = s.m.rd GRP_OMAP.NODE 0 k))) ∧
     (∀ i : DigestItem,
       (let size := 2 ^ (s.m.rd GRP_RPT.LOG2_SIZE + 6)
        let prod := s.m.rd GRP_RPT_IDX.PROD
        let full := size ≤ (prod + 2 ^ 32 - s.m.rd GRP_RPT_IDX.CONS) % 2 ^ 32
        (role = 3 → full → Runs (.digestReport h g [i]) s (fun b => Performed b h ∧
          b.rd GRP_HB_CNT.MISSED = sat GRP_HB_CNT.MISSED ∧ b.mem = s.m.mem)) ∧
        (role = 3 → ¬ full → s.m.rd GRP_RPT.BASE * 2 ^ 12 + 32 * size ≤ 12 * 2 ^ 36 → Runs (.digestReport h g [i]) s (fun b =>
          Performed b h ∧ b.rd GRP_RPT_IDX.PROD = (prod + 1) % 2 ^ 32)) ∧
        (role ≠ 3 → Runs (.digestReport h g [i]) s (fun b => Performed b h ∧ b.mem = s.m.mem)))) ∧
     (∀ (kind : BitVec 2) (arg : BitVec 12),
       (role = 3 → s.m.grp.maintQ = [] → node ≠ s.m.rd XL_NODE.SELF → s.m.grp.maintOn.length < s.m.rd GRP_CTRL.MAINT_MAX →
         Runs (.maintReq h g kind arg) s (fun b => Performed b h ∧ b.grp.maintQ = [] ∧
           b.grp.maintOn = s.m.grp.maintOn ++ [(node, kind.toNat, arg.toNat)] ∧
           b.rd GRP_MAINT.ACTIVE = (s.m.grp.maintOn.length + 1) % 2 ^ GRP_MAINT.ACTIVE.width)) ∧
       (role = 3 → s.m.grp.maintQ.length < 64 → s.m.rd GRP_CTRL.MAINT_MAX ≤ s.m.grp.maintOn.length →
         Runs (.maintReq h g kind arg) s (fun b => Performed b h ∧ b.grp.maintOn = s.m.grp.maintOn ∧
           b.grp.maintQ = s.m.grp.maintQ ++ [(node, kind.toNat, arg.toNat)])) ∧
       (∀ t : W64, mgr → kind.toNat = s.m.rd GRP_MAINT.KIND → arg.toNat = s.m.rd GRP_MAINT.ARG → s.m.rd GRP_MAINT.STATE = 1 →
         Runs (.maintGrant h g kind arg t) s (fun b => Performed b h ∧ b.rd GRP_MAINT.STATE = 2 ∧
           b.rd GRP_MAINT_AT.GRANT_TICK = t.toNat)) ∧
       (role = 3 → s.m.grp.maintQ = [] → Runs (.maintDone h g kind arg false) s (fun b => Performed b h ∧
         b.grp.maintOn = s.m.grp.maintOn.erase (node, kind.toNat, arg.toNat))) ∧
       Runs (.maintDone h g kind arg true) s (fun b => Performed b h ∧ b.grp = s.m.grp)) ∧
     (∀ (at_ : W64) (tag : BitVec 16), mgr →
       (n < at_.toNat → Runs (.snapAt h g at_ tag) s (fun b => Performed b h ∧ b.rd SN_GRP_CMD.PEND = 1 ∧
         b.rd SN_GRP_AT.AT_TICK = at_.toNat ∧ b.rd SN_GRP_CMD.TAG = tag.toNat)) ∧
       (at_.toNat ≤ n → Runs (.snapAt h g at_ tag) s (fun b => Performed b h ∧ b.rd SN_STATUS.CFG_ERR = 1)))))

/-- R521, R525, R527, R530, R533, R536, R539, R541: the group's timers and commands. A missed heartbeat counts once, and the third
in a row of the manager makes the deputy take over with the next term; a latch that does not come in time counts once; a digest
pass ends; the deputy, service, owner map and maintenance commands act or are refused with CFG_ERR; pending owner map
entries move at their boundary. -/
def Obligations.GroupCommands : Prop := ∀ (s : State), s.m.regQ = [] →
  (let sat := fun (f : Field) => min (s.m.rd f + 1) (2 ^ f.width - 1)
   let role := s.m.rd GRP_ROLE.ROLE
   let n := s.m.rd TK_COUNT.COUNT
   let manager := s.m.on GRP_CTRL.ENABLE = true ∧ role = 3
   let err := fun (b : Block) => b.rd GRP_STATUS.CFG_ERR = 1 ∧ Only s.m b [GRP_STATUS.CFG_ERR.key 0 0] []
   (∀ (node : BitVec 10) (k : W64),
     (let hb := max 1 (s.m.rd GRP_CTRL.HB_TICKS)
      let mgr := node.toNat = s.m.rd GRP_ROLE.MANAGER_NODE
      let x := s.m.member node.toNat
      let due := s.m.grpOn = true ∧ (s.m.memberIx node.toNat).isSome ∧ node.toNat ≠ s.m.rd XL_NODE.SELF ∧ (mgr ∨ 2 ≤ role) ∧
        k.toNat % hb = 0 ∧ k.toNat + hb ≤ n ∧ x.last < k.toNat ∧ x.missedAt ≤ k.toNat
      (¬ due → Runs (.heartbeatMissed node k) s (fun b => b = s.m)) ∧
      (due → x.misses + 1 ≠ 3 → Runs (.heartbeatMissed node k) s (fun b => b.rd GRP_HB_CNT.MISSED = sat GRP_HB_CNT.MISSED ∧
        (b.member node.toNat).misses = x.misses + 1 ∧ (b.member node.toNat).missedAt = k.toNat + 1 ∧ Only { s.m with grp := b.grp } b [GRP_HB_CNT.MISSED.key 0 0] [])) ∧
      (due → x.misses = 2 → mgr → role = 2 → Runs (.heartbeatMissed node k) s (fun b => b.rd GRP_HB_CNT.MISSED = sat GRP_HB_CNT.MISSED ∧
        b.rd GRP_ROLE.ROLE = 3 ∧ b.rd GRP_ROLE.MANAGER_NODE = s.m.rd XL_NODE.SELF % 2 ^ 10 ∧ b.rd GRP_ROLE.DEP_VALID = 0 ∧
        b.rd GRP_ROLE.TERM = (s.m.rd GRP_ROLE.TERM + 1) % 2 ^ 16 ∧ b.rd GRP_STATUS.TAKEOVER = 1 ∧ b.rd GRP_STATUS.MGR_ALIVE = 0)) ∧
      (let late := manager ∧ (s.m.memberIx node.toNat).isSome ∧ node.toNat ≠ s.m.rd XL_NODE.SELF ∧
         k.toNat % max 1 (s.m.rd GRP_CTRL.DIGEST_TICKS) = 0 ∧ k.toNat + 2 * s.m.rd GRP_CTRL.HB_TICKS ≤ n ∧ x.digest < k.toNat ∧
         x.lateAt ≤ k.toNat
       (¬ late → Runs (.digestLate node k) s (fun b => b = s.m)) ∧
       (late → s.m.rd GRP_MTAB.BASE * 2 ^ 12 + 16 * s.m.rd GRP_MTAB.COUNT ≤ 12 * 2 ^ 36 → Runs (.digestLate node k) s (fun b =>
         b.rd GRP_MISMATCH.LATE = sat GRP_MISMATCH.LATE ∧ (b.member node.toNat).lateAt = k.toNat + 1))))) ∧
   (s.m.grp.pass = none → Runs .digestPassEnd s (fun b => b = s.m)) ∧
   (s.m.grp.pass ≠ none → s.m.rd GRP_WTAB.BASE * 2 ^ 12 + 64 * 2 ^ s.m.rd GRP_WTAB.LOG2_SIZE ≤ 12 * 2 ^ 36 →
     role ≠ 3 → Runs .digestPassEnd s (fun b => b.grp.pass = none ∧ b.rd GRP_WSTATUS.BUSY = 0)) ∧
   (∀ (dep : BitVec 10) valid,
     (let set := fun (b : Block) => b.rd GRP_ROLE.DEPUTY_NODE = dep.toNat ∧ b.rd GRP_ROLE.DEP_VALID = valid.toNat
      (s.m.on GRP_CTRL.ENABLE = false → Runs (.deputyWrite dep valid) s (fun b => set b ∧
        Only s.m b [GRP_ROLE.DEPUTY_NODE.key 0 0, GRP_ROLE.DEP_VALID.key 0 0] [])) ∧
      (manager → Runs (.deputyWrite dep valid) s (fun b => set b ∧ b.rd GRP_ROLE.TERM = s.m.rd GRP_ROLE.TERM ∧ b.mem = s.m.mem)) ∧
      (s.m.on GRP_CTRL.ENABLE = true → role ≠ 3 → Runs (.deputyWrite dep valid) s err))) ∧
   (∀ (node : BitVec 10) inSvc,
     (let keys := [GRP_SVC_CMD.NODE.key 0 0, GRP_SVC_CMD.IN.key 0 0]
      (¬ manager → Runs (.svcCmdGo node inSvc) s (fun b => Only s.m b keys [])) ∧
      (manager → node.toNat = s.m.rd XL_NODE.SELF → Runs (.svcCmdGo node inSvc) s (fun b =>
        b.rd GRP_SVC.IN_SERVICE = inSvc.toNat ∧ b.rd GRP_SVC.BY_MGR = 1 ∧ b.rd GRP_SVC.CAUSE = 3 ∧
        Only s.m b ([GRP_SVC.IN_SERVICE.key 0 0, GRP_SVC.BY_MGR.key 0 0, GRP_SVC.CAUSE.key 0 0] ++ keys) [])) ∧
      (manager → node.toNat ≠ s.m.rd XL_NODE.SELF → Runs (.svcCmdGo node inSvc) s (fun b =>
        b = ((s.m.wr GRP_SVC_CMD.NODE node.toNat).wr GRP_SVC_CMD.IN inSvc.toNat).grpSend node.toNat 0x33 [inSvc.toNat + 3 * 2 ^ 8])))) ∧
   (s.m.on GRP_OMAP_CMD.BUSY = true → Runs .omapSend s err) ∧
   (s.m.on GRP_OMAP_CMD.BUSY = false → Runs .omapSend s (fun b => b.mem = s.m.mem ∧
     ((∃ k < 4096, s.m.on GRP_OMAP.PEND 0 k = true) → b.grp.omapAt = some (s.m.rd GRP_OMAP_AT.AT_TICK) ∧ b.rd GRP_OMAP_CMD.BUSY = 1) ∧
     ((∀ k < 4096, s.m.on GRP_OMAP.PEND 0 k = false) → b.grp = s.m.grp))) ∧
   (∀ (kind : BitVec 2) (arg : BitVec 12),
     (let set := fun (b : Block) => b.rd GRP_MAINT.KIND = kind.toNat ∧ b.rd GRP_MAINT.ARG = arg.toNat
      (s.m.rd GRP_MAINT.STATE ≠ 0 ∨ 2 ≤ kind.toNat → Runs (.maintGo kind arg) s err) ∧
      (s.m.rd GRP_MAINT.STATE = 0 → kind.toNat < 2 → ¬ manager → Runs (.maintGo kind arg) s (fun b => set b ∧
        b.rd GRP_MAINT.STATE = 1 ∧ b.mem = s.m.mem)) ∧
      (s.m.rd GRP_MAINT.STATE = 0 → kind.toNat < 2 → manager → s.m.grp.maintQ = [] →
        s.m.grp.maintOn.length < s.m.rd GRP_CTRL.MAINT_MAX → Runs (.maintGo kind arg) s (fun b => set b ∧
          b.rd GRP_MAINT.STATE = 2 ∧ b.rd GRP_MAINT_AT.GRANT_TICK = (n + 4) % 2 ^ 64 ∧
          b.grp.maintOn = s.m.grp.maintOn ++ [(s.m.rd XL_NODE.SELF, kind.toNat, arg.toNat)])))) ∧
   (s.m.grp.maintQ = [] → Runs .maintDoneCmd s (fun b => b.rd GRP_MAINT.STATE = 0 ∧ b.mem = s.m.mem ∧
     (manager → b.grp.maintOn = s.m.grp.maintOn.erase (s.m.rd XL_NODE.SELF, s.m.rd GRP_MAINT.KIND, s.m.rd GRP_MAINT.ARG)))) ∧
   (∀ t, s.m.grp.omapAt = some t → t ≤ n → ∀ k < 4096, s.m.on GRP_OMAP.PEND 0 k = true →
     (let b := s.m.omapApply
      b.rd GRP_OMAP.NODE 0 k = s.m.rd GRP_OMAP.PEND_NODE 0 k % 2 ^ 10 ∧ b.rd GRP_OMAP.PEND 0 k = 0 ∧
      b.rd GRP_OMAP.VALID 0 k = s.m.rd GRP_OMAP.PEND_VALID 0 k % 2)))

/-- R565, R566, R568, R569, R570, R621, R649: the next record that waits takes FLT_SEQ.NEXT. Where the ring is enabled, not
overflowing and not full, its words go to the slot of PROD, which advances, and an interrupt is owed; otherwise, and where no
memory takes its words, it overflows:
it counts by class and level, and the first one is kept in FLT_OVF_REC, sets OVERFLOW and interrupts the control cores of
IRQ_MASK at once. A record of a selected class and severity is a snapshot trigger too. While
Lichen runs it sends an event message for a record of class 19 to 21, whose content is the model's choice (log 57). The words
of a record hold its fields.
R561, R569, R570, R576, R610: the other events of the collector. The coalescing interval ends and interrupts the control
cores of IRQ_MASK; clearing the overflow clears the kept record and every overflow count and nothing else; a software record
carries the registers' CAUSE, LEVEL and AUX as class 22; clearing a context ends its termination, is counted and logged. -/
def Obligations.FaultCollector : Prop :=
  (
  (∀ (s : State), s.m.regQ = [] →
    (let prod := s.m.rd FLT_RING_IDX.PROD
     let seq := s.m.rd FLT_SEQ.NEXT
     let full := s.m.on FLT_CTRL.ENABLE = false ∨ s.m.on FLT_STATUS.OVERFLOW = true ∨
       4096 ≤ (prod + 2 ^ 32 - s.m.rd FLT_RING_IDX.CONS) % 2 ^ 32
     (s.m.faultQ = [] → Runs .faultRecord s (fun b => b = s.m)) ∧
     (∀ r rest, s.m.faultQ = r :: rest →
       (let ws := s.m.recWords r seq prod
        let m0 := { s.m with faultQ := rest }.wr FLT_SEQ.NEXT (seq + 1)
        let snaps := bit (s.m.rd SN_FAULT.CLASS_MASK) r.cls = true ∧ s.m.rd SN_FAULT.MIN_SEV ≤ r.severity
        let sends := 19 ≤ r.cls ∧ r.cls ≤ 21 ∧ s.m.rd LC_STATUS.RUN = 1
        let put := m0.mwrite 0xFFF (s.m.rd FLT_RING.BASE * 2 ^ 18 + 64 * (prod % 4096)) (plain (bytesOf ws))
        let trig := fun (x b : Block) => (snaps → b = x.snapTrigger 1 seq) ∧ (¬ snaps → b = x)
        (full ∨ put.1 ≠ .ok → Runs .faultRecord s (fun b => ∃ x : Block, trig x b ∧ x.rd FLT_SEQ.NEXT = (seq + 1) % 2 ^ 64 ∧
          x.rd FLT_STATUS.OVERFLOW = 1 ∧
          x.rd FLT_OVF_CLASS.COUNT 0 (r.cls % 32) = min (s.m.rd FLT_OVF_CLASS.COUNT 0 (r.cls % 32) + 1) (2 ^ 32 - 1) ∧
          x.rd FLT_OVF_LEVEL.COUNT 0 (r.level % 8) = min (s.m.rd FLT_OVF_LEVEL.COUNT 0 (r.level % 8) + 1) (2 ^ 32 - 1) ∧
          (∀ k < 8, x.rd FLT_OVF_REC.WORD 0 k = (if s.m.on FLT_STATUS.OVERFLOW = true then s.m.rd FLT_OVF_REC.WORD 0 k
            else ws.getD k 0 % 2 ^ 64)) ∧
          RestKept { s.m with faultQ := rest, out := x.out } x ∧
          x.out = s.m.out ++ (if s.m.on FLT_STATUS.OVERFLOW = true then [] else
            ((List.range 8).filter (fun h => bit (s.m.rd FLT_CTRL.IRQ_MASK) h)).map (fun h => Out.irq h 0)) ++
            (if sends then [.reply 7 10 [0, r.cls, r.cause, r.level, seq]] else []))) ∧
        (∀ x, ¬ full → put = (.ok, x) → x.regQ = [] → Runs .faultRecord s (fun b =>
          trig ({ x.addWrap FLT_RING_IDX.PROD with irqOwed := true }.pldmEvent r seq) b)))))) ∧
  (∀ (a : Block) (r : FaultRec) (seq prod : Nat), r.cls < 256 → r.cause < 256 → r.level < 8 → r.severity < 4 →
    r.unit < 2 ^ 16 → r.site < 2 ^ 10 → r.ctx.getD 0 < 2 ^ 12 →
    (let w := fun k => (a.recWords r seq prod).getD k 0
     (a.recWords r seq prod).length = 8 ∧ bits (w 0) 0 8 = phaseOf prod 4096 ∧ bits (w 0) 8 8 = r.cls ∧ bits (w 0) 16 8 = r.cause ∧
     bits (w 0) 24 3 = r.level ∧ bits (w 0) 27 2 = r.severity ∧ bits (w 0) 32 12 = r.ctx.getD 0 ∧ bits (w 0) 44 1 = r.ctx.isSome.toNat ∧
     w 1 = seq ∧ w 2 = a.rd TK_COUNT.COUNT ∧ bits (w 3) 0 16 = r.unit ∧ bits (w 3) 16 10 = r.site ∧
     bits (w 3) 26 10 = r.node.getD (a.rd XL_NODE.SELF) % 2 ^ 10 ∧ w 4 = r.addr % 2 ^ 64 ∧
     bits (w 5) 0 32 = r.cmdTag % 2 ^ 32 ∧ bits (w 5) 32 32 = r.aux0 % 2 ^ 32 ∧ w 6 = r.aux1 % 2 ^ 64 ∧ w 7 = r.aux2 % 2 ^ 64))
  ) ∧
  (
   ∀ (s : State), s.m.regQ = [] →
  (s.m.irqOwed = false → Runs .faultIrq s (fun b => b = s.m)) ∧
  (s.m.irqOwed = true → Runs .faultIrq s (fun b => b = { s.m with
    irqOwed := false
    out := s.m.out ++ ((List.range 8).filter (fun h => bit (s.m.rd FLT_CTRL.IRQ_MASK) h)).map (fun h => Out.irq h 0) })) ∧
  Runs .overflowClear s (fun b => b.rd FLT_STATUS.OVERFLOW = 0 ∧ (∀ k < 8, b.rd FLT_OVF_REC.WORD 0 k = 0) ∧
    (∀ k < 32, b.rd FLT_OVF_CLASS.COUNT 0 k = 0) ∧ (∀ k < 8, b.rd FLT_OVF_LEVEL.COUNT 0 k = 0) ∧
    (∀ f ∈ allFields, ∀ i j, f ∉ [FLT_STATUS.OVERFLOW, FLT_OVF_REC.WORD, FLT_OVF_CLASS.COUNT, FLT_OVF_LEVEL.COUNT] →
      b.rd f i j = s.m.rd f i j) ∧ RestKept s.m b) ∧
  (∀ (cause : BitVec 8) (level : BitVec 3) (aux : BitVec 31), Runs (.swrecGo cause level aux) s (fun b =>
    b.rd FLT_SWREC.CAUSE = cause.toNat ∧ b.rd FLT_SWREC.LEVEL = level.toNat ∧ b.rd FLT_SWREC.AUX = aux.toNat ∧
    Only { s.m with faultQ := s.m.faultQ ++ [{ cls := 22, cause := cause.toNat, level := level.toNat, aux0 := aux.toNat }] } b
      [FLT_SWREC.CAUSE.key 0 0, FLT_SWREC.LEVEL.key 0 0, FLT_SWREC.AUX.key 0 0] [])) ∧
  (∀ ctx : BitVec 12, Runs (.contextClear ctx) s (fun b => b.isTerm ctx.toNat = false ∧
    (∀ c, c ≠ ctx.toNat → b.isTerm c = s.m.isTerm c) ∧ b.rd FLT_CTX.CTX = ctx.toNat ∧ b.rd PW_RST_CAUSE.CONTEXT = 1 ∧
    b.rd PW_RST_CNT.CONTEXT = min (s.m.rd PW_RST_CNT.CONTEXT + 1) (2 ^ 16 - 1) ∧
    (s.m.rd LC_STATUS.RUN = 1 → Logged s.m b 1 b.rstCause) ∧ b.mem = s.m.mem ∧ b.sites = s.m.sites ∧
    RegsBut ([FLT_CTX.CTX.key 0 0, PW_RST_CAUSE.CONTEXT.key 0 0, PW_RST_CNT.CONTEXT.key 0 0] ++ logKeys) s.m b))
  )

/-- R580, R581, R601, R654: the main rails. PWR_EN asserted with the input in range, or an overvoltage that ends, closes the
hot-plug switch where nothing holds it open: bring-up is in stage 1, with cause POWER_ON if the module has not come up since
its power input, else with MAIN_POWER. The rails in regulation assert PWR_GOOD and start stage 2; the clocks locked start
stage 3.
R580, R581, R589, R591, R595 to R597, R601: a protection that trips, and PWR_EN deasserted, open the hot-plug switch:
PWR_GOOD falls, the module is in reset with everything cleared and the contents of HBM and peat undefined, and the record is
owed until the collector has power. A short, an overcurrent, a fault of a rail and a module temperature trip latch, an
overvoltage does not. With the switch open already they have none of this. -/
def Obligations.MainRails : Prop :=
  (
   ∀ (s : State), s.m.regQ = [] →
  (let pw := s.m.pw
   let closes := pw.input = true ∧ pw.switch = false ∧ s.m.rd LC_STATUS.RUN ≠ 0
   let starts := fun (p : Power) (b : Block) => b.pw = { p with switch := true } ∧ b.rd SN_BRINGUP.STAGE = 1 ∧
     (NSet.mem s.m.mrst.causes 1 = true → RegsBut [SN_BRINGUP.STAGE.key 0 0] s.m b ∧ b.mrst = s.m.mrst) ∧
     (NSet.mem s.m.mrst.causes 1 = false → bit (b.rd PW_RST_CAUSE.CAUSE) 1 = true ∧ NSet.mem b.mrst.causes 2 = true) ∧
     b.mem = s.m.mem ∧ b.out = s.m.out
   let en : Power := { pw with pwrEn := true, latched := false }
   let rec_ : Power := { pw with overVolt := false }
   (closes → pw.overVolt = false → Runs (.pwrEnAssert true) s (starts en)) ∧
   (¬ closes ∨ pw.overVolt = true → Runs (.pwrEnAssert true) s (fun b => b = { s.m with pw := en })) ∧
   Runs (.pwrEnAssert false) s (fun b => b = { s.m with pw := en }) ∧
   (pw.overVolt = false → Runs .overvoltageRecovery s (fun b => b = s.m)) ∧
   (pw.overVolt = true → closes → pw.pwrEn = true → pw.latched = false → Runs .overvoltageRecovery s (starts rec_)) ∧
   (pw.overVolt = true → ¬ closes ∨ pw.pwrEn = false ∨ pw.latched = true → Runs .overvoltageRecovery s (fun b =>
     b = { s.m with pw := rec_ })) ∧
   (pw.switch = true → pw.good = false → Runs .railsInRegulation s (fun b => b.rd SN_BRINGUP.STAGE = 2 ∧
     Only { s.m with pw := { pw with good := true }, out := s.m.out ++ [.pin pinGood true] } b [SN_BRINGUP.STAGE.key 0 0] [])) ∧
   (pw.switch = false ∨ pw.good = true → Runs .railsInRegulation s (fun b => b = s.m)) ∧
   (pw.good = true → s.m.rd SN_BRINGUP.STAGE = 2 → Runs .pllsLocked s (fun b => b.rd SN_BRINGUP.STAGE = 3 ∧
     Only { s.m with mrst := { s.m.mrst with ended := [] } } b [SN_BRINGUP.STAGE.key 0 0] [])) ∧
   (pw.good = false ∨ s.m.rd SN_BRINGUP.STAGE ≠ 2 → Runs .pllsLocked s (fun b => b = s.m)))
  ) ∧
  (
   ∀ (s : State), s.m.regQ = [] →
  (let pw := s.m.pw
   let off := fun (p : Power) (code : Option Nat) (b : Block) => b.pw = { p with switch := false, good := false } ∧
     b.mrst.on = true ∧ Cleared b ∧
     (∀ c, code = some c → NSet.mem b.mrst.causes c = true ∧ bit (b.rd PW_RST_CAUSE.CAUSE) (c - 1) = true) ∧
     (∀ key, domainOf key < 13 → b.mem.loadB key = b.mem.dflt key ∧ SMap.get 0 b.mem.seeds (domainOf key) ≠ 0)
   let latch := fun (r : FaultRec) => { pw with latched := true, owed := pw.owed ++ [r] }
   let hot := fun (pt : Fin 2 ⊕ Fin 12) => { pwRec 10 with unit := pt.elim (fun _ => 0) (fun m => 0x1000 + m.val) }
   (pw.switch = true →
     Runs .short s (off (latch (pwRec 5)) (some 5)) ∧ Runs .overcurrent s (off (latch (pwRec 6)) (some 5)) ∧
     (∀ rail : BitVec 8, Runs (.railFault rail) s (off (latch (pwRec 7 2 rail.toNat)) (some 5))) ∧
     (∀ pt, Runs (.thermModuleTrip pt) s (off { latch (hot pt) with trip := true } (some 5))) ∧
     Runs .overvoltage s (off { pw with overVolt := true, owed := pw.owed ++ [pwRec 4] } (some 4)) ∧
     Runs .pwrEnDeassert s (off { pw with pwrEn := false, latched := false, trip := false } none)) ∧
   (pw.switch = false →
     Runs .short s (fun b => b = s.m) ∧ Runs .overcurrent s (fun b => b = s.m) ∧
     (∀ rail, Runs (.railFault rail) s (fun b => b = s.m)) ∧ (∀ pt, Runs (.thermModuleTrip pt) s (fun b => b = s.m)) ∧
     Runs .overvoltage s (fun b => b = { s.m with pw := { pw with overVolt := true } }) ∧
     Runs .pwrEnDeassert s (fun b => b.pw = { pw with pwrEn := false, latched := false, trip := false } ∧
       b.regs = s.m.regs ∧ b.mem = s.m.mem)))
  )

/-- R581 to R584, R598, R601, R602, R649: undervoltage and an open supply pair. The warning level sets UV_WARN and step 1 at
least, is counted and recorded and is a snapshot trigger; each further dwell raises the step, up to 3; each recovery time
lowers it, and the last one clears UV_WARN with its record. The reset level starts a module reset of cause UNDERVOLTAGE,
whose record is owed; in bring-up it goes back to stage 1. The record of an open pair is owed while the switch is open. -/
def Obligations.Undervoltage : Prop := ∀ (s : State), s.m.regQ = [] →
  (let pw := s.m.pw
   let st := s.m.rd PW_STATUS.UV_STEP
   let sat := fun (f : Field) => min (s.m.rd f + 1) (2 ^ f.width - 1)
   let pins := fun (b : Block) => b.out = s.m.out ++ (if b.alert = s.m.alert then [] else [.pin pinAlert (!b.alert)])
   (pw.below = true ∨ pw.input = false → Runs .uvWarn s (fun b => b = s.m)) ∧
   (pw.below = false → pw.input = true → Runs .uvWarn s (fun b => b.pw = { pw with below := true, above := false } ∧
     b.rd PW_STATUS.UV_WARN = 1 ∧ b.rd PW_STATUS.UV_STEP = max 1 st % 4 ∧ b.rd PW_EVT_CNT.UV_WARNS = sat PW_EVT_CNT.UV_WARNS ∧
     b.rd SN_CNT.TRIGGERS = sat SN_CNT.TRIGGERS ∧ b.faultQ = s.m.faultQ ++ [pwRec 1] ∧ b.mem = s.m.mem ∧ b.sites = s.m.sites)) ∧
   (pw.below = false → Runs .uvDwellTimer s (fun b => b = s.m)) ∧
   (pw.below = true → Runs .uvDwellTimer s (fun b => b.rd PW_STATUS.UV_STEP = min 3 (st + 1) ∧ pins b ∧
     RegsBut [PW_STATUS.UV_STEP.key 0 0, PW_EVT_CNT.THROTTLES.key 0 0] s.m b ∧ b.mem = s.m.mem)) ∧
   (∀ recovery, Runs (.recoveryLevelReached recovery) s (fun b =>
     b = { s.m with pw := { pw with below := false, above := recovery } })) ∧
   (pw.above = false ∨ st = 0 → Runs .uvRecoverTimer s (fun b => b = s.m)) ∧
   (pw.above = true → 1 < st → st < 4 → Runs .uvRecoverTimer s (fun b => b.rd PW_STATUS.UV_STEP = st - 1 ∧ pins b ∧
     b.faultQ = s.m.faultQ ∧ RegsBut [PW_STATUS.UV_STEP.key 0 0, PW_EVT_CNT.THROTTLES.key 0 0] s.m b)) ∧
   (pw.above = true → st = 1 → Runs .uvRecoverTimer s (fun b => b.rd PW_STATUS.UV_STEP = 0 ∧ b.rd PW_STATUS.UV_WARN = 0 ∧ pins b ∧
     b.faultQ = s.m.faultQ ++ [pwRec 2] ∧
     RegsBut [PW_STATUS.UV_STEP.key 0 0, PW_STATUS.UV_WARN.key 0 0, PW_EVT_CNT.THROTTLES.key 0 0] s.m b)) ∧
   (pw.switch = false → Runs .uvReset s (fun b => b = s.m)) ∧
   (pw.switch = true → s.m.mrst.on = false → Runs .uvReset s (fun b => Cleared b ∧ b.mrst.on = true ∧
     NSet.mem b.mrst.causes 3 = true ∧ bit (b.rd PW_RST_CAUSE.CAUSE) 2 = true ∧ b.pw = { pw with owed := pw.owed ++ [pwRec 3] })) ∧
   (pw.switch = true → s.m.mrst.on = true → s.m.rd SN_BRINGUP.STAGE = 0 → Runs .uvReset s (fun b =>
     NSet.mem b.mrst.causes 3 = true ∧ b.pw = { pw with owed := pw.owed ++ [pwRec 3] } ∧ b.mem = s.m.mem)) ∧
   (pw.switch = true → s.m.mrst.on = true → 1 ≤ s.m.rd SN_BRINGUP.STAGE → Runs .uvReset s (fun b => b.rd SN_BRINGUP.STAGE = 1 ∧
     NSet.mem b.mrst.causes 3 = true ∧ b.pw = { pw with good := false, owed := pw.owed ++ [pwRec 3] } ∧ b.mem = s.m.mem)) ∧
   (s.m.on PW_STATUS.OPEN_PAIR = true → Runs .openPair s (fun b => b = s.m)) ∧
   (s.m.on PW_STATUS.OPEN_PAIR = false → Runs .openPair s (fun b => b.rd PW_STATUS.OPEN_PAIR = 1 ∧ pins b ∧
     b.faultQ = s.m.faultQ ++ (if pw.switch then [pwRec 7 1] else []) ∧
     b.pw = { pw with owed := pw.owed ++ (if pw.switch then [] else [pwRec 7 1]) } ∧ RegsBut [PW_STATUS.OPEN_PAIR.key 0 0] s.m b ∧ b.mem = s.m.mem)) ∧
   Runs .openPairRecover s (fun b => b.rd PW_STATUS.OPEN_PAIR = 0 ∧ pins b ∧ RegsBut [PW_STATUS.OPEN_PAIR.key 0 0] s.m b ∧
     b.mem = s.m.mem))

/-- R3, R585, R587, R588, R593: power capping and the base clock. A window's average power is shown, and caps nothing while EN is 0. A window above the limit raises CAP_STEP, up to 3; one below
95 % of it lowers CAP_STEP, and CAP_ACTIVE ends with step 0; the tenth window in a row above the limit at step 3 is recorded
as CAP_FAIL. A requested clock below 500 MHz is refused, one above the part's maximum is clamped and recorded; a region's step
is the largest of the four steps that apply to it. -/
def Obligations.CapAndClock : Prop :=
  (∀ (s : State) (avg : BitVec 16), s.m.regQ = [] →
    (let lim := if s.m.on PW_STATUS.OPEN_PAIR = true then min s.m.pw.limit 1800 else s.m.pw.limit
     let st := s.m.rd PW_STATUS.CAP_STEP
     let act := s.m.on PW_STATUS.CAP_ACTIVE
     let keys := [PW_STATUS.CAP_STEP.key 0 0, PW_STATUS.CAP_ACTIVE.key 0 0, PW_POWER.AVG_W.key 0 0, PW_EVT_CNT.THROTTLES.key 0 0]
     (s.m.on PW_CAP.EN = false → Runs (.capWindow avg) s (fun b => b.rd PW_POWER.AVG_W = avg.toNat ∧
       Only s.m b [PW_POWER.AVG_W.key 0 0] [])) ∧
     (s.m.on PW_CAP.EN = true → st < 4 →
       (lim < avg.toNat → Runs (.capWindow avg) s (fun b => b.rd PW_STATUS.CAP_STEP = min 3 (st + 1) ∧ b.rd PW_STATUS.CAP_ACTIVE = 1 ∧
         b.rd PW_POWER.AVG_W = avg.toNat ∧ b.pw.limit = s.m.rd PW_CAP.LIMIT_W ∧
         b.pw.capRuns = (if st = 3 then s.m.pw.capRuns + 1 else 0) ∧
         b.faultQ = s.m.faultQ ++ (if act = true then [] else [pwRec 13]) ++
           (if st = 3 ∧ s.m.pw.capRuns = 9 then [pwRec 14] else []) ∧
         RegsBut (PW_EVT_CNT.CAP_EVENTS.key 0 0 :: keys) s.m b ∧ b.mem = s.m.mem)) ∧
       (avg.toNat ≤ lim → 95 * lim ≤ avg.toNat * 100 → Runs (.capWindow avg) s (fun b => b.rd PW_STATUS.CAP_STEP = st ∧
         b.rd PW_STATUS.CAP_ACTIVE = s.m.rd PW_STATUS.CAP_ACTIVE ∧ b.faultQ = s.m.faultQ ∧ RegsBut keys s.m b)) ∧
       (avg.toNat * 100 < 95 * lim → Runs (.capWindow avg) s (fun b => b.rd PW_STATUS.CAP_STEP = st - 1 ∧
         b.rd PW_STATUS.CAP_ACTIVE = (if st ≤ 1 then 0 else s.m.rd PW_STATUS.CAP_ACTIVE) ∧ b.faultQ = s.m.faultQ ∧
         RegsBut keys s.m b))))) ∧
  (∀ (s : State) (mhz : BitVec 12), s.m.regQ = [] →
    (mhz.toNat < 500 → Runs (.pwClkWrite mhz) s (fun b => b.rd PW_STATUS.CFG_ERR = 1 ∧ Only s.m b [PW_STATUS.CFG_ERR.key 0 0] [])) ∧
    (500 ≤ mhz.toNat → Runs (.pwClkWrite mhz) s (fun b => b.rd PW_CLK.REQ_MHZ = mhz.toNat ∧
      b.rd PW_CLK.BASE_MHZ = s.m.rd PW_CLK.BASE_MHZ ∧ b.pw.base = some (min mhz.toNat Config.maxMhz / 25 * 25) ∧
      NSet.mem b.lc.held (PW_CLK.REQ_MHZ.key 0 0) = true ∧
      (mhz.toNat ≤ Config.maxMhz → RegsBut [PW_CLK.REQ_MHZ.key 0 0] s.m b) ∧
      (Config.maxMhz < mhz.toNat → b.rd PW_CLK.CLAMPED = 1 ∧ (s.m.rd LC_STATUS.RUN = 1 → Logged s.m b 4 mhz.toNat))))) ∧
  (∀ (a : Block) (r k : Nat), r < 32 →
    (k < a.stepOf r ↔ k < a.rd PW_STATUS.UV_STEP ∨ k < a.rd PW_STATUS.CAP_STEP ∨ k < a.rd PW_STATUS.COOL_STEP ∨
      k < bits (a.rd PW_STATUS.DIE_STEP) (2 * (r / 4)) 2)) ∧
  (∀ (a : Block) v, a.pw.base = some v → a.applyBase.rd PW_CLK.BASE_MHZ = v % 2 ^ 12 ∧ a.applyBase.pw.base = none)

/-- R580, R589 to R591: thermal and coolant conditions. DIE_STEP of a C-die rises with its temperature from TJ_WARN_C, by one
for each 3 °C up to 3, and falls by one at a time; THERM_WARN is 1 exactly while a die's step is above 0 or an N-die or stack
is at its warning level; a coolant condition raises COOL_STEP to 1, or to 3 for a flow below 1.0 L/min, and COOL_STEP is 0
again once none holds; each condition writes its record when it arises.
R68, R571, R581, R589, R591, R594: a rail fault or a temperature trip of a C-die isolates the die: one record of class 19 and
the module-fatal record of class 21 are written, boundaries stop, no tile of the die runs a step or has one, and its region
caches hold no line; a trip drives THERM_TRIP_N low. A die already isolated changes nothing. -/
def Obligations.Thermal : Prop :=
  (
   ∀ (s : State), s.m.regQ = [] →
  (let warn := fun (b : Block) => b.rd PW_STATUS.THERM_WARN = (if b.rd PW_STATUS.DIE_STEP ≠ 0 ∨ b.pw.hot ≠ [] then 1 else 0)
   let pins := fun (b : Block) => b.out = s.m.out ++ (if b.alert = s.m.alert then [] else [.pin pinAlert (!b.alert)])
   let keys := [PW_STATUS.DIE_STEP.key 0 0, PW_STATUS.THERM_WARN.key 0 0, PW_EVT_CNT.THERM_WARNS.key 0 0, PW_EVT_CNT.THROTTLES.key 0 0]
   let cool := [PW_STATUS.COOL_STEP.key 0 0, PW_STATUS.COOL_WARN.key 0 0, PW_EVT_CNT.THROTTLES.key 0 0]
   (∀ (die : Fin 8) (t : BitVec 8),
     (let st := s.m.dieStep die
      let lim := s.m.rd PW_CTRL.TJ_WARN_C
      let new := max st (if t.toNat < lim then 0 else min 3 (1 + (t.toNat - lim) / 3))
      Runs (.dieTempWarn die t) s (fun b => b.dieStep die = new ∧ (∀ d < 8, d ≠ die.val → b.dieStep d = s.m.dieStep d) ∧ warn b ∧ pins b ∧
        b.faultQ = s.m.faultQ ++ (if st = 0 ∧ 0 < new then [{ cls := 19, cause := 8, level := 3, unit := die.val }] else []) ∧
        RegsBut keys s.m b ∧ b.mem = s.m.mem) ∧
      (st = 0 → Runs (.dieStepRecover die) s (fun b => b = s.m)) ∧
      (st ≠ 0 → Runs (.dieStepRecover die) s (fun b => b.dieStep die = st - 1 ∧ (∀ d < 8, d ≠ die.val → b.dieStep d = s.m.dieStep d) ∧
        warn b ∧ pins b ∧ b.faultQ = s.m.faultQ ∧ RegsBut keys s.m b ∧ b.mem = s.m.mem)))) ∧
   (∀ (pt : Fin 2 ⊕ Fin 12) hot,
     (let k := pt.elim (fun n => n.val) (fun m => 16 + m.val)
      let unit := pt.elim (fun _ => 0) (fun m => 0x1000 + m.val)
      Runs (.stackOrNDieTempWarn pt hot) s (fun b => NSet.mem b.pw.hot k = hot ∧ (∀ j, j ≠ k → NSet.mem b.pw.hot j = NSet.mem s.m.pw.hot j) ∧
        warn b ∧ pins b ∧
        b.faultQ = s.m.faultQ ++ (if hot = true ∧ NSet.mem s.m.pw.hot k = false then [{ pwRec 8 with unit := unit }] else []) ∧
        RegsBut keys s.m b ∧ b.mem = s.m.mem))) ∧
   (∀ (c : Fin 3) holds, s.m.rd PW_STATUS.COOL_STEP < 4 →
     Runs (.coolantCondition c holds) s (fun b => NSet.mem b.pw.cool c = holds ∧
       (∀ j, j ≠ c.val → NSet.mem b.pw.cool j = NSet.mem s.m.pw.cool j) ∧
       b.rd PW_STATUS.COOL_STEP = (if holds = true then max (if c = 2 then 3 else 1) (s.m.rd PW_STATUS.COOL_STEP)
         else s.m.rd PW_STATUS.COOL_STEP) ∧
       b.rd PW_STATUS.COOL_WARN = (if b.pw.cool = [] then 0 else 1) ∧ pins b ∧
       b.faultQ = s.m.faultQ ++ (if holds = true ∧ NSet.mem s.m.pw.cool c = false then [pwRec (if c = 0 then 11 else 12)] else []) ∧
       RegsBut cool s.m b ∧ b.mem = s.m.mem)) ∧
   (s.m.pw.cool = [] → Runs .coolantRecover s (fun b => b.rd PW_STATUS.COOL_STEP = 0 ∧ pins b ∧ RegsBut cool s.m b ∧ b.mem = s.m.mem)) ∧
   (s.m.pw.cool ≠ [] → Runs .coolantRecover s (fun b => b = s.m)))
  ) ∧
  (
   ∀ (s : State) (die : Fin 8), s.m.regQ = [] →
  (let isolates := fun (cause aux0 aux1 : Nat) (b : Block) => NSet.mem b.isolated die = true ∧ b.tick.fatal = true ∧
     (∀ p < 576, p / 72 = die.val → (b.site p).run = none ∧ (b.site p).todo = [] ∧ (b.site p).queue = [] ∧ b.rd TL_STATUS.RUN p = 0) ∧
     (∀ p < 576, p / 72 ≠ die.val → (b.site p).run = (s.m.site p).run ∧ (b.site p).sreg = (s.m.site p).sreg) ∧
     (∀ x ∈ b.rc, x.region / 4 ≠ die.val) ∧ b.mem = s.m.mem ∧
     { cls := 19, cause := cause, level := 3, unit := die.val, aux0 := aux0, aux1 := aux1 } ∈ b.faultQ ∧
     { cls := 21, cause := 1, level := 3, severity := 3, unit := die.val } ∈ b.faultQ
   (NSet.mem s.m.isolated die = true → Runs (.cDieRailFault die) s (fun b => b = s.m) ∧ Runs (.thermDieTrip die) s (fun b => b = s.m)) ∧
   (NSet.mem s.m.isolated die = false → Runs (.cDieRailFault die) s (isolates 7 2 die) ∧
     Runs (.thermDieTrip die) s (fun b => isolates 9 0 0 b ∧ b.pw.trip = true)))
  )

/-- R604, R605 to R607, R610: commands of PW_RST_CMD. A request is refused with CFG_ERR while another is in progress, for a tile
not in service, a region that does not exist, sleeps already or (a wake) does not sleep, or a tick that has passed. Otherwise
BUSY is set; while boundaries come it waits for its tick; while none come it takes effect at once: a tile reset clears its
site and nothing of another, a region reset or sleep drops its cache and clears its sites, a wake clears a sleeping region,
each counted. The end of a request clears BUSY, and a woken region no longer sleeps. -/
def Obligations.ResetRequests : Prop := ∀ (s : State), s.m.regQ = [] →
  (let n := s.m.rd TK_COUNT.COUNT
   let at_ := s.m.rd PW_RST_AT.AT_TICK
   let when_ := if at_ = 0 then n + 1 else at_
   let sat := fun (f : Field) => min (s.m.rd f + 1) (2 ^ f.width - 1)
   let free := s.m.on PW_RST_STATUS.BUSY = false ∧ (at_ = 0 ∨ n + 1 ≤ at_)
   let keys := [PW_RST_CMD.OP.key 0 0, PW_RST_CMD.FLUSH.key 0 0, PW_RST_CMD.TARGET.key 0 0]
   let refused := fun (b : Block) => b.rd PW_RST_STATUS.CFG_ERR = 1 ∧ Only s.m b [PW_RST_STATUS.CFG_ERR.key 0 0] []
   let waits := fun (op target : Nat) (b : Block) => b.rd PW_RST_STATUS.BUSY = 1 ∧
     Only { s.m with rst := some { op := op, target := target, flush := false, at_ := when_, begun := false } } b
       (PW_RST_STATUS.BUSY.key 0 0 :: keys) []
   let begun := fun (op target : Nat) (b : Block) => b.rd PW_RST_STATUS.BUSY = 1 ∧
     ∃ r, b.rst = some r ∧ r.op = op ∧ r.target = target ∧ r.begun = true
   let clear := fun (b : Block) (p : Nat) => (b.site p).run = none ∧ (b.site p).todo = [] ∧ (b.site p).queue = [] ∧ (b.site p).imem = [] ∧
     (b.site p).tlb = [] ∧ (b.site p).bank0 = (s.m.site p).bank0 ∧ (b.site p).bank1 = (s.m.site p).bank1 ∧
     ∀ f ∈ allFields, f.cls = .t → f.blk.perTile = true → f ∉ resetWritten → ∀ j, b.rd f p j = f.resetAt p j
   let idle := fun (p : Nat) => (s.m.site p).run = none ∧ (s.m.site p).todo = [] ∧
     ((s.m.nextBank p).complete = true → (s.m.nextBank p).tick ≠ n)
   let ticks := s.m.on TK_CTRL.ENABLE = true
   (∀ t : BitVec 9,
     (let p := s.m.siteOf t.toNat
      let ok := free ∧ s.m.served t.toNat = true
      (¬ ok → Runs (.tileReset t) s refused) ∧
      (ok → ticks → Runs (.tileReset t) s (waits 0 t.toNat)) ∧
      (ok → ¬ ticks → bit (s.m.rd TL_MAP_STATUS.PENDING) (t.toNat / 16) = false → idle p → p < 576 → Runs (.tileReset t) s (fun b =>
        begun 0 t.toNat b ∧ clear b p ∧ (∀ q, q ≠ p → b.site q = s.m.site q) ∧
        (∀ key, domainOf key ≠ 16 + p → b.mem.loadB key = s.m.mem.loadB key) ∧
        b.rd PW_RST_REGION.LAST_TILE = t.toNat ∧ b.rd PW_RST_CNT.TILE = sat PW_RST_CNT.TILE ∧ b.faultQ = s.m.faultQ)))) ∧
   (∀ r : BitVec 9,
     (let here := r.toNat < 32
      let up := s.m.asleep r.toNat = false
      (¬ (free ∧ here ∧ up) → Runs (.regionReset r) s refused ∧ Runs (.regionSleep r) s refused) ∧
      (free → here → up → ticks → Runs (.regionReset r) s (waits 1 r.toNat) ∧ Runs (.regionSleep r) s (waits 2 r.toNat)) ∧
      (free → here → up → ¬ ticks → bit (s.m.rd TL_MAP_STATUS.PENDING) r.toNat = false →
        (∀ p, p / 18 = r.toNat → idle p) →
        (let done := fun (b : Block) => (∀ p, p / 18 = r.toNat → clear b p) ∧ (∀ x ∈ b.rc, x.region ≠ r.toNat) ∧
           b.rd RC_STATUS.LOCK_LOST r.toNat = 1 ∧ bit (b.rd PW_RST_REGION.RESET) r.toNat = true ∧
           b.rd PW_RST_CNT.REGION = sat PW_RST_CNT.REGION
         Runs (.regionReset r) s (fun b => begun 1 r.toNat b ∧ done b ∧ b.asleep r.toNat = false) ∧
         Runs (.regionSleep r) s (fun b => begun 2 r.toNat b ∧ done b ∧ b.asleep r.toNat = true))) ∧
      (¬ (free ∧ here) ∨ up → Runs (.regionWake r) s refused) ∧
      (free → here → ¬ up → Runs (.regionWake r) s (fun b => begun 3 r.toNat b ∧ (∀ p, p / 18 = r.toNat → clear b p) ∧
        b.asleep r.toNat = true ∧ b.rd PW_RST_CNT.REGION = sat PW_RST_CNT.REGION)))) ∧
   (∀ flush,
     (¬ free → Runs (.moduleResetCmd flush) s refused) ∧
     (free → ticks → Runs (.moduleResetCmd flush) s (fun b => b.rd PW_RST_STATUS.BUSY = 1 ∧
       Only { s.m with mrst := { s.m.mrst with pending := some (when_, flush) } } b (PW_RST_STATUS.BUSY.key 0 0 :: keys) [])) ∧
     (free → ¬ ticks → s.m.pw.switch = true → s.m.mrst.on = false → Runs (.moduleResetCmd flush) s (fun b => Cleared b ∧
       b.mrst.on = true ∧ NSet.mem b.mrst.causes 8 = true ∧ bit (b.rd PW_RST_CAUSE.CAUSE) 7 = true))) ∧
   (s.m.rst = none → Runs .resetReady s (fun b => b = s.m)) ∧
   (∀ r, s.m.rst = some r →
     (r.begun = false → Runs .resetReady s (fun b => b = s.m)) ∧
     (r.begun = true → s.m.heldQ = [] → r.target < 32 ∨ r.op ≠ 3 → Runs .resetReady s (fun b =>
       b.rd PW_RST_STATUS.BUSY = 0 ∧ (r.op = 3 → b.asleep r.target = false) ∧
       Only { s.m with rst := none } b [PW_RST_STATUS.BUSY.key 0 0, PW_RST_STATUS.SLEEPING.key 0 0] []))))

/-- R595 to R597, R601, R602, R610, R631: module resets. A cause that arises while the module runs starts one: the cause's bit and
LAST, the tick and the count are written, every block stops and clears, and the contents of HBM and peat stay where no map
changes. A cause that arises in a reset is added to it and clears nothing. With the main rails off there is no reset. The
release starts the firmware and the control cores, where nothing holds the reset. -/
def Obligations.ModuleResets : Prop := ∀ (s : State), s.m.regQ = [] →
  (let begins := fun (c : Nat) (b : Block) => Cleared b ∧ b.mrst.on = true ∧ b.mrst.causes = [c] ∧
     bit (b.rd PW_RST_CAUSE.CAUSE) (c - 1) = true ∧ b.rd PW_RST_CAUSE.LAST = c ∧
     b.rd PW_RST_TICK.TICK = s.m.rd TK_COUNT.COUNT % 2 ^ 64 ∧
     b.rd PW_RST_CNT.MODULE = min (s.m.rd PW_RST_CNT.MODULE + 1) (2 ^ PW_RST_CNT.MODULE.width - 1) ∧
     (∀ f ∈ allFields, f.cls = .l → ∀ i j, b.rd f i j = s.m.rd f i j) ∧ b.pw = s.m.pw ∧
     (MapsKept s.m → ∀ key, domainOf key < 13 → b.mem.loadB key = s.m.mem.loadB key)
   let joins := fun (c : Nat) (b : Block) => NSet.mem b.mrst.causes c = true ∧ bit (b.rd PW_RST_CAUSE.CAUSE) (c - 1) = true ∧
     b.rd PW_RST_CAUSE.LAST ≤ c ∧
     Only { s.m with mrst := b.mrst } b [PW_RST_CAUSE.CAUSE.key 0 0, PW_RST_CAUSE.LAST.key 0 0] []
   let same := fun (b : Block) => b = s.m
   (s.m.pw.switch = false → Runs .resetPin s same) ∧
   (s.m.pw.switch = true → s.m.mrst.on = false → Runs .resetPin s (begins 6)) ∧
   (s.m.pw.switch = true → s.m.mrst.on = true → Runs .resetPin s (joins 6)) ∧
   (∀ code : BitVec 4,
     (s.m.pw.switch = false ∨ code.toNat < 3 ∨ 8 < code.toNat → Runs (.moduleReset code) s same) ∧
     (s.m.pw.switch = true → 3 ≤ code.toNat → code.toNat ≤ 8 →
       (s.m.mrst.on = false → Runs (.moduleReset code) s (begins code.toNat)) ∧
       (s.m.mrst.on = true → Runs (.moduleReset code) s (joins code.toNat)))) ∧
   (∀ fails : BitVec 4,
     (let stage := s.m.rd SN_BRINGUP.STAGE
      let holds := s.m.mrst.on = false ∨ s.m.pw.switch = false ∨ s.m.pw.latched = true ∨ s.m.on SN_TAP.EN = true ∨
        (1 ≤ stage ∧ stage ≤ 7) ∨ NSet.mem s.m.mrst.causes 1 = true ∨ NSet.mem s.m.mrst.causes 2 = true
      (holds → Runs (.moduleResetRelease fails) s same) ∧
      (¬ holds → s.m.lc.alarmed = false → Runs (.moduleResetRelease fails) s (fun b => b.mrst.on = false ∧ b.mrst.causes = [] ∧
        b.lc.acts = [] ∧ b.rd LC_FW_STATUS.PENDING = 0 ∧
        b.out = s.m.out ++ (List.range 8).map (fun h => Out.irq h 4) ∧ b.mem = s.m.mem ∧
        (s.m.lc.acts = [] → ∀ c < 4, (let failed := bit fails.toNat c
          let third := failed = true ∧ 2 ≤ SMap.get 0 s.m.lc.bad c
          SMap.get 0 b.lc.bad c = (if failed = true ∧ ¬ third then SMap.get 0 s.m.lc.bad c + 1 else 0) ∧
          b.slotOn c = (if third then 1 - s.m.slotOn c else s.m.slotOn c))))))))

/-- R598, R615 to R617, R620, R630, R640: Lichen's store, sensors and restarts. A commit puts every class L field into the store
as it stands, unless the store is degraded; a store write that fails degrades it, logged and recorded. A valid reading is
kept, and ends the count of invalid ones; the tenth invalid poll in a row reports the sensor lost, and a reading after that
reports it back. A restart ends with Lichen running, its writes committed and the event logged. -/
def Obligations.LichenStoreAndSensors : Prop := ∀ (s : State), s.m.regQ = [] →
  (let run := s.m.rd LC_STATUS.RUN
   let bad := s.m.on LC_STATUS.STORE_DEGRADED = true
   let same := fun (b : Block) => b = s.m
   let stored := fun (b : Block) => b.lc.held = [] ∧ ∀ f ∈ allFields, f.cls = .l → ∀ i < 2 ^ 20, ∀ j < 2 ^ 20,
     SMap.get (f.resetAt i j) b.lc.store (f.key i j) = b.rd f i j
   let recorded := fun (cause arg : Nat) (b : Block) => b.faultQ = s.m.faultQ ++
     [{ cls := 20, cause := cause, level := 4, aux0 := b.rd LC_STATUS.LOG_SEQ, aux1 := arg }]
   (run ≠ 1 ∨ bad → Runs .lichenCommit s same) ∧
   (run = 1 → ¬ bad → Runs .lichenCommit s (fun b => stored b ∧ b.regs = s.m.regs ∧ b.mem = s.m.mem)) ∧
   (bad → Runs .storeWriteFail s same) ∧
   (¬ bad → Runs .storeWriteFail s (fun b => b.rd LC_STATUS.STORE_DEGRADED = 1 ∧
     (run = 1 → Logged s.m b 16 0 ∧ recorded 9 0 b) ∧ (run ≠ 1 → ∃ e, b.lc.owed = s.m.lc.owed ++ [(e, 9)] ∧ e.code = 16) ∧
     RegsBut (LC_STATUS.STORE_DEGRADED.key 0 0 :: logKeys) s.m b)) ∧
   (∀ k : BitVec 16,
     (let polls := SMap.get 0 s.m.lc.polls k.toNat
      (isSensor k.toNat = false ∨ run ≠ 1 → ∀ v, Runs (.sensorPoll k v) s same) ∧
      (isSensor k.toNat = true → run = 1 →
        (∀ v : W32, Runs (.sensorPoll k (some v)) s (fun b => SMap.get 0 b.lc.polls k.toNat = 0 ∧
          SMap.get 0 b.lc.reading k.toNat = v.toNat + 1 ∧ (polls < 10 → b.regs = s.m.regs ∧ b.faultQ = s.m.faultQ) ∧
          (10 ≤ polls → Logged s.m b 15 (k.toNat + 2 ^ 16) ∧ recorded 11 (k.toNat + 2 ^ 16) b))) ∧
        (10 ≤ polls → Runs (.pldmSensorRead (.numeric k)) s (fun b => b = { s.m with out := s.m.out ++ [.reply 7 17 [1, k.toNat]] })) ∧
        Runs (.sensorPoll k none) s (fun b => SMap.get 0 b.lc.polls k.toNat = min 10 (polls + 1) ∧
          b.lc.reading = s.m.lc.reading ∧ (polls ≠ 9 → b.regs = s.m.regs ∧ b.faultQ = s.m.faultQ) ∧
          (polls = 9 → Logged s.m b 15 k.toNat ∧ recorded 11 k.toNat b))))) ∧
   (run = 0 ∨ 2 < run → Runs .lichenRestart s same) ∧
   (run = 1 ∨ run = 2 → s.m.lc.owed = [] → s.m.fwBegun 0 = false → Runs .lichenRestart s (fun b => b.rd LC_STATUS.RUN = 1 ∧
     Logged s.m b 17 (if run = 2 then s.m.lc.why else 2) ∧ (¬ bad → b.lc.held = []) ∧
     RegsBut (LC_STATUS.RUN.key 0 0 :: logKeys) s.m b ∧ b.mem = s.m.mem)))

/-- R627 to R630, R635: activations. A request is accepted for a component whose inactive slot holds a verified image, at least
two ticks ahead but for Lichen's own image and the control firmware, with none pending for it and the vault unlocked, a
revert only to the image active before the last activation; it is then pending, at its tick or (where the interface version
changes, and always for the last component) at the next module reset; otherwise it is refused with CFG_ERR. READY commits a
begun activation: the other slot is active, counted and logged. A timeout takes it back: the slot stays, counted and logged,
and the runtime's cores are interrupted again. (A watched value that Bracken reads as it runs again has statements of its own.)
R626, R633, R635: a PLDM firmware transfer. While the vault is locked it is refused. An image whose signatures verify (with
the operator's where the fuse asks for it) makes the inactive slot valid, one that fails leaves it invalid; the version is
the image's, the active slot and its validity stay. A pack that verifies is the one in use, one that fails changes no
memory. Each outcome is logged. -/
def Obligations.Firmware : Prop :=
  (
   ∀ (s : State), s.m.regQ = [] →
  (let n := s.m.rd TK_COUNT.COUNT
   let same := fun (b : Block) => b = s.m
   let other := fun (c : Nat) => 1 - s.m.slotOn c
   let sat := fun (f : Field) => min (s.m.rd f + 1) (2 ^ f.width - 1)
   let ok := fun (c : Nat) (revert : Bool) (at_ : Nat) => bit (s.m.rd LC_FW_STATUS.SLOT_VALID) (2 * c + other c) = true ∧
     (c = 0 ∨ c = 3 ∨ n + 2 ≤ at_) ∧ (∀ a ∈ s.m.lc.acts, a.comp ≠ c) ∧ s.m.on SV_STATUS.LOCKED = false ∧
     (revert = true → SMap.get 0 s.m.lc.before c = other c + 1)
   let waits := fun (c : Nat) => c = 3 ∨ ((c = 1 ∨ c = 2) ∧ s.m.fwIface c 0 ≠ s.m.fwIface c 1)
   let accepted := fun (c : Nat) (revert : Bool) (at_ : Nat) (b : Block) =>
     bit (b.rd LC_FW_STATUS.PENDING) c = true ∧ b.slotOn c = s.m.slotOn c ∧
     ∃ a, b.lc.acts = s.m.lc.acts ++ [a] ∧ a.comp = c ∧ a.revert = revert ∧ a.begun = none ∧
       (waits c → a.at_ = none) ∧ (¬ waits c → a.at_ = some at_)
   let cmd := fun (c : BitVec 2) (revert : Bool) => if revert then Instr.fwRevert c else Instr.fwActivate c
   let keys := [LC_FW_CTRL.COMP.key 0 0, LC_FW_CTRL.OP.key 0 0]
   (∀ (c : BitVec 2) revert,
     (let at_ := s.m.rd LC_FW_AT.AT_TICK
      (¬ ok c.toNat revert at_ → Runs (cmd c revert) s (fun b => b.rd LC_FW_STATUS.CFG_ERR = 1 ∧
        Only s.m b (LC_FW_STATUS.CFG_ERR.key 0 0 :: keys) [])) ∧
      (ok c.toNat revert at_ → c ≠ 0 ∨ n < at_ → Runs (cmd c revert) s (fun b => accepted c.toNat revert at_ b ∧
        RegsBut (LC_FW_STATUS.PENDING.key 0 0 :: keys) s.m b ∧ b.mem = s.m.mem)) ∧
      (ok c.toNat revert at_ → c = 0 → at_ ≤ n → Runs (cmd c revert) s (fun b => b.rd LC_STATUS.RUN = 2 ∧ b.lc.why = 0 ∧
        b.fwBegun 0 = true ∧ bit (b.rd LC_FW_STATUS.PENDING) 0 = true)))) ∧
   (∀ c : Fin 4,
     (s.m.rd LC_STATUS.RUN ≠ 1 → Runs (.activateFirmware c) s same) ∧
     (s.m.rd LC_STATUS.RUN = 1 →
       (¬ ok c false (n + 4) → Runs (.activateFirmware c) s (fun b => b.rd LC_FW_STATUS.CFG_ERR = 1 ∧
         Only { s.m with out := s.m.out ++ [.reply 7 26 [1]] } b [LC_FW_STATUS.CFG_ERR.key 0 0] [])) ∧
       (ok c false (n + 4) → Runs (.activateFirmware c) s (fun b => accepted c false (n + 4) b ∧
         b.out = s.m.out ++ [.reply 7 26 [0]] ∧ RegsBut [LC_FW_STATUS.PENDING.key 0 0] s.m b)))) ∧
   (s.m.fwBegun 1 = false → Runs .fwReadyBracken s same ∧ Runs .brackenReadyTimeout s same) ∧
   (s.m.fwBegun 2 = false → Runs .fwReadyRt s same ∧ Runs .runtimeReadyTimeout s same) ∧
   (let ends := fun (c : Nat) (b : Block) => (∀ a ∈ b.lc.acts, a.comp ≠ c) ∧ bit (b.rd LC_FW_STATUS.PENDING) c = false
    let commits := fun (c : Nat) (b : Block) => ends c b ∧ b.slotOn c = other c ∧ SMap.get 0 b.lc.before c = s.m.slotOn c + 1 ∧
      b.rd LC_FW_STATUS.ACTIVATIONS = sat LC_FW_STATUS.ACTIVATIONS ∧ b.out = s.m.out ∧
      (s.m.rd LC_STATUS.RUN = 1 → Logged s.m b 7 (s.m.fwArg c (other c)))
    let reverts := fun (c : Nat) (b : Block) => ends c b ∧ b.slotOn c = s.m.slotOn c ∧
      b.rd LC_FW_STATUS.REVERTS = sat LC_FW_STATUS.REVERTS ∧
      (s.m.rd LC_STATUS.RUN = 1 → Logged s.m b 8 (s.m.fwArg c (other c)))
    (s.m.fwBegun 1 = true → s.m.bk.watches = [] → Runs .fwReadyBracken s (commits 1) ∧
      Runs .brackenReadyTimeout s (fun b => reverts 1 b ∧ b.out = s.m.out)) ∧
    (s.m.fwBegun 2 = true → Runs .fwReadyRt s (commits 2) ∧ Runs .runtimeReadyTimeout s (fun b => reverts 2 b ∧
      b.out = s.m.out ++ (List.range 8).map (fun h => Out.irq h 3)))))
  ) ∧
  (
   ∀ (s : State), s.m.regQ = [] →
  (let reply := fun (e : Nat) => s.m.out ++ [Out.reply 7 21 [e]]
   let good := fun (sig cosig : Bool) => sig = true ∧ (s.m.on LC_INV1.FUSE_COSIGN = true → cosig = true)
   let unlocked := s.m.rd LC_STATUS.RUN = 1 ∧ s.m.on SV_STATUS.LOCKED = false
   (∀ x, (s.m.rd LC_STATUS.RUN ≠ 1 → Runs (.pldmFirmwareTransfer x) s (fun b => b = s.m)) ∧
     (s.m.rd LC_STATUS.RUN = 1 → s.m.on SV_STATUS.LOCKED = true → Runs (.pldmFirmwareTransfer x) s (fun b =>
       b = { s.m with out := reply 1 }))) ∧
   (∀ (c : Fin 4) (ver iface : BitVec 32) sig cosig, unlocked →
     (let o := 1 - s.m.slotOn c
      let arrives := fun (b : Block) => b.fwVer c o = ver.toNat ∧ b.fwIface c o = iface.toNat ∧ b.slotOn c = s.m.slotOn c ∧
        b.slotOk c (s.m.slotOn c) = s.m.slotOk c (s.m.slotOn c) ∧ b.fwVer c (s.m.slotOn c) = s.m.fwVer c (s.m.slotOn c) ∧
        b.mem = s.m.mem ∧ b.lc.acts = s.m.lc.acts
      (good sig cosig → Runs (.pldmFirmwareTransfer (.image c ver iface sig cosig)) s (fun b => arrives b ∧ b.slotOk c o = true ∧
        b.out = reply 0 ∧ Logged s.m b 6 (c + o * 2 ^ 3 + ver.toNat * 2 ^ 32))) ∧
      (¬ good sig cosig → Runs (.pldmFirmwareTransfer (.image c ver iface sig cosig)) s (fun b => arrives b ∧
        b.slotOk c o = false ∧ b.out = reply 1 ∧ Logged s.m b 9 (c + o * 2 ^ 3 + ver.toNat * 2 ^ 32))))) ∧
   (∀ (at_ : BitVec 40) (w : W64) rest places sig cosig, unlocked →
     (let x := FwItem.pack at_ (w :: rest) places sig cosig
      let id := w.toNat % 2 ^ 32
      (¬ good sig cosig → Runs (.pldmFirmwareTransfer x) s (fun b => b.mem = s.m.mem ∧ b.lc.pack = s.m.lc.pack ∧
        b.out = reply 1 ∧ Logged s.m b 9 (4 + id * 2 ^ 32) ∧ RegsBut logKeys s.m b)) ∧
      (good sig cosig → s.m.rc = [] → places = [] → at_.toNat * 2 ^ 6 + 64 ≤ 12 * 2 ^ 36 → Runs (.pldmFirmwareTransfer x) s (fun b =>
        b.lc.pack = id + 1 ∧ b.rd FLT_TP_BASE.BASE = at_.toNat % 2 ^ FLT_TP_BASE.BASE.width ∧ Logged s.m b 10 id)))))
  )

/-- R634 to R639, R644: the vault. Sources that become active raise alarms, as does the test trigger: each is latched and
counted, the first one with its tick, each with its class 20 record, and the strongest policy of them acts: LOCK locks the
vault and the identity key and cancels activations that have not begun; ERASE also ends every session, association, window and
queue pair, and erases the identity key where the fuse says so. A source that stays active raises nothing, and its latch
stays set when it is written with 1. Re-attestation that succeeds with
no source active unlocks, and brings the identity key back unless it is erased; one that fails changes neither. (The
dead-letter ring, which failed requests write to, lies in HBM.) -/
def Obligations.Vault : Prop := ∀ (s : State), s.m.regQ = [] →
  (let latch := s.m.rd SV_ALARM.LATCH
   let key := s.m.rd SV_STATUS.ID_KEY
   let run := s.m.rd LC_STATUS.RUN
   let ring := s.m.rd BK_DL.BASE * 2 ^ 12 + 64 * 2 ^ (s.m.rd BK_DL.LOG2_SIZE + 6) ≤ 12 * 2 ^ 36
   let alarms := fun (ss : List Nat) (b : Block) =>
     (let p := (ss.map s.m.policyOf).foldl max 0
      (∀ k < 6, bit (b.rd SV_ALARM.LATCH) k = (bit latch k || ss.contains k)) ∧
      b.rd SV_CNT.ALARMS = min (s.m.rd SV_CNT.ALARMS + ss.length) (2 ^ 16 - 1) ∧
      (latch = 0 → some (b.rd SV_ALARM.FIRST) = ss.head? ∧ b.rd SV_ALARM_TICK.TICK = s.m.rd TK_COUNT.COUNT % 2 ^ 64) ∧
      (latch ≠ 0 → b.rd SV_ALARM.FIRST = s.m.rd SV_ALARM.FIRST ∧ b.rd SV_ALARM_TICK.TICK = s.m.rd SV_ALARM_TICK.TICK) ∧
      (run = 1 → ∀ k ∈ ss, ∃ r ∈ b.faultQ, r.cls = 20 ∧ r.cause = 1 ∧ r.aux1 = k + p * 2 ^ 3) ∧
      (p = 0 → b.rd SV_STATUS.LOCKED = s.m.rd SV_STATUS.LOCKED ∧ b.rd SV_STATUS.ID_KEY = key ∧ b.lc.acts = s.m.lc.acts) ∧
      (1 ≤ p → b.rd SV_STATUS.LOCKED = 1 ∧ ∀ a ∈ b.lc.acts, a.begun.isSome = true) ∧
      (p = 1 → b.rd SV_STATUS.ID_KEY = (if key = 2 then 2 else 1) ∧ b.lc.sess = s.m.lc.sess ∧ b.qps = s.m.qps ∧ b.wins = s.m.wins) ∧
      (2 ≤ p → b.rd SV_STATUS.ID_KEY = (if key = 2 ∨ s.m.on LC_INV1.FUSE_ERASE = true then 2 else 1) ∧ b.lc.sess = [] ∧
        b.lc.hands = [] ∧ b.qps = [] ∧ b.wins = [] ∧ b.ports.assocs = []))
   (∀ active : BitVec 5,
     (let new := (List.range 5).filter (fun k => bit active.toNat k && !bit (s.m.rd SV_STATUS.ACTIVE) k)
      (new = [] → Runs (.tamperAlarm active) s (fun b => b.rd SV_STATUS.ACTIVE = active.toNat ∧
        Only s.m b [SV_STATUS.ACTIVE.key 0 0] [])) ∧
      (new ≠ [] → ring → Runs (.tamperAlarm active) s (fun b => b.rd SV_STATUS.ACTIVE = active.toNat ∧ alarms new b)))) ∧
   (ring → Runs .svTestTrigger s (alarms [5])) ∧
   (∀ (lichen : Bool) (ctx : BitVec 12) (v : W64), Runs (.registerWrite lichen ctx 0x100002 v) s (fun b =>
     (∀ k < 6, bit (b.rd SV_ALARM.LATCH) k = (bit latch k && (!bit v.toNat k || bit (s.m.rd SV_STATUS.ACTIVE) k))) ∧
     Only s.m b [SV_ALARM.LATCH.key 0 0] [])) ∧
   (∀ fail : Option (Fin 4),
     (run = 0 → Runs (.reattest fail) s (fun b => b = s.m)) ∧
     (run = 1 ∨ run = 2 → (let good := fail = none ∧ s.m.rd SV_STATUS.ACTIVE = 0
       (good → Runs (.reattest fail) s (fun b => b.rd SV_STATUS.LOCKED = 0 ∧ b.rd SV_STATUS.ID_KEY = (if key = 2 then 2 else 0) ∧
         b.lc.attest = false ∧ b.lc.alarmed = false ∧ b.rd SV_ALARM.LATCH = latch)) ∧
       (¬ good → Runs (.reattest fail) s (fun b => b.rd SV_STATUS.LOCKED = s.m.rd SV_STATUS.LOCKED ∧ b.rd SV_STATUS.ID_KEY = key ∧
         b.lc.attest = false ∧ b.lc.alarmed = false ∧ ∃ r ∈ b.faultQ, r.cls = 20 ∧ r.cause = 10))))))

/-- R637: only Lichen writes SV_POLICY, and only inside a session: a write by another master, or outside one, is ignored; so is
one with a reserved value or one that lowers the policy of a latched source. Any other sets the six policies. -/
def Obligations.PolicyWrites : Prop := ∀ (s : State) (ctx : BitVec 12), s.m.regQ = [] →
  (let may := fun (v : Nat) => ∀ k < 6, bits v (2 * k) 2 ≤ 2 ∧
     (bit (s.m.rd SV_ALARM.LATCH) k = true → s.m.policyOf k ≤ bits v (2 * k) 2)
   let set := fun (v : Nat) (b : Block) => (∀ k < 6, b.policyOf k = bits v (2 * k) 2) ∧ b.mem = s.m.mem ∧ b.sites = s.m.sites ∧
     RegsBut ([SV_POLICY.P_LID_MESH, SV_POLICY.P_LID_REMOVE, SV_POLICY.P_VOLT, SV_POLICY.P_CLOCK, SV_POLICY.P_TEMP,
       SV_POLICY.P_TEST].map (fun f => f.key 0 0)) s.m b
   (∀ (lichen : Bool) (v : W64), lichen = false ∨ s.m.lc.sess = [] ∨ ¬ may v.toNat →
     Runs (.registerWrite lichen ctx 0x100000 v) s (fun b => b = s.m)) ∧
   (∀ v : W64, s.m.lc.sess ≠ [] → may v.toNat → Runs (.registerWrite true ctx 0x100000 v) s (set v.toNat)) ∧
   (∀ (sid : BitVec 16) (v : BitVec 12),
     (let run := s.m.rd LC_STATUS.RUN = 1
      let here := NSet.mem s.m.lc.sess sid.toNat = true
      (¬ run → Runs (.svPolicyWrite sid v) s (fun b => b = s.m)) ∧
      (run → ¬ (here ∧ may v.toNat) → Runs (.svPolicyWrite sid v) s (fun b => b = { s.m with out := s.m.out ++ [.reply 7 57 [1]] })) ∧
      (run → here → may v.toNat → Runs (.svPolicyWrite sid v) s (fun b => set v.toNat b ∧
        b.out = s.m.out ++ [.reply 7 57 [0]])))))

/-- R621, R622, R623, R630: MCTP control, PLDM base, sensors and the carrier links. A request is answered while Lichen runs and
not otherwise: a valid endpoint identifier is taken, 0 and 255 are not; the identifiers and types held are read back; a sensor
answers its last valid reading unless it is lost or has none; the dynamic address is taken; a solicitation is answered for
Lichen's own address alone. An answer changes nothing else. -/
def Obligations.ManagementRequests : Prop := ∀ (s : State), s.m.regQ = [] →
  (let run := s.m.rd LC_STATUS.RUN = 1
   let same := fun (b : Block) => b = s.m
   let answers := fun (iface cmd : Nat) (args : List Nat) (b : Block) => b = { s.m with out := s.m.out ++ [.reply iface cmd args] }
   let free := fun (iface cmd : Nat) (b : Block) => ∃ v, b = { s.m with out := s.m.out ++ [.reply iface cmd [0, v]], free := s.m.free + 1 }
   (¬ run → (∀ e, Runs (.setEndpointId e) s same) ∧ Runs .getEndpointId s same ∧ Runs .getMctpVersionSupport s same ∧
     Runs .getMessageTypeSupport s same ∧ (∀ c a, Runs (.pldmBaseCommand c a) s same) ∧ (∀ k, Runs (.pldmSensorRead k) s same) ∧
     (∀ a, Runs (.i3cDynamicAddress a) s same) ∧ ∀ t, Runs (.mgmtNeighbourSolicitation t) s same) ∧
   (run →
     (∀ e : BitVec 8, (e.toNat = 0 ∨ e.toNat = 255 → Runs (.setEndpointId e) s (answers 6 1 [1])) ∧
       (0 < e.toNat → e.toNat < 255 → Runs (.setEndpointId e) s (fun b => b = { s.m with
         lc := { s.m.lc with eid := e.toNat }, out := s.m.out ++ [.reply 6 1 [0, e.toNat]] }))) ∧
     Runs .getEndpointId s (answers 6 2 [0, s.m.lc.eid]) ∧ Runs .getMctpVersionSupport s (free 6 4) ∧
     Runs .getMessageTypeSupport s (answers 6 5 [0, 0, 1, 5, 6]) ∧
     (∀ a : BitVec 8, Runs (.pldmBaseCommand 1 a) s (fun b => b = { s.m with
         lc := { s.m.lc with tid := a.toNat }, out := s.m.out ++ [.reply 7 1 [0]] }) ∧
       Runs (.pldmBaseCommand 2 a) s (answers 7 2 [0, s.m.lc.tid]) ∧ Runs (.pldmBaseCommand 3 a) s (free 7 3) ∧
       Runs (.pldmBaseCommand 4 a) s (answers 7 4 [0, 0x25]) ∧ Runs (.pldmBaseCommand 5 a) s (free 7 5) ∧
       ∀ c : BitVec 8, c.toNat = 0 ∨ 5 < c.toNat → Runs (.pldmBaseCommand c a) s (answers 7 c.toNat [1])) ∧
     (∀ k : BitVec 16,
       (let v := SMap.get 0 s.m.lc.reading k.toNat
        let there := isSensor k.toNat = true ∧ v ≠ 0 ∧ SMap.get 0 s.m.lc.polls k.toNat < 10
        (there → Runs (.pldmSensorRead (.numeric k)) s (answers 7 17 [0, k.toNat, v - 1])) ∧
        (¬ there → Runs (.pldmSensorRead (.numeric k)) s (answers 7 17 [1, k.toNat])))) ∧
     Runs (.pldmSensorRead .idKey) s (answers 7 33 [0, 0, s.m.rd SV_STATUS.ID_KEY]) ∧
     Runs (.pldmSensorRead .alarms) s (answers 7 33 [0, 1, s.m.rd SV_ALARM.LATCH]) ∧
     (∀ c : Fin 4, Runs (.pldmSensorRead (.slot c)) s (answers 7 33 [0, 2 + c, s.m.slotOn c])) ∧
     (∀ a : BitVec 7, Runs (.i3cDynamicAddress a) s (fun b => b = { s.m with
       lc := { s.m.lc with dyn := a.toNat }, out := s.m.out ++ [.reply 9 0 [0, 0x10 + Config.slotId.toNat, a.toNat]] })) ∧
     Runs (.mgmtNeighbourSolicitation none) s same ∧
     (∀ t : BitVec 128, (t.toNat = s.m.linkLocal → Runs (.mgmtNeighbourSolicitation (some t)) s (answers 10 136 [0, t.toNat])) ∧
       (t.toNat ≠ s.m.linkLocal → Runs (.mgmtNeighbourSolicitation (some t)) s same)) ∧
     s.m.linkLocal / 2 ^ 64 = 0xFE80 * 2 ^ 48 ∧ s.m.linkLocal % 2 ^ 24 = (s.m.rd LC_INV1.MAC_BASE + 64) % 2 ^ 24 ∧
     s.m.linkLocal / 2 ^ 24 % 2 ^ 16 = 0xFFFE))

/-- R621, R624, R635: SPDM. Requests go in order: a version, capabilities, algorithms, and only then the others, which answer an
error before. Only slot 0 holds a certificate chain. Whatever needs a signature (a challenge, a signed measurement, a key
exchange) answers an error while the vault is locked or the identity key is not READY; an unsigned measurement does not. A key
exchange begins a handshake under a new session number, FINISH makes it a session where its MAC verifies, and END_SESSION ends
it. -/
def Obligations.SpdmRequests : Prop := ∀ (s : State), s.m.regQ = [] →
  (let run := s.m.rd LC_STATUS.RUN = 1
   let st := s.m.lc.spdm
   let signs := s.m.on SV_STATUS.LOCKED = false ∧ s.m.rd SV_STATUS.ID_KEY = 0
   let same := fun (b : Block) => b = s.m
   let answers := fun (lc : Lichen) (cmd : Nat) (args : List Nat) (b : Block) =>
     b = { s.m with lc := lc, out := s.m.out ++ [.reply 8 cmd args] }
   let err := fun (cmd : Nat) (b : Block) => b = { s.m with out := s.m.out ++ [.reply 8 cmd [1]] }
   let free := fun (lc : Lichen) (cmd : Nat) (b : Block) => ∃ v,
     b = { s.m with lc := lc, out := s.m.out ++ [.reply 8 cmd [0, v]], free := s.m.free + 1 }
   let lc := s.m.lc
   (¬ run → ∀ i ∈ [Instr.getVersion, .getCapabilities, .negotiateAlgorithms, .getDigests, .keyExchange], Runs i s same) ∧
   (¬ run → (∀ k, Runs (.getCertificate k) s same ∧ Runs (.challenge k) s same) ∧ (∀ k g, Runs (.getMeasurements k g) s same) ∧
     ∀ sid ok, Runs (.finish sid ok) s same ∧ Runs (.endSession sid) s same) ∧
   (run →
     Runs .getVersion s (answers { lc with spdm := 1, hands := [], sess := [] } 4 [0, 0x13]) ∧
     (st < 1 → Runs .getCapabilities s (err 97)) ∧
     (1 ≤ st → Runs .getCapabilities s (free { lc with spdm := max 2 st } 97)) ∧
     (st < 2 → Runs .negotiateAlgorithms s (err 99)) ∧
     (2 ≤ st → Runs .negotiateAlgorithms s (free { lc with spdm := 3 } 99)) ∧
     (st < 3 → Runs .getDigests s (err 1) ∧ Runs .keyExchange s (err 100) ∧ (∀ k, Runs (.getCertificate k) s (err 2) ∧
       Runs (.challenge k) s (err 3)) ∧ (∀ k g, Runs (.getMeasurements k g) s (err 96)) ∧
       ∀ sid ok, Runs (.finish sid ok) s (err 101) ∧ Runs (.endSession sid) s (err 108)) ∧
     (3 ≤ st →
       Runs .getDigests s (free lc 1) ∧ Runs (.getCertificate 0) s (free lc 2) ∧
       (∀ k : BitVec 4, k ≠ 0 → Runs (.getCertificate k) s (err 2) ∧ Runs (.challenge k) s (err 3)) ∧
       (¬ signs → Runs (.challenge 0) s (err 3) ∧ Runs .keyExchange s (err 100) ∧ ∀ k, Runs (.getMeasurements k true) s (err 96)) ∧
       (signs → Runs (.challenge 0) s (free lc 3) ∧
         (let sid := lc.nextSess % 2 ^ 16
          Runs .keyExchange s (fun b => answers b.lc 100 [0, sid] b ∧ NSet.mem b.lc.hands sid = true ∧ b.lc.sess = lc.sess))) ∧
       (∀ (k : BitVec 8) (g : Bool), (g = true → signs) →
         (∀ m, s.m.measured k.toNat = some m → Runs (.getMeasurements k g) s (answers lc 96 [0, k.toNat, Config.sha384 m])) ∧
         (s.m.measured k.toNat = none → Runs (.getMeasurements k g) s (err 96))) ∧
       (∀ sid : BitVec 16,
         (NSet.mem lc.hands sid.toNat = false → ∀ ok, Runs (.finish sid ok) s (err 101)) ∧
         (NSet.mem lc.hands sid.toNat = true →
           Runs (.finish sid true) s (fun b => answers b.lc 101 [0] b ∧ NSet.mem b.lc.sess sid.toNat = true ∧
             NSet.mem b.lc.hands sid.toNat = false) ∧
           Runs (.finish sid false) s (fun b => answers b.lc 101 [1] b ∧ b.lc.sess = lc.sess ∧ NSet.mem b.lc.hands sid.toNat = false)) ∧
         (NSet.mem lc.sess sid.toNat = false → Runs (.endSession sid) s (err 108)) ∧
         (NSet.mem lc.sess sid.toNat = true → Runs (.endSession sid) s (fun b => answers b.lc 108 [0] b ∧
           NSet.mem b.lc.sess sid.toNat = false ∧ ∀ k, k ≠ sid.toNat → NSet.mem b.lc.sess k = NSet.mem lc.sess k))) ∧
       (∀ k, (s.m.measured k).isSome = true ↔ 1 ≤ k ∧ k ≤ 7))))

/-- R595 to R598, R638, R639, R654: the input power. Its arrival starts Lichen, which takes the identity key's state from the key
store, logs the reset of cause POWER_ON and begins to attest; a lid found open or its mesh faulty raises its alarm. Its removal clears what it powers: class A
fields read their reset values, class L fields what the store holds, everything else is as a reset leaves it, the snapshot
is empty, the cause is POWER_ON, and Lichen keeps its store, its log and its key store alone. -/
def Obligations.InputPower : Prop := ∀ (s : State), s.m.regQ = [] →
  (s.m.pw.input = true → ∀ mesh lid, Runs (.inputPowerPresent mesh lid) s (fun b => b = s.m)) ∧
  (s.m.pw.input = false → s.m.lc.owed = [] → s.m.lc.held = [] →
    Runs (.inputPowerPresent false false) s (fun b => b.pw = { s.m.pw with input := true } ∧
      b.rd LC_STATUS.RUN = 2 ∧ b.rd SV_STATUS.ID_KEY = s.m.lc.idKey % 4 ∧ b.lc.attest = true ∧
      Logged s.m b 1 s.m.rstCause ∧
      RegsBut (LC_STATUS.RUN.key 0 0 :: SV_STATUS.ID_KEY.key 0 0 :: logKeys) s.m b ∧ b.mem = s.m.mem)) ∧
  (s.m.pw.input = false → ∀ mesh lid, Runs (.inputPowerPresent mesh lid) s (fun b => b.pw.input = true)) ∧
  (s.m.pw.input = false → Runs .powerRemoval s (fun b => b = s.m)) ∧
  (s.m.pw.input = true → Runs .powerRemoval s (fun b =>
    Cleared b ∧ b.pw.input = false ∧ b.pw.switch = false ∧ b.pw.good = false ∧ b.pw.pwrEn = s.m.pw.pwrEn ∧
    b.mrst = { on := true, causes := [1], pending := none, ended := [] } ∧ b.snap = Snap.empty ∧ b.tap = { ir := 1, bsr := 0 } ∧
    (∀ f ∈ allFields, f.cls = .a → ∀ i j, b.rd f i j = f.resetAt i j) ∧
    (∀ f ∈ allFields, f.cls = .l → ∀ i < 2 ^ 20, ∀ j < 2 ^ 20,
      b.rd f i j = SMap.get (f.resetAt i j) s.m.lc.store (f.key i j)) ∧
    b.lc.store = s.m.lc.store ∧ b.lc.held = s.m.lc.held ∧ b.lc.log = s.m.lc.log ∧ b.lc.idKey = s.m.lc.idKey ∧
    b.lc.sess = [] ∧ b.lc.acts = [] ∧
    (∀ key, domainOf key < 13 → b.mem.loadB key = b.mem.dflt key ∧ SMap.get 0 b.mem.seeds (domainOf key) ≠ 0)))

/-- R598, R602, R654 to R658: bring-up. The restore starts the parallel steps; each step ends once, zeroes what it tested, takes
the maps its findings give and moves STAGE to the lowest step not ended; a site with a bad row takes its repair, one with
anything else is DISABLED. With every step ended the release starts the firmware and the control cores. -/
def Obligations.BringUp : Prop := ∀ (s : State), s.m.regQ = [] →
  (let stage := s.m.rd SN_BRINGUP.STAGE
   let par := s.m.mrst.on = true ∧ 4 ≤ stage ∧ stage ≤ 6
   let ended := fun (k : Nat) => NSet.mem s.m.mrst.ended k = true
   let same := fun (b : Block) => b = s.m
   let zero := fun (dom : Nat) (b : Block) => ∀ key, domainOf key = dom → b.mem.loadB key = 0
   let kept := fun (p : Nat → Prop) (b : Block) => ∀ key, ¬ p (domainOf key) → b.mem.loadB key = s.m.mem.loadB key
   let ends := fun (k : Nat) (b : Block) => (∀ j, NSet.mem b.mrst.ended j = (NSet.mem s.m.mrst.ended j || j == k)) ∧
     b.rd SN_BRINGUP.STAGE = b.mrst.stage
   (s.m.mrst.on = true → stage ≠ 3 → Runs .restoreEnd s same) ∧
   (s.m.mrst.on = true → stage = 3 → Runs .restoreEnd s (fun b => b.rd SN_BRINGUP.STAGE = 4 ∧
     b.rd PW_CLK.BASE_MHZ = min (s.m.rd PW_CLK.REQ_MHZ) Config.maxMhz / 25 * 25 % 2 ^ 12 ∧
     b.rd TK_COUNT.COUNT = (if NSet.mem s.m.mrst.causes 1 = true then (s.m.rd FLT_AV_LAST.TICK + 1) % 2 ^ 64 else s.m.rd TK_COUNT.COUNT) ∧
     b.mem = s.m.mem)) ∧
   (s.m.mrst.on = false → s.m.rd MEM_STATUS.STATE 12 ≠ 0 → Runs .restoreEnd s same) ∧
   (s.m.mrst.on = false → s.m.rd MEM_STATUS.STATE 12 = 0 → Runs .restoreEnd s (fun b =>
     (∀ m < 12, b.rd MEM_STATUS.STATE m = (if s.m.chOut m > 4 then 3 else 1)) ∧ (∀ c < 4, b.rd MEM_STATUS.STATE (12 + c) = 1) ∧
     b.mem = s.m.mem)) ∧
   (∀ (m : Fin 12) noSpare rows (fail : BitVec 32),
     (¬ par ∨ ended m → Runs (.memoryBringupEnd m noSpare rows fail) s same) ∧
     (par → ¬ ended m → s.m.rd MEM_CHMAP.EFFECTIVE m < 2 ^ 32 → Runs (.memoryBringupEnd m noSpare rows fail) s (fun b => ends m b ∧ zero m b ∧ kept (· = m.val) b ∧
       b.rd MEM_CHMAP.EFFECTIVE m = b.rd MEM_CHMAP.PENDING m % 2 ^ 32 ∧
       (∀ c < 32, bit (b.rd MEM_CHMAP.PENDING m) c = (bit (s.m.rd MEM_CHMAP.PENDING m) c ||
         (bit fail.toNat c && !bit (s.m.rd MEM_CHMAP.EFFECTIVE m) c))) ∧
       b.rd MEM_STATUS.STATE m = (if b.chOut m > 4 then 3 else 1) ∧ (b.rd MEM_STATUS.STATE m = 3 → b.tick.fatal = true)))) ∧
   (∀ fail : BitVec 16,
     (¬ par ∨ ended 12 → Runs (.peatBringupEnd fail) s same) ∧
     (par → ¬ ended 12 → Runs (.peatBringupEnd fail) s (fun b => ends 12 b ∧ zero 12 b ∧ kept (· = 12) b ∧
       ∀ c < 4, b.rd MEM_STATUS.STATE (12 + c) = 1 ∧ b.rd MEM_PKGMAP.EFFECTIVE (12 + c) = b.rd MEM_PKGMAP.PENDING (12 + c) % 16 ∧
         ∀ k < 4, bit (b.rd MEM_PKGMAP.PENDING (12 + c)) k = (bit (s.m.rd MEM_PKGMAP.PENDING (12 + c)) k || bit fail.toNat (4 * c + k))))) ∧
   (¬ par ∨ ended 13 → ∀ found, Runs (.tileBringupEnd found) s same) ∧
   (par → ¬ ended 13 → (∀ found, Runs (.tileBringupEnd found) s (ends 13)) ∧
     Runs (.tileBringupEnd []) s (fun b => ends 13 b ∧ kept (fun d => 16 ≤ d) b ∧
       (∀ p < 576, s.m.rd TL_SITE.STATE 0 p ≤ 1 → zero (16 + p) b ∧ (b.site p).run = none ∧ (b.site p).imem = []) ∧
       ∀ l < 512, b.rd TL_LMAP.SITE 0 l = s.m.rd TL_LMAP.SITE 0 l) ∧
     (∀ (p : SiteIx) (q : Fin 65), q.val < 64 → s.m.rd TL_SITE.STATE 0 p ≤ 1 → Runs (.tileBringupEnd [(p, .row q)]) s (fun b => ends 13 b ∧
       b.rd TW_REPAIR.REQ_EN p = 1 ∧ b.rd TW_REPAIR.REQ_ROW p = q ∧ b.rd TW_REPAIR.EFF_EN p = 1 ∧ b.rd TW_REPAIR.EFF_ROW p = q ∧
       b.rd TL_SITE.STATE 0 p = s.m.rd TL_SITE.STATE 0 p)) ∧
     (∀ p : SiteIx, s.m.rd TL_SITE.STATE 0 p = 1 → Runs (.tileBringupEnd [(p, .other)]) s (fun b => ends 13 b ∧
       b.rd TL_SITE.STATE 0 p = 3 ∧ b.rd TL_SITE.CAUSE 0 p = 3))) ∧
   (¬ par ∨ ended 14 → Runs .cacheBringupEnd s same) ∧
   (par → ¬ ended 14 → Runs .cacheBringupEnd s (fun b => ends 14 b ∧ b.rc = [] ∧ b.sf = [] ∧ b.tags = [] ∧ b.mem = s.m.mem)) ∧
   (∀ (ms : BitVec 16) (fails : BitVec 4),
     (s.m.mrst.on = false ∨ stage ≠ 7 ∨ s.m.on SN_TAP.EN = true → Runs (.bringupRelease ms fails) s same) ∧
     (s.m.mrst.on = true → stage = 7 → s.m.on SN_TAP.EN = false → Runs (.bringupRelease ms fails) s (fun b =>
       b.mrst.on = false ∧ b.mrst.causes = [] ∧ b.rd SN_BRINGUP.STAGE = 8 ∧ b.rd SN_BRINGUP.DURATION_MS = ms.toNat ∧
       b.rd SN_BRINGUP.MODE_RAN = s.m.rd SN_BIST_CTRL.MODE % 2 ∧ b.out = s.m.out ++ (List.range 8).map (fun h => Out.irq h 4) ∧
       b.mem = s.m.mem))) ∧
   (∀ r : ModRst, (r.stage = 7 ↔ ∀ k < 15, NSet.mem r.ended k = true) ∧ 4 ≤ r.stage ∧ r.stage ≤ 7))

/-- R646 to R650: the snapshot. Every trigger pulses SNAP_OUT_N and is counted; it latches where its source is enabled, the
snapshot armed and no copy runs: every register as it reads, with the tick, the source and its argument, disarmed and with
the copy under way; otherwise it counts as missed. The input is ignored while masked. The end of the copy makes the snapshot
valid; arming is refused while it runs. On the manager SN_GRP_CMD.GO sends SNAP_AT to every member and takes it itself, unless
the tick has passed; elsewhere it has no effect but on TAG. -/
def Obligations.Snapshots : Prop := ∀ (s : State), s.m.regQ = [] →
  (let sat := fun (f : Field) => min (s.m.rd f + 1) (2 ^ f.width - 1)
   let busy := s.m.on SN_STATUS.COPY_BUSY = true
   let trigger := fun (src : Nat) (b : Block) => b.out = s.m.out ++ [.pin pinSnapOut false] ∧
     b.rd SN_CNT.TRIGGERS = sat SN_CNT.TRIGGERS ∧ b.mem = s.m.mem ∧ b.sites = s.m.sites ∧ b.faultQ = s.m.faultQ ∧
     (let latches := bit (s.m.rd SN_CTRL.SRC_EN) src = true ∧ s.m.on SN_CTRL.ARMED = true ∧ ¬ busy
      (¬ latches → b.rd SN_CNT.MISSED = sat SN_CNT.MISSED ∧ b.snap = s.m.snap ∧
        RegsBut [SN_CNT.TRIGGERS.key 0 0, SN_CNT.MISSED.key 0 0] s.m b) ∧
      (latches → b.rd SN_CNT.MISSED = s.m.rd SN_CNT.MISSED ∧ b.rd SN_STATUS.COPY_BUSY = 1 ∧ b.rd SN_STATUS.VALID = 0 ∧
        b.rd SN_CTRL.ARMED = 0 ∧ b.rd SN_STATUS.SOURCE = src ∧ b.rd SN_TICK.TICK = s.m.rd TK_COUNT.COUNT % 2 ^ 64 ∧ b.rd SN_INFO.ARG = 0 ∧
        b.snap.log = s.m.lc.log ∧ b.snap.tags = s.m.tags ∧
        ∀ f ∈ allFields, f ≠ SN_CNT.TRIGGERS → ∀ i j,
          (let got := SMap.get (f.resetAt i j) b.snap.regs (f.key i j)
           (s.m.shown f i = none → got = s.m.rd f i j) ∧
           (∀ v, s.m.shown f i = some v → i ∈ s.m.shownAt f → j = 0 → got = v % 2 ^ f.width))))
   Runs .snTrigGo s (trigger 0) ∧
   Runs (.snapIn true) s (fun b => b = s.m) ∧ Runs (.snapIn false) s (trigger 2) ∧
   (¬ busy → Runs .snapshotCopyEnd s (fun b => b = s.m)) ∧
   (busy → Runs .snapshotCopyEnd s (fun b => b.rd SN_STATUS.COPY_BUSY = 0 ∧ b.rd SN_STATUS.VALID = 1 ∧
     Only s.m b [SN_STATUS.COPY_BUSY.key 0 0, SN_STATUS.VALID.key 0 0] [])) ∧
   (busy → Runs .snapshotArm s (fun b => b.rd SN_STATUS.CFG_ERR = 1 ∧ Only s.m b [SN_STATUS.CFG_ERR.key 0 0] [])) ∧
   (¬ busy → Runs .snapshotArm s (fun b => b.rd SN_CTRL.ARMED = 1 ∧ Only s.m b [SN_CTRL.ARMED.key 0 0] [])) ∧
   (∀ tag : BitVec 16,
     (let mgr := s.m.on GRP_CTRL.ENABLE = true ∧ s.m.rd GRP_ROLE.ROLE = 3
      let at_ := s.m.rd SN_GRP_AT.AT_TICK
      let sent := (s.m.wr SN_GRP_CMD.TAG tag.toNat).grpAll 0x39 [at_, tag.toNat]
      (¬ mgr → Runs (.snGrpGo tag) s (fun b => b.rd SN_GRP_CMD.TAG = tag.toNat ∧ Only s.m b [SN_GRP_CMD.TAG.key 0 0] [])) ∧
      (mgr → sent.regQ = [] → s.m.rd TK_COUNT.COUNT < at_ → Runs (.snGrpGo tag) s (fun b => b.rd SN_GRP_CMD.PEND = 1 ∧
        b.rd SN_GRP_AT.AT_TICK = at_ % 2 ^ 64 ∧ b.rd SN_GRP_CMD.TAG = tag.toNat ∧
        Only sent b [SN_GRP_CMD.PEND.key 0 0, SN_GRP_AT.AT_TICK.key 0 0, SN_GRP_CMD.TAG.key 0 0] [])) ∧
      (mgr → sent.regQ = [] → at_ ≤ s.m.rd TK_COUNT.COUNT → Runs (.snGrpGo tag) s (fun b =>
        b.rd SN_STATUS.CFG_ERR = 1 ∧ Only sent b [SN_STATUS.CFG_ERR.key 0 0] [])))))

/-- R659, R660, R663: the test port. It answers while the standby domain has power: BYPASS, IDCODE with part number 0x7612,
SAMPLE/PRELOAD with the levels of the pins; EXTEST drives the connector outputs from the boundary-scan register, and the
network of scan chains is reached, only while SN_TAP.EN is 1. EN is set by a request in a session with the vault unlocked,
which holds the module in reset; clearing it sends the module through bring-up from stage 3. -/
def Obligations.TestPort : Prop := ∀ (s : State), s.m.regQ = [] →
  (let same := fun (b : Block) => b = s.m
   let en := s.m.on SN_TAP.EN = true
   let sel := fun (ir : Nat) (outs : List Out) (b : Block) =>
     b = { s.m with tap := { s.m.tap with ir := ir }, out := s.m.out ++ outs }
   (s.m.pw.input = false → Runs .bypass s same ∧ Runs .idcode s same ∧ (∀ x y, Runs (.samplePreload x y) s same) ∧
     Runs .extest s same ∧ Runs .instrNet s same) ∧
   (s.m.pw.input = true →
     Runs .bypass s (sel 0 []) ∧
     Runs .idcode s (fun b => ∃ v, sel 1 [.reply 11 1 [0, v]] b ∧ v / 2 ^ 12 % 2 ^ 16 = 0x7612 ∧ v % 2 = 1 ∧ v < 2 ^ 32) ∧
     (∀ x y : BitVec 17, Runs (.samplePreload x y) s (fun b => ∃ v, b = { s.m with
         tap := { ir := 2, bsr := y.toNat }, out := s.m.out ++ [.reply 11 2 [0, v]] } ∧
       bit v 0 = s.m.pw.pwrEn ∧ bit v 1 = s.m.pw.good ∧ bit v 2 = !s.m.alert ∧ bit v 3 = !s.m.pw.trip ∧
       bits v 5 6 = Config.slotId.toNat ∧ (∀ k < 17, k = 4 ∨ 11 ≤ k → bit v k = x.getLsbD k))) ∧
     (¬ en → Runs .extest s (sel 0 []) ∧ Runs .instrNet s (sel 0 [])) ∧
     (en → Runs .extest s (sel 3 [.pin pinGood (bit s.m.tap.bsr 1), .pin pinAlert (bit s.m.tap.bsr 2),
         .pin pinTherm (bit s.m.tap.bsr 3), .pin pinSnapOut (bit s.m.tap.bsr 12), .pin pinPps (bit s.m.tap.bsr 14)]) ∧
       Runs .instrNet s (sel 4 []))) ∧
   (∀ sid : BitVec 16,
     (let may := NSet.mem s.m.lc.sess sid.toNat = true ∧ s.m.on SV_STATUS.LOCKED = false
      (s.m.rd LC_STATUS.RUN ≠ 1 → Runs (.tapEnable sid) s same) ∧
      (s.m.rd LC_STATUS.RUN = 1 → ¬ may → Runs (.tapEnable sid) s (fun b => b = { s.m with out := s.m.out ++ [.reply 7 57 [1]] })) ∧
      (s.m.rd LC_STATUS.RUN = 1 → may → s.m.pw.switch = true → s.m.mrst.on = false → Runs (.tapEnable sid) s (fun b =>
        b.rd SN_TAP.EN = 1 ∧ Cleared b ∧ b.mrst.on = true ∧ b.mrst.causes = [7] ∧ ∃ o, b.out = o ++ [.reply 7 57 [0]])))) ∧
   (¬ en → Runs .tapDisable s same) ∧
   (en → Runs .tapDisable s (fun b => b.rd SN_TAP.EN = 0 ∧ b.mrst.ended = [] ∧
     (s.m.pw.good = true → s.m.mrst.on = true → b.rd SN_BRINGUP.STAGE = 3) ∧ b.mem = s.m.mem)))
end

