-- ==== Sys2Proof/Laws/SMap.lean ====
section
/-! SUPPORT. Laws/SMap.lean: sparse maps: a read after a write, and the canonical form that every write keeps. -/

namespace Sys2Proof.Machine

variable {α : Type}

@[simp] theorem SMap.get_nil (d : α) (k : Nat) : SMap.get d [] k = d := rfl

@[simp] theorem SMap.get_cons_self (d v : α) (m : SMap α) (k : Nat) : SMap.get d ((k, v) :: m) k = v := by
  simp [SMap.get]

theorem SMap.get_cons_ne (d v : α) (m : SMap α) {j k : Nat} (h : j ≠ k) :
    SMap.get d ((j, v) :: m) k = SMap.get d m k := by simp [SMap.get, h]

/-- A key that has been removed reads as unlisted. -/
@[simp] theorem SMap.get_erase_self (d : α) (m : SMap α) (k : Nat) : SMap.get d (SMap.erase m k) k = d := by
  induction m with
  | nil => rfl
  | cons c m ih =>
    obtain ⟨j, w⟩ := c
    by_cases h : j = k
    · simp [SMap.erase, h, ih]
    · simp [SMap.erase, SMap.get, h, ih]

/-- Removing a key leaves every other key as it reads. -/
theorem SMap.get_erase_ne (d : α) (m : SMap α) {j k : Nat} (h : j ≠ k) :
    SMap.get d (SMap.erase m j) k = SMap.get d m k := by
  induction m with
  | nil => rfl
  | cons c m ih =>
    obtain ⟨i, w⟩ := c
    by_cases h1 : i = j
    · subst h1; simp [SMap.erase, SMap.get, h, ih]
    · simp only [SMap.erase, h1, if_false, SMap.get, ih]

/-- What is inserted in order reads back where no earlier entry has its key. -/
theorem SMap.get_insert_self (d v : α) (m : SMap α) (k : Nat) (h : ∀ c ∈ m, c.1 ≠ k) :
    SMap.get d (SMap.insert k v m) k = v := by
  induction m with
  | nil => simp [SMap.insert]
  | cons c m ih =>
    obtain ⟨j, w⟩ := c
    have hj : j ≠ k := h (j, w) (by simp)
    by_cases h1 : k < j
    · simp [SMap.insert, h1]
    · simp only [SMap.insert, h1, if_false, SMap.get, hj]
      exact ih (fun c hc => h c (by simp [hc]))

/-- An insertion leaves every other key as it reads. -/
theorem SMap.get_insert_ne (d v : α) (m : SMap α) {j k : Nat} (h : j ≠ k) :
    SMap.get d (SMap.insert j v m) k = SMap.get d m k := by
  induction m with
  | nil => simp [SMap.insert, SMap.get, h]
  | cons c m ih =>
    obtain ⟨i, w⟩ := c
    by_cases h1 : j < i
    · simp [SMap.insert, h1, SMap.get, h]
    · simp only [SMap.insert, h1, if_false, SMap.get, ih]

theorem SMap.mem_erase {m : SMap α} {k : Nat} {c : Nat × α} (h : c ∈ SMap.erase m k) : c ∈ m ∧ c.1 ≠ k := by
  induction m with
  | nil => simp [SMap.erase] at h
  | cons e m ih =>
    obtain ⟨j, w⟩ := e
    by_cases h1 : j = k
    · simp only [SMap.erase, h1, if_true] at h
      exact ⟨by simp [(ih h).1], (ih h).2⟩
    · simp only [SMap.erase, h1, if_false, List.mem_cons] at h
      rcases h with rfl | h
      · exact ⟨by simp, h1⟩
      · exact ⟨by simp [(ih h).1], (ih h).2⟩

theorem SMap.mem_insert {m : SMap α} {k : Nat} {v : α} {c : Nat × α} (h : c ∈ SMap.insert k v m) : c = (k, v) ∨ c ∈ m := by
  induction m with
  | nil => simpa [SMap.insert] using h
  | cons e m ih =>
    obtain ⟨j, w⟩ := e
    by_cases h1 : k < j
    · simp only [SMap.insert, h1, if_true, List.mem_cons] at h
      rcases h with h | h | h <;> simp [h]
    · simp only [SMap.insert, h1, if_false, List.mem_cons] at h
      rcases h with h | h
      · simp [h]
      · rcases ih h with h | h <;> simp [h]

section
variable [DecidableEq α]

/-- A read after a write to the same key gives the value written. -/
@[simp] theorem SMap.get_set_self (d : α) (m : SMap α) (k : Nat) (v : α) : SMap.get d (SMap.set d m k v) k = v := by
  unfold SMap.set
  split
  · next h => simp [h]
  · exact SMap.get_insert_self d v _ k (fun c hc => (SMap.mem_erase hc).2)

/-- A write leaves every other key as it reads. -/
theorem SMap.get_set_ne (d e : α) (m : SMap α) {j k : Nat} (v : α) (h : j ≠ k) :
    SMap.get d (SMap.set e m j v) k = SMap.get d m k := by
  unfold SMap.set
  split
  · exact SMap.get_erase_ne d m h
  · rw [SMap.get_insert_ne d v _ h, SMap.get_erase_ne d m h]

end

/-! ### The canonical form -/

/-- Keys above a bound rise from a lower bound as well. -/
theorem SMap.rising_mono {m : SMap α} {l l' : Nat} (h : l' ≤ l) (hr : SMap.rising (some l) m = true) :
    SMap.rising (some l') m = true := by
  cases m with
  | nil => rfl
  | cons c m => obtain ⟨j, v⟩ := c; simp [SMap.rising] at *; exact ⟨by omega, hr.2⟩

theorem SMap.rising_none {m : SMap α} {l : Nat} (hr : SMap.rising (some l) m = true) : SMap.rising none m = true := by
  cases m with
  | nil => rfl
  | cons c m => obtain ⟨j, v⟩ := c; simp [SMap.rising] at *; exact hr.2

theorem SMap.rising_tail {m : SMap α} {lo : Option Nat} {j : Nat} {v : α} (h : SMap.rising lo ((j, v) :: m) = true) :
    SMap.rising (some j) m = true := by simp [SMap.rising] at h; exact h.2

/-- Every key of a map that rises from above `l` is above `l`. -/
theorem SMap.rising_above {m : SMap α} {l : Nat} (h : SMap.rising (some l) m = true) : ∀ c ∈ m, l < c.1 := by
  induction m generalizing l with
  | nil => simp
  | cons c m ih =>
    obtain ⟨j, v⟩ := c
    simp [SMap.rising] at h
    intro c hc
    rcases List.mem_cons.1 hc with rfl | hc
    · exact h.1
    · exact Nat.lt_trans h.1 (ih h.2 c hc)

theorem SMap.rising_cons {m : SMap α} {lo : Option Nat} {j : Nat} {v : α} (hlo : ∀ l, lo = some l → l < j)
    (h : SMap.rising (some j) m = true) : SMap.rising lo ((j, v) :: m) = true := by
  cases lo with
  | none => simpa [SMap.rising] using h
  | some l => simpa [SMap.rising, h] using hlo l rfl

theorem SMap.rising_erase {m : SMap α} {lo : Option Nat} (k : Nat) (h : SMap.rising lo m = true) :
    SMap.rising lo (SMap.erase m k) = true := by
  induction m generalizing lo with
  | nil => simpa [SMap.erase] using h
  | cons c m ih =>
    obtain ⟨j, v⟩ := c
    have ht := SMap.rising_tail h
    have hlo : ∀ l, lo = some l → l < j := by rintro l rfl; simp [SMap.rising] at h; exact h.1
    by_cases h1 : j = k
    · simp only [SMap.erase, h1, if_true]
      cases lo with
      | none => exact SMap.rising_none (ih ht)
      | some l => exact SMap.rising_mono (Nat.le_of_lt (hlo l rfl)) (ih ht)
    · simp only [SMap.erase, h1, if_false]
      exact SMap.rising_cons hlo (ih ht)

theorem SMap.rising_insert {m : SMap α} {lo : Option Nat} {k : Nat} (v : α) (h : SMap.rising lo m = true)
    (hk : ∀ c ∈ m, c.1 ≠ k) (hlo : ∀ l, lo = some l → l < k) : SMap.rising lo (SMap.insert k v m) = true := by
  induction m generalizing lo with
  | nil => exact SMap.rising_cons hlo rfl
  | cons c m ih =>
    obtain ⟨j, w⟩ := c
    have hj : j ≠ k := hk (j, w) (by simp)
    have ht := SMap.rising_tail h
    have hl : ∀ l, lo = some l → l < j := by rintro l rfl; simp [SMap.rising] at h; exact h.1
    by_cases h1 : k < j
    · simp only [SMap.insert, h1, if_true]
      exact SMap.rising_cons hlo (SMap.rising_cons (by rintro l ⟨⟩; exact h1) ht)
    · simp only [SMap.insert, h1, if_false]
      refine SMap.rising_cons hl (ih ht (fun c hc => hk c (by simp [hc])) ?_)
      rintro l ⟨⟩; omega

theorem SMap.rising_filter {m : SMap α} {lo : Option Nat} (p : Nat × α → Bool) (h : SMap.rising lo m = true) :
    SMap.rising lo (m.filter p) = true := by
  induction m generalizing lo with
  | nil => simpa using h
  | cons c m ih =>
    obtain ⟨j, v⟩ := c
    have ht := SMap.rising_tail h
    have hlo : ∀ l, lo = some l → l < j := by rintro l rfl; simp [SMap.rising] at h; exact h.1
    by_cases hp : p (j, v) = true
    · rw [List.filter_cons_of_pos hp]; exact SMap.rising_cons hlo (ih ht)
    · rw [List.filter_cons_of_neg hp]
      cases lo with
      | none => exact SMap.rising_none (ih ht)
      | some l => exact SMap.rising_mono (Nat.le_of_lt (hlo l rfl)) (ih ht)

variable [DecidableEq α]

theorem SMap.wf_iff (d : Nat → α) (m : SMap α) :
    SMap.wf d m = true ↔ SMap.rising none m = true ∧ ∀ c ∈ m, c.2 ≠ d c.1 := by
  simp [SMap.wf]

@[simp] theorem SMap.wf_nil (d : Nat → α) : SMap.wf d [] = true := rfl

/-- A write keeps the canonical form. -/
theorem SMap.wf_set {d : Nat → α} {m : SMap α} (h : SMap.wf d m = true) (k : Nat) (v : α) :
    SMap.wf d (SMap.set (d k) m k v) = true := by
  rw [SMap.wf_iff] at *
  unfold SMap.set
  split
  · exact ⟨SMap.rising_erase k h.1, fun c hc => h.2 c (SMap.mem_erase hc).1⟩
  · next hv =>
    refine ⟨SMap.rising_insert v (SMap.rising_erase k h.1) (fun c hc => (SMap.mem_erase hc).2) (by simp), fun c hc => ?_⟩
    rcases SMap.mem_insert hc with rfl | hc
    · exact hv
    · exact h.2 c (SMap.mem_erase hc).1

/-- Removing entries keeps the canonical form. -/
theorem SMap.wf_filter {d : Nat → α} {m : SMap α} (p : Nat × α → Bool) (h : SMap.wf d m = true) :
    SMap.wf d (m.filter p) = true := by
  rw [SMap.wf_iff] at *
  exact ⟨SMap.rising_filter p h.1, fun c hc => h.2 c (List.mem_of_mem_filter hc)⟩

/-- The canonical form depends only on what the listed keys read as unlisted. -/
theorem SMap.wf_congr {d e : Nat → α} {m : SMap α} (h : SMap.wf d m = true) (he : ∀ c ∈ m, d c.1 = e c.1) :
    SMap.wf e m = true := by
  rw [SMap.wf_iff] at *
  exact ⟨h.1, fun c hc => by rw [← he c hc]; exact h.2 c hc⟩

end Sys2Proof.Machine
end

