-- ==== Sys2Proof/Laws/Mem.lean ====
section
/-! SUPPORT. Laws/Mem.lean: bytes and words of memory: reads after writes, and the canonical form that every operation of
memory keeps. -/

namespace Sys2Proof.Machine

@[simp] theorem Mem.storeB_seeds (m : Mem) (k : Nat) (v : Byte) : (m.storeB k v).seeds = m.seeds := rfl
@[simp] theorem Mem.storeB_dev (m : Mem) (k : Nat) (v : Byte) : (m.storeB k v).dev = m.dev := rfl

/-- What an unlisted byte reads as depends on the seeds alone. -/
theorem Mem.dflt_congr {m n : Mem} (h : m.seeds = n.seeds) : m.dflt = n.dflt := by
  funext k; simp [Mem.dflt, h]

@[simp] theorem Mem.storeB_dflt (m : Mem) (k : Nat) (v : Byte) : (m.storeB k v).dflt = m.dflt := Mem.dflt_congr rfl

/-- A byte reads back what was written to it. -/
@[simp] theorem Mem.loadB_storeB_self (m : Mem) (k : Nat) (v : Byte) : (m.storeB k v).loadB k = v := by
  simp only [Mem.loadB, Mem.storeB_dflt]; simp [Mem.storeB]

/-- A write of one byte leaves every other byte as it reads. -/
theorem Mem.loadB_storeB_ne (m : Mem) {j k : Nat} (v : Byte) (h : j ≠ k) : (m.storeB j v).loadB k = m.loadB k := by
  simp only [Mem.loadB, Mem.storeB_dflt]; exact SMap.get_set_ne _ _ _ _ h

@[simp] theorem Mem.storeBs_seeds (m : Mem) (k : Nat) (bs : List Byte) : (m.storeBs k bs).seeds = m.seeds := by
  induction bs generalizing m k with
  | nil => rfl
  | cons v r ih => simp [Mem.storeBs, ih]

@[simp] theorem Mem.storeBs_dev (m : Mem) (k : Nat) (bs : List Byte) : (m.storeBs k bs).dev = m.dev := by
  induction bs generalizing m k with
  | nil => rfl
  | cons v r ih => simp [Mem.storeBs, ih]

/-- A write of several bytes leaves every byte outside them as it reads. -/
theorem Mem.loadB_storeBs_out (m : Mem) (k : Nat) (bs : List Byte) {j : Nat} (h : j < k ∨ k + bs.length ≤ j) :
    (m.storeBs k bs).loadB j = m.loadB j := by
  induction bs generalizing m k with
  | nil => rfl
  | cons v r ih =>
    simp only [List.length_cons] at h
    rw [Mem.storeBs, ih _ _ (by omega), Mem.loadB_storeB_ne _ _ (by omega)]

/-- The bytes written read back in their order. -/
theorem Mem.loadB_storeBs_in (m : Mem) (k : Nat) (bs : List Byte) (i : Nat) (h : i < bs.length) :
    (m.storeBs k bs).loadB (k + i) = bs[i] := by
  induction bs generalizing m k i with
  | nil => simp at h
  | cons v r ih =>
    cases i with
    | zero => simp only [Mem.storeBs, Nat.add_zero, List.getElem_cons_zero]
              rw [Mem.loadB_storeBs_out _ _ _ (by omega), Mem.loadB_storeB_self]
    | succ i =>
      have := ih (m.storeB k v) (k + 1) i (by simpa using h)
      simpa [Mem.storeBs, Nat.add_assoc, Nat.add_comm 1 i] using this

/-! ### The canonical form -/

theorem Mem.wf_iff (m : Mem) : m.wf = true ↔ SMap.wf m.dflt m.cells = true ∧ SMap.wf (fun _ => 0) m.dev = true := by
  simp [Mem.wf]

/-- A write of one byte keeps the canonical form. -/
theorem Mem.wf_storeB {m : Mem} (h : m.wf = true) (k : Nat) (v : Byte) : (m.storeB k v).wf = true := by
  rw [Mem.wf_iff] at *
  exact ⟨by rw [Mem.storeB_dflt]; exact SMap.wf_set h.1 k v, h.2⟩

theorem Mem.wf_storeBs {m : Mem} (h : m.wf = true) (k : Nat) (bs : List Byte) : (m.storeBs k bs).wf = true := by
  induction bs generalizing m k with
  | nil => exact h
  | cons v r ih => exact ih (Mem.wf_storeB h k v) (k + 1)

/-- The deviations alone. -/
theorem Mem.wf_dev {m : Mem} {d : SMap Nat} (h : m.wf = true) (hd : SMap.wf (fun _ => 0) d = true) :
    ({ m with dev := d } : Mem).wf = true := by
  rw [Mem.wf_iff] at *
  exact ⟨by rw [show Mem.dflt { m with dev := d } = m.dflt from Mem.dflt_congr rfl]; exact h.1, hd⟩

/-- A write of a word with its code keeps the canonical form. -/
theorem Mem.wf_setWord {m : Mem} (h : m.wf = true) (w : Nat) (v : Cw) : (m.setWord w v).wf = true :=
  Mem.wf_dev (Mem.wf_storeBs h _ _) (SMap.wf_set (d := fun _ => 0) ((Mem.wf_iff m).1 h).2 _ _)

/-- Making the content of a part undefined keeps the canonical form. -/
theorem Mem.wf_undef {m : Mem} (h : m.wf = true) (dom seed : Nat) : (m.undef dom seed).wf = true := by
  rw [Mem.wf_iff] at *
  refine ⟨SMap.wf_congr (SMap.wf_filter _ h.1) (fun c hc => ?_), SMap.wf_filter _ h.2⟩
  have hd : domainOf c.1 ≠ dom := by simpa using (List.mem_filter.1 hc).2
  have hs : SMap.get 0 (m.undef dom seed).seeds (domainOf c.1) = SMap.get 0 m.seeds (domainOf c.1) :=
    SMap.get_set_ne _ _ _ _ (Ne.symm hd)
  simp only [Mem.dflt, hs]

/-- The copy of a local store keeps the canonical form. -/
theorem Mem.wf_copyStore {m : Mem} (h : m.wf = true) (p q : Nat) : (m.copyStore p q).wf = true := by
  have h1 : ∀ (l : List Host.Cell) (n : Mem), n.wf = true →
      (l.foldl (fun n c => n.storeB (lsKey q (c.1 % 2 ^ 22)) c.2) n).wf = true := by
    intro l
    induction l with
    | nil => exact fun n hn => hn
    | cons c l ih => exact fun n hn => ih _ (Mem.wf_storeB hn _ _)
  have h2 : ∀ (l : SMap Nat) (d : SMap Nat), SMap.wf (fun _ => 0) d = true →
      SMap.wf (fun _ => 0) (l.foldl (fun d c => SMap.set 0 d (lsKey q (16 * c.1 % 2 ^ 22) / 16) c.2) d) = true := by
    intro l
    induction l with
    | nil => exact fun d hd => hd
    | cons c l ih => exact fun d hd => ih _ (SMap.wf_set (d := fun _ => 0) hd _ _)
  have h3 := h1 ((m.undef (16 + q) (SMap.get 0 m.seeds (16 + p))).cells.filter (fun c => domainOf c.1 == 16 + p)) _
    (Mem.wf_undef h (16 + q) (SMap.get 0 m.seeds (16 + p)))
  exact Mem.wf_dev h3 (h2 _ _ ((Mem.wf_iff _).1 h3).2)

end Sys2Proof.Machine
end

