-- ==== Sys2Proof/Laws/State.lean ====
section
/-! SUPPORT. Laws/State.lean: what each update of the state leaves: one lemma per field per update, and reads of registers
and sites after writes. -/

namespace Sys2Proof.Machine

/-! ### The state -/

@[simp] theorem State.run_eq (s : State) (f : Block → Block) : s.run f = .next { s with m := (f s.m).drainRegs } := rfl

/-! ### Fields of the module -/

@[simp] theorem Block.wr_mem (b : Block) (f : Field) (v i j : Nat) : (b.wr f v i j).mem = b.mem := rfl
@[simp] theorem Block.wr_tags (b : Block) (f : Field) (v i j : Nat) : (b.wr f v i j).tags = b.tags := rfl
@[simp] theorem Block.wr_sites (b : Block) (f : Field) (v i j : Nat) : (b.wr f v i j).sites = b.sites := rfl
@[simp] theorem Block.wr_faultQ (b : Block) (f : Field) (v i j : Nat) : (b.wr f v i j).faultQ = b.faultQ := rfl
@[simp] theorem Block.wr_out (b : Block) (f : Field) (v i j : Nat) : (b.wr f v i j).out = b.out := rfl
@[simp] theorem Block.wr_free (b : Block) (f : Field) (v i j : Nat) : (b.wr f v i j).free = b.free := rfl
@[simp] theorem Block.wr_tick (b : Block) (f : Field) (v i j : Nat) : (b.wr f v i j).tick = b.tick := rfl
@[simp] theorem Block.wr_retires (b : Block) (f : Field) (v i j : Nat) : (b.wr f v i j).retires = b.retires := rfl
@[simp] theorem Block.wr_rst (b : Block) (f : Field) (v i j : Nat) : (b.wr f v i j).rst = b.rst := rfl
@[simp] theorem Block.wr_heldQ (b : Block) (f : Field) (v i j : Nat) : (b.wr f v i j).heldQ = b.heldQ := rfl
@[simp] theorem Block.wr_moss (b : Block) (f : Field) (v i j : Nat) : (b.wr f v i j).moss = b.moss := rfl
@[simp] theorem Block.wr_grp (b : Block) (f : Field) (v i j : Nat) : (b.wr f v i j).grp = b.grp := rfl
@[simp] theorem Block.wr_migCh (b : Block) (f : Field) (v i j : Nat) : (b.wr f v i j).migCh = b.migCh := rfl
@[simp] theorem Block.wr_mcasts (b : Block) (f : Field) (v i j : Nat) : (b.wr f v i j).mcasts = b.mcasts := rfl
@[simp] theorem Block.wr_sigs (b : Block) (f : Field) (v i j : Nat) : (b.wr f v i j).sigs = b.sigs := rfl
@[simp] theorem Block.wr_samples (b : Block) (f : Field) (v i j : Nat) : (b.wr f v i j).samples = b.samples := rfl
@[simp] theorem Block.wr_bk (b : Block) (f : Field) (v i j : Nat) : (b.wr f v i j).bk = b.bk := rfl
@[simp] theorem Block.wr_rc (b : Block) (f : Field) (v i j : Nat) : (b.wr f v i j).rc = b.rc := rfl
@[simp] theorem Block.wr_sf (b : Block) (f : Field) (v i j : Nat) : (b.wr f v i j).sf = b.sf := rfl
@[simp] theorem Block.wr_misses (b : Block) (f : Field) (v i j : Nat) : (b.wr f v i j).misses = b.misses := rfl
@[simp] theorem Block.wr_pre (b : Block) (f : Field) (v i j : Nat) : (b.wr f v i j).pre = b.pre := rfl
@[simp] theorem Block.wr_plru (b : Block) (f : Field) (v i j : Nat) : (b.wr f v i j).plru = b.plru := rfl
@[simp] theorem Block.wr_isolated (b : Block) (f : Field) (v i j : Nat) : (b.wr f v i j).isolated = b.isolated := rfl
@[simp] theorem Block.wr_pkgSeen (b : Block) (f : Field) (v i j : Nat) : (b.wr f v i j).pkgSeen = b.pkgSeen := rfl
@[simp] theorem Block.wr_stlb (b : Block) (f : Field) (v i j : Nat) : (b.wr f v i j).stlb = b.stlb := rfl
@[simp] theorem Block.wr_wcache (b : Block) (f : Field) (v i j : Nat) : (b.wr f v i j).wcache = b.wcache := rfl
@[simp] theorem Block.wr_cctx (b : Block) (f : Field) (v i j : Nat) : (b.wr f v i j).cctx = b.cctx := rfl
@[simp] theorem Block.wr_wins (b : Block) (f : Field) (v i j : Nat) : (b.wr f v i j).wins = b.wins := rfl
@[simp] theorem Block.wr_inval (b : Block) (f : Field) (v i j : Nat) : (b.wr f v i j).inval = b.inval := rfl
@[simp] theorem Block.wr_tagSet (b : Block) (f : Field) (v i j : Nat) : (b.wr f v i j).tagSet = b.tagSet := rfl
@[simp] theorem Block.wr_terminated (b : Block) (f : Field) (v i j : Nat) : (b.wr f v i j).terminated = b.terminated := rfl
@[simp] theorem Block.wr_termSeq (b : Block) (f : Field) (v i j : Nat) : (b.wr f v i j).termSeq = b.termSeq := rfl
@[simp] theorem Block.wr_irqOwed (b : Block) (f : Field) (v i j : Nat) : (b.wr f v i j).irqOwed = b.irqOwed := rfl
@[simp] theorem Block.wr_dm (b : Block) (f : Field) (v i j : Nat) : (b.wr f v i j).dm = b.dm := rfl
@[simp] theorem Block.wr_qps (b : Block) (f : Field) (v i j : Nat) : (b.wr f v i j).qps = b.qps := rfl
@[simp] theorem Block.wr_ports (b : Block) (f : Field) (v i j : Nat) : (b.wr f v i j).ports = b.ports := rfl
@[simp] theorem Block.wr_regQ (b : Block) (f : Field) (v i j : Nat) : (b.wr f v i j).regQ = b.regQ := rfl
@[simp] theorem Block.wr_snap (b : Block) (f : Field) (v i j : Nat) : (b.wr f v i j).snap = b.snap := rfl
@[simp] theorem Block.wr_pw (b : Block) (f : Field) (v i j : Nat) : (b.wr f v i j).pw = b.pw := rfl
@[simp] theorem Block.wr_mrst (b : Block) (f : Field) (v i j : Nat) : (b.wr f v i j).mrst = b.mrst := rfl
@[simp] theorem Block.wr_lc (b : Block) (f : Field) (v i j : Nat) : (b.wr f v i j).lc = b.lc := rfl
@[simp] theorem Block.wr_tap (b : Block) (f : Field) (v i j : Nat) : (b.wr f v i j).tap = b.tap := rfl

@[simp] theorem Block.inc_mem (b : Block) (f : Field) (n i j : Nat) : (b.inc f n i j).mem = b.mem := rfl
@[simp] theorem Block.inc_tags (b : Block) (f : Field) (n i j : Nat) : (b.inc f n i j).tags = b.tags := rfl
@[simp] theorem Block.inc_sites (b : Block) (f : Field) (n i j : Nat) : (b.inc f n i j).sites = b.sites := rfl
@[simp] theorem Block.inc_faultQ (b : Block) (f : Field) (n i j : Nat) : (b.inc f n i j).faultQ = b.faultQ := rfl
@[simp] theorem Block.inc_out (b : Block) (f : Field) (n i j : Nat) : (b.inc f n i j).out = b.out := rfl
@[simp] theorem Block.inc_free (b : Block) (f : Field) (n i j : Nat) : (b.inc f n i j).free = b.free := rfl
@[simp] theorem Block.inc_tick (b : Block) (f : Field) (n i j : Nat) : (b.inc f n i j).tick = b.tick := rfl
@[simp] theorem Block.inc_retires (b : Block) (f : Field) (n i j : Nat) : (b.inc f n i j).retires = b.retires := rfl
@[simp] theorem Block.inc_rst (b : Block) (f : Field) (n i j : Nat) : (b.inc f n i j).rst = b.rst := rfl
@[simp] theorem Block.inc_heldQ (b : Block) (f : Field) (n i j : Nat) : (b.inc f n i j).heldQ = b.heldQ := rfl
@[simp] theorem Block.inc_moss (b : Block) (f : Field) (n i j : Nat) : (b.inc f n i j).moss = b.moss := rfl
@[simp] theorem Block.inc_grp (b : Block) (f : Field) (n i j : Nat) : (b.inc f n i j).grp = b.grp := rfl
@[simp] theorem Block.inc_migCh (b : Block) (f : Field) (n i j : Nat) : (b.inc f n i j).migCh = b.migCh := rfl
@[simp] theorem Block.inc_mcasts (b : Block) (f : Field) (n i j : Nat) : (b.inc f n i j).mcasts = b.mcasts := rfl
@[simp] theorem Block.inc_sigs (b : Block) (f : Field) (n i j : Nat) : (b.inc f n i j).sigs = b.sigs := rfl
@[simp] theorem Block.inc_samples (b : Block) (f : Field) (n i j : Nat) : (b.inc f n i j).samples = b.samples := rfl
@[simp] theorem Block.inc_bk (b : Block) (f : Field) (n i j : Nat) : (b.inc f n i j).bk = b.bk := rfl
@[simp] theorem Block.inc_rc (b : Block) (f : Field) (n i j : Nat) : (b.inc f n i j).rc = b.rc := rfl
@[simp] theorem Block.inc_sf (b : Block) (f : Field) (n i j : Nat) : (b.inc f n i j).sf = b.sf := rfl
@[simp] theorem Block.inc_misses (b : Block) (f : Field) (n i j : Nat) : (b.inc f n i j).misses = b.misses := rfl
@[simp] theorem Block.inc_pre (b : Block) (f : Field) (n i j : Nat) : (b.inc f n i j).pre = b.pre := rfl
@[simp] theorem Block.inc_plru (b : Block) (f : Field) (n i j : Nat) : (b.inc f n i j).plru = b.plru := rfl
@[simp] theorem Block.inc_isolated (b : Block) (f : Field) (n i j : Nat) : (b.inc f n i j).isolated = b.isolated := rfl
@[simp] theorem Block.inc_pkgSeen (b : Block) (f : Field) (n i j : Nat) : (b.inc f n i j).pkgSeen = b.pkgSeen := rfl
@[simp] theorem Block.inc_stlb (b : Block) (f : Field) (n i j : Nat) : (b.inc f n i j).stlb = b.stlb := rfl
@[simp] theorem Block.inc_wcache (b : Block) (f : Field) (n i j : Nat) : (b.inc f n i j).wcache = b.wcache := rfl
@[simp] theorem Block.inc_cctx (b : Block) (f : Field) (n i j : Nat) : (b.inc f n i j).cctx = b.cctx := rfl
@[simp] theorem Block.inc_wins (b : Block) (f : Field) (n i j : Nat) : (b.inc f n i j).wins = b.wins := rfl
@[simp] theorem Block.inc_inval (b : Block) (f : Field) (n i j : Nat) : (b.inc f n i j).inval = b.inval := rfl
@[simp] theorem Block.inc_tagSet (b : Block) (f : Field) (n i j : Nat) : (b.inc f n i j).tagSet = b.tagSet := rfl
@[simp] theorem Block.inc_terminated (b : Block) (f : Field) (n i j : Nat) : (b.inc f n i j).terminated = b.terminated := rfl
@[simp] theorem Block.inc_termSeq (b : Block) (f : Field) (n i j : Nat) : (b.inc f n i j).termSeq = b.termSeq := rfl
@[simp] theorem Block.inc_irqOwed (b : Block) (f : Field) (n i j : Nat) : (b.inc f n i j).irqOwed = b.irqOwed := rfl
@[simp] theorem Block.inc_dm (b : Block) (f : Field) (n i j : Nat) : (b.inc f n i j).dm = b.dm := rfl
@[simp] theorem Block.inc_qps (b : Block) (f : Field) (n i j : Nat) : (b.inc f n i j).qps = b.qps := rfl
@[simp] theorem Block.inc_ports (b : Block) (f : Field) (n i j : Nat) : (b.inc f n i j).ports = b.ports := rfl
@[simp] theorem Block.inc_regQ (b : Block) (f : Field) (n i j : Nat) : (b.inc f n i j).regQ = b.regQ := rfl
@[simp] theorem Block.inc_snap (b : Block) (f : Field) (n i j : Nat) : (b.inc f n i j).snap = b.snap := rfl
@[simp] theorem Block.inc_pw (b : Block) (f : Field) (n i j : Nat) : (b.inc f n i j).pw = b.pw := rfl
@[simp] theorem Block.inc_mrst (b : Block) (f : Field) (n i j : Nat) : (b.inc f n i j).mrst = b.mrst := rfl
@[simp] theorem Block.inc_lc (b : Block) (f : Field) (n i j : Nat) : (b.inc f n i j).lc = b.lc := rfl
@[simp] theorem Block.inc_tap (b : Block) (f : Field) (n i j : Nat) : (b.inc f n i j).tap = b.tap := rfl

@[simp] theorem Block.addWrap_mem (b : Block) (f : Field) (n i j : Nat) : (b.addWrap f n i j).mem = b.mem := rfl
@[simp] theorem Block.addWrap_tags (b : Block) (f : Field) (n i j : Nat) : (b.addWrap f n i j).tags = b.tags := rfl
@[simp] theorem Block.addWrap_sites (b : Block) (f : Field) (n i j : Nat) : (b.addWrap f n i j).sites = b.sites := rfl
@[simp] theorem Block.addWrap_faultQ (b : Block) (f : Field) (n i j : Nat) : (b.addWrap f n i j).faultQ = b.faultQ := rfl
@[simp] theorem Block.addWrap_out (b : Block) (f : Field) (n i j : Nat) : (b.addWrap f n i j).out = b.out := rfl
@[simp] theorem Block.addWrap_free (b : Block) (f : Field) (n i j : Nat) : (b.addWrap f n i j).free = b.free := rfl
@[simp] theorem Block.addWrap_tick (b : Block) (f : Field) (n i j : Nat) : (b.addWrap f n i j).tick = b.tick := rfl
@[simp] theorem Block.addWrap_retires (b : Block) (f : Field) (n i j : Nat) : (b.addWrap f n i j).retires = b.retires := rfl
@[simp] theorem Block.addWrap_rst (b : Block) (f : Field) (n i j : Nat) : (b.addWrap f n i j).rst = b.rst := rfl
@[simp] theorem Block.addWrap_heldQ (b : Block) (f : Field) (n i j : Nat) : (b.addWrap f n i j).heldQ = b.heldQ := rfl
@[simp] theorem Block.addWrap_moss (b : Block) (f : Field) (n i j : Nat) : (b.addWrap f n i j).moss = b.moss := rfl
@[simp] theorem Block.addWrap_grp (b : Block) (f : Field) (n i j : Nat) : (b.addWrap f n i j).grp = b.grp := rfl
@[simp] theorem Block.addWrap_migCh (b : Block) (f : Field) (n i j : Nat) : (b.addWrap f n i j).migCh = b.migCh := rfl
@[simp] theorem Block.addWrap_mcasts (b : Block) (f : Field) (n i j : Nat) : (b.addWrap f n i j).mcasts = b.mcasts := rfl
@[simp] theorem Block.addWrap_sigs (b : Block) (f : Field) (n i j : Nat) : (b.addWrap f n i j).sigs = b.sigs := rfl
@[simp] theorem Block.addWrap_samples (b : Block) (f : Field) (n i j : Nat) : (b.addWrap f n i j).samples = b.samples := rfl
@[simp] theorem Block.addWrap_bk (b : Block) (f : Field) (n i j : Nat) : (b.addWrap f n i j).bk = b.bk := rfl
@[simp] theorem Block.addWrap_rc (b : Block) (f : Field) (n i j : Nat) : (b.addWrap f n i j).rc = b.rc := rfl
@[simp] theorem Block.addWrap_sf (b : Block) (f : Field) (n i j : Nat) : (b.addWrap f n i j).sf = b.sf := rfl
@[simp] theorem Block.addWrap_misses (b : Block) (f : Field) (n i j : Nat) : (b.addWrap f n i j).misses = b.misses := rfl
@[simp] theorem Block.addWrap_pre (b : Block) (f : Field) (n i j : Nat) : (b.addWrap f n i j).pre = b.pre := rfl
@[simp] theorem Block.addWrap_plru (b : Block) (f : Field) (n i j : Nat) : (b.addWrap f n i j).plru = b.plru := rfl
@[simp] theorem Block.addWrap_isolated (b : Block) (f : Field) (n i j : Nat) : (b.addWrap f n i j).isolated = b.isolated := rfl
@[simp] theorem Block.addWrap_pkgSeen (b : Block) (f : Field) (n i j : Nat) : (b.addWrap f n i j).pkgSeen = b.pkgSeen := rfl
@[simp] theorem Block.addWrap_stlb (b : Block) (f : Field) (n i j : Nat) : (b.addWrap f n i j).stlb = b.stlb := rfl
@[simp] theorem Block.addWrap_wcache (b : Block) (f : Field) (n i j : Nat) : (b.addWrap f n i j).wcache = b.wcache := rfl
@[simp] theorem Block.addWrap_cctx (b : Block) (f : Field) (n i j : Nat) : (b.addWrap f n i j).cctx = b.cctx := rfl
@[simp] theorem Block.addWrap_wins (b : Block) (f : Field) (n i j : Nat) : (b.addWrap f n i j).wins = b.wins := rfl
@[simp] theorem Block.addWrap_inval (b : Block) (f : Field) (n i j : Nat) : (b.addWrap f n i j).inval = b.inval := rfl
@[simp] theorem Block.addWrap_tagSet (b : Block) (f : Field) (n i j : Nat) : (b.addWrap f n i j).tagSet = b.tagSet := rfl
@[simp] theorem Block.addWrap_terminated (b : Block) (f : Field) (n i j : Nat) : (b.addWrap f n i j).terminated = b.terminated := rfl
@[simp] theorem Block.addWrap_termSeq (b : Block) (f : Field) (n i j : Nat) : (b.addWrap f n i j).termSeq = b.termSeq := rfl
@[simp] theorem Block.addWrap_irqOwed (b : Block) (f : Field) (n i j : Nat) : (b.addWrap f n i j).irqOwed = b.irqOwed := rfl
@[simp] theorem Block.addWrap_dm (b : Block) (f : Field) (n i j : Nat) : (b.addWrap f n i j).dm = b.dm := rfl
@[simp] theorem Block.addWrap_qps (b : Block) (f : Field) (n i j : Nat) : (b.addWrap f n i j).qps = b.qps := rfl
@[simp] theorem Block.addWrap_ports (b : Block) (f : Field) (n i j : Nat) : (b.addWrap f n i j).ports = b.ports := rfl
@[simp] theorem Block.addWrap_regQ (b : Block) (f : Field) (n i j : Nat) : (b.addWrap f n i j).regQ = b.regQ := rfl
@[simp] theorem Block.addWrap_snap (b : Block) (f : Field) (n i j : Nat) : (b.addWrap f n i j).snap = b.snap := rfl
@[simp] theorem Block.addWrap_pw (b : Block) (f : Field) (n i j : Nat) : (b.addWrap f n i j).pw = b.pw := rfl
@[simp] theorem Block.addWrap_mrst (b : Block) (f : Field) (n i j : Nat) : (b.addWrap f n i j).mrst = b.mrst := rfl
@[simp] theorem Block.addWrap_lc (b : Block) (f : Field) (n i j : Nat) : (b.addWrap f n i j).lc = b.lc := rfl
@[simp] theorem Block.addWrap_tap (b : Block) (f : Field) (n i j : Nat) : (b.addWrap f n i j).tap = b.tap := rfl

@[simp] theorem Block.clearRegs_mem (b : Block) (p : Field → Nat → Nat → Bool) : (b.clearRegs p).mem = b.mem := rfl
@[simp] theorem Block.clearRegs_tags (b : Block) (p : Field → Nat → Nat → Bool) : (b.clearRegs p).tags = b.tags := rfl
@[simp] theorem Block.clearRegs_sites (b : Block) (p : Field → Nat → Nat → Bool) : (b.clearRegs p).sites = b.sites := rfl
@[simp] theorem Block.clearRegs_faultQ (b : Block) (p : Field → Nat → Nat → Bool) : (b.clearRegs p).faultQ = b.faultQ := rfl
@[simp] theorem Block.clearRegs_out (b : Block) (p : Field → Nat → Nat → Bool) : (b.clearRegs p).out = b.out := rfl
@[simp] theorem Block.clearRegs_free (b : Block) (p : Field → Nat → Nat → Bool) : (b.clearRegs p).free = b.free := rfl
@[simp] theorem Block.clearRegs_tick (b : Block) (p : Field → Nat → Nat → Bool) : (b.clearRegs p).tick = b.tick := rfl
@[simp] theorem Block.clearRegs_retires (b : Block) (p : Field → Nat → Nat → Bool) : (b.clearRegs p).retires = b.retires := rfl
@[simp] theorem Block.clearRegs_rst (b : Block) (p : Field → Nat → Nat → Bool) : (b.clearRegs p).rst = b.rst := rfl
@[simp] theorem Block.clearRegs_heldQ (b : Block) (p : Field → Nat → Nat → Bool) : (b.clearRegs p).heldQ = b.heldQ := rfl
@[simp] theorem Block.clearRegs_moss (b : Block) (p : Field → Nat → Nat → Bool) : (b.clearRegs p).moss = b.moss := rfl
@[simp] theorem Block.clearRegs_grp (b : Block) (p : Field → Nat → Nat → Bool) : (b.clearRegs p).grp = b.grp := rfl
@[simp] theorem Block.clearRegs_migCh (b : Block) (p : Field → Nat → Nat → Bool) : (b.clearRegs p).migCh = b.migCh := rfl
@[simp] theorem Block.clearRegs_mcasts (b : Block) (p : Field → Nat → Nat → Bool) : (b.clearRegs p).mcasts = b.mcasts := rfl
@[simp] theorem Block.clearRegs_sigs (b : Block) (p : Field → Nat → Nat → Bool) : (b.clearRegs p).sigs = b.sigs := rfl
@[simp] theorem Block.clearRegs_samples (b : Block) (p : Field → Nat → Nat → Bool) : (b.clearRegs p).samples = b.samples := rfl
@[simp] theorem Block.clearRegs_bk (b : Block) (p : Field → Nat → Nat → Bool) : (b.clearRegs p).bk = b.bk := rfl
@[simp] theorem Block.clearRegs_rc (b : Block) (p : Field → Nat → Nat → Bool) : (b.clearRegs p).rc = b.rc := rfl
@[simp] theorem Block.clearRegs_sf (b : Block) (p : Field → Nat → Nat → Bool) : (b.clearRegs p).sf = b.sf := rfl
@[simp] theorem Block.clearRegs_misses (b : Block) (p : Field → Nat → Nat → Bool) : (b.clearRegs p).misses = b.misses := rfl
@[simp] theorem Block.clearRegs_pre (b : Block) (p : Field → Nat → Nat → Bool) : (b.clearRegs p).pre = b.pre := rfl
@[simp] theorem Block.clearRegs_plru (b : Block) (p : Field → Nat → Nat → Bool) : (b.clearRegs p).plru = b.plru := rfl
@[simp] theorem Block.clearRegs_isolated (b : Block) (p : Field → Nat → Nat → Bool) : (b.clearRegs p).isolated = b.isolated := rfl
@[simp] theorem Block.clearRegs_pkgSeen (b : Block) (p : Field → Nat → Nat → Bool) : (b.clearRegs p).pkgSeen = b.pkgSeen := rfl
@[simp] theorem Block.clearRegs_stlb (b : Block) (p : Field → Nat → Nat → Bool) : (b.clearRegs p).stlb = b.stlb := rfl
@[simp] theorem Block.clearRegs_wcache (b : Block) (p : Field → Nat → Nat → Bool) : (b.clearRegs p).wcache = b.wcache := rfl
@[simp] theorem Block.clearRegs_cctx (b : Block) (p : Field → Nat → Nat → Bool) : (b.clearRegs p).cctx = b.cctx := rfl
@[simp] theorem Block.clearRegs_wins (b : Block) (p : Field → Nat → Nat → Bool) : (b.clearRegs p).wins = b.wins := rfl
@[simp] theorem Block.clearRegs_inval (b : Block) (p : Field → Nat → Nat → Bool) : (b.clearRegs p).inval = b.inval := rfl
@[simp] theorem Block.clearRegs_tagSet (b : Block) (p : Field → Nat → Nat → Bool) : (b.clearRegs p).tagSet = b.tagSet := rfl
@[simp] theorem Block.clearRegs_terminated (b : Block) (p : Field → Nat → Nat → Bool) : (b.clearRegs p).terminated = b.terminated := rfl
@[simp] theorem Block.clearRegs_termSeq (b : Block) (p : Field → Nat → Nat → Bool) : (b.clearRegs p).termSeq = b.termSeq := rfl
@[simp] theorem Block.clearRegs_irqOwed (b : Block) (p : Field → Nat → Nat → Bool) : (b.clearRegs p).irqOwed = b.irqOwed := rfl
@[simp] theorem Block.clearRegs_dm (b : Block) (p : Field → Nat → Nat → Bool) : (b.clearRegs p).dm = b.dm := rfl
@[simp] theorem Block.clearRegs_qps (b : Block) (p : Field → Nat → Nat → Bool) : (b.clearRegs p).qps = b.qps := rfl
@[simp] theorem Block.clearRegs_ports (b : Block) (p : Field → Nat → Nat → Bool) : (b.clearRegs p).ports = b.ports := rfl
@[simp] theorem Block.clearRegs_regQ (b : Block) (p : Field → Nat → Nat → Bool) : (b.clearRegs p).regQ = b.regQ := rfl
@[simp] theorem Block.clearRegs_snap (b : Block) (p : Field → Nat → Nat → Bool) : (b.clearRegs p).snap = b.snap := rfl
@[simp] theorem Block.clearRegs_pw (b : Block) (p : Field → Nat → Nat → Bool) : (b.clearRegs p).pw = b.pw := rfl
@[simp] theorem Block.clearRegs_mrst (b : Block) (p : Field → Nat → Nat → Bool) : (b.clearRegs p).mrst = b.mrst := rfl
@[simp] theorem Block.clearRegs_lc (b : Block) (p : Field → Nat → Nat → Bool) : (b.clearRegs p).lc = b.lc := rfl
@[simp] theorem Block.clearRegs_tap (b : Block) (p : Field → Nat → Nat → Bool) : (b.clearRegs p).tap = b.tap := rfl

@[simp] theorem Block.report_regs (b : Block) (r : FaultRec) : (b.report r).regs = b.regs := rfl
@[simp] theorem Block.report_mem (b : Block) (r : FaultRec) : (b.report r).mem = b.mem := rfl
@[simp] theorem Block.report_tags (b : Block) (r : FaultRec) : (b.report r).tags = b.tags := rfl
@[simp] theorem Block.report_sites (b : Block) (r : FaultRec) : (b.report r).sites = b.sites := rfl
@[simp] theorem Block.report_out (b : Block) (r : FaultRec) : (b.report r).out = b.out := rfl
@[simp] theorem Block.report_free (b : Block) (r : FaultRec) : (b.report r).free = b.free := rfl
@[simp] theorem Block.report_tick (b : Block) (r : FaultRec) : (b.report r).tick = b.tick := rfl
@[simp] theorem Block.report_retires (b : Block) (r : FaultRec) : (b.report r).retires = b.retires := rfl
@[simp] theorem Block.report_rst (b : Block) (r : FaultRec) : (b.report r).rst = b.rst := rfl
@[simp] theorem Block.report_heldQ (b : Block) (r : FaultRec) : (b.report r).heldQ = b.heldQ := rfl
@[simp] theorem Block.report_moss (b : Block) (r : FaultRec) : (b.report r).moss = b.moss := rfl
@[simp] theorem Block.report_grp (b : Block) (r : FaultRec) : (b.report r).grp = b.grp := rfl
@[simp] theorem Block.report_migCh (b : Block) (r : FaultRec) : (b.report r).migCh = b.migCh := rfl
@[simp] theorem Block.report_mcasts (b : Block) (r : FaultRec) : (b.report r).mcasts = b.mcasts := rfl
@[simp] theorem Block.report_sigs (b : Block) (r : FaultRec) : (b.report r).sigs = b.sigs := rfl
@[simp] theorem Block.report_samples (b : Block) (r : FaultRec) : (b.report r).samples = b.samples := rfl
@[simp] theorem Block.report_bk (b : Block) (r : FaultRec) : (b.report r).bk = b.bk := rfl
@[simp] theorem Block.report_rc (b : Block) (r : FaultRec) : (b.report r).rc = b.rc := rfl
@[simp] theorem Block.report_sf (b : Block) (r : FaultRec) : (b.report r).sf = b.sf := rfl
@[simp] theorem Block.report_misses (b : Block) (r : FaultRec) : (b.report r).misses = b.misses := rfl
@[simp] theorem Block.report_pre (b : Block) (r : FaultRec) : (b.report r).pre = b.pre := rfl
@[simp] theorem Block.report_plru (b : Block) (r : FaultRec) : (b.report r).plru = b.plru := rfl
@[simp] theorem Block.report_isolated (b : Block) (r : FaultRec) : (b.report r).isolated = b.isolated := rfl
@[simp] theorem Block.report_pkgSeen (b : Block) (r : FaultRec) : (b.report r).pkgSeen = b.pkgSeen := rfl
@[simp] theorem Block.report_stlb (b : Block) (r : FaultRec) : (b.report r).stlb = b.stlb := rfl
@[simp] theorem Block.report_wcache (b : Block) (r : FaultRec) : (b.report r).wcache = b.wcache := rfl
@[simp] theorem Block.report_cctx (b : Block) (r : FaultRec) : (b.report r).cctx = b.cctx := rfl
@[simp] theorem Block.report_wins (b : Block) (r : FaultRec) : (b.report r).wins = b.wins := rfl
@[simp] theorem Block.report_inval (b : Block) (r : FaultRec) : (b.report r).inval = b.inval := rfl
@[simp] theorem Block.report_tagSet (b : Block) (r : FaultRec) : (b.report r).tagSet = b.tagSet := rfl
@[simp] theorem Block.report_terminated (b : Block) (r : FaultRec) : (b.report r).terminated = b.terminated := rfl
@[simp] theorem Block.report_termSeq (b : Block) (r : FaultRec) : (b.report r).termSeq = b.termSeq := rfl
@[simp] theorem Block.report_irqOwed (b : Block) (r : FaultRec) : (b.report r).irqOwed = b.irqOwed := rfl
@[simp] theorem Block.report_dm (b : Block) (r : FaultRec) : (b.report r).dm = b.dm := rfl
@[simp] theorem Block.report_qps (b : Block) (r : FaultRec) : (b.report r).qps = b.qps := rfl
@[simp] theorem Block.report_ports (b : Block) (r : FaultRec) : (b.report r).ports = b.ports := rfl
@[simp] theorem Block.report_regQ (b : Block) (r : FaultRec) : (b.report r).regQ = b.regQ := rfl
@[simp] theorem Block.report_snap (b : Block) (r : FaultRec) : (b.report r).snap = b.snap := rfl
@[simp] theorem Block.report_pw (b : Block) (r : FaultRec) : (b.report r).pw = b.pw := rfl
@[simp] theorem Block.report_mrst (b : Block) (r : FaultRec) : (b.report r).mrst = b.mrst := rfl
@[simp] theorem Block.report_lc (b : Block) (r : FaultRec) : (b.report r).lc = b.lc := rfl
@[simp] theorem Block.report_tap (b : Block) (r : FaultRec) : (b.report r).tap = b.tap := rfl

@[simp] theorem Block.emit_regs (b : Block) (o : Out) : (b.emit o).regs = b.regs := rfl
@[simp] theorem Block.emit_mem (b : Block) (o : Out) : (b.emit o).mem = b.mem := rfl
@[simp] theorem Block.emit_tags (b : Block) (o : Out) : (b.emit o).tags = b.tags := rfl
@[simp] theorem Block.emit_sites (b : Block) (o : Out) : (b.emit o).sites = b.sites := rfl
@[simp] theorem Block.emit_faultQ (b : Block) (o : Out) : (b.emit o).faultQ = b.faultQ := rfl
@[simp] theorem Block.emit_free (b : Block) (o : Out) : (b.emit o).free = b.free := rfl
@[simp] theorem Block.emit_tick (b : Block) (o : Out) : (b.emit o).tick = b.tick := rfl
@[simp] theorem Block.emit_retires (b : Block) (o : Out) : (b.emit o).retires = b.retires := rfl
@[simp] theorem Block.emit_rst (b : Block) (o : Out) : (b.emit o).rst = b.rst := rfl
@[simp] theorem Block.emit_heldQ (b : Block) (o : Out) : (b.emit o).heldQ = b.heldQ := rfl
@[simp] theorem Block.emit_moss (b : Block) (o : Out) : (b.emit o).moss = b.moss := rfl
@[simp] theorem Block.emit_grp (b : Block) (o : Out) : (b.emit o).grp = b.grp := rfl
@[simp] theorem Block.emit_migCh (b : Block) (o : Out) : (b.emit o).migCh = b.migCh := rfl
@[simp] theorem Block.emit_mcasts (b : Block) (o : Out) : (b.emit o).mcasts = b.mcasts := rfl
@[simp] theorem Block.emit_sigs (b : Block) (o : Out) : (b.emit o).sigs = b.sigs := rfl
@[simp] theorem Block.emit_samples (b : Block) (o : Out) : (b.emit o).samples = b.samples := rfl
@[simp] theorem Block.emit_bk (b : Block) (o : Out) : (b.emit o).bk = b.bk := rfl
@[simp] theorem Block.emit_rc (b : Block) (o : Out) : (b.emit o).rc = b.rc := rfl
@[simp] theorem Block.emit_sf (b : Block) (o : Out) : (b.emit o).sf = b.sf := rfl
@[simp] theorem Block.emit_misses (b : Block) (o : Out) : (b.emit o).misses = b.misses := rfl
@[simp] theorem Block.emit_pre (b : Block) (o : Out) : (b.emit o).pre = b.pre := rfl
@[simp] theorem Block.emit_plru (b : Block) (o : Out) : (b.emit o).plru = b.plru := rfl
@[simp] theorem Block.emit_isolated (b : Block) (o : Out) : (b.emit o).isolated = b.isolated := rfl
@[simp] theorem Block.emit_pkgSeen (b : Block) (o : Out) : (b.emit o).pkgSeen = b.pkgSeen := rfl
@[simp] theorem Block.emit_stlb (b : Block) (o : Out) : (b.emit o).stlb = b.stlb := rfl
@[simp] theorem Block.emit_wcache (b : Block) (o : Out) : (b.emit o).wcache = b.wcache := rfl
@[simp] theorem Block.emit_cctx (b : Block) (o : Out) : (b.emit o).cctx = b.cctx := rfl
@[simp] theorem Block.emit_wins (b : Block) (o : Out) : (b.emit o).wins = b.wins := rfl
@[simp] theorem Block.emit_inval (b : Block) (o : Out) : (b.emit o).inval = b.inval := rfl
@[simp] theorem Block.emit_tagSet (b : Block) (o : Out) : (b.emit o).tagSet = b.tagSet := rfl
@[simp] theorem Block.emit_terminated (b : Block) (o : Out) : (b.emit o).terminated = b.terminated := rfl
@[simp] theorem Block.emit_termSeq (b : Block) (o : Out) : (b.emit o).termSeq = b.termSeq := rfl
@[simp] theorem Block.emit_irqOwed (b : Block) (o : Out) : (b.emit o).irqOwed = b.irqOwed := rfl
@[simp] theorem Block.emit_dm (b : Block) (o : Out) : (b.emit o).dm = b.dm := rfl
@[simp] theorem Block.emit_qps (b : Block) (o : Out) : (b.emit o).qps = b.qps := rfl
@[simp] theorem Block.emit_ports (b : Block) (o : Out) : (b.emit o).ports = b.ports := rfl
@[simp] theorem Block.emit_regQ (b : Block) (o : Out) : (b.emit o).regQ = b.regQ := rfl
@[simp] theorem Block.emit_snap (b : Block) (o : Out) : (b.emit o).snap = b.snap := rfl
@[simp] theorem Block.emit_pw (b : Block) (o : Out) : (b.emit o).pw = b.pw := rfl
@[simp] theorem Block.emit_mrst (b : Block) (o : Out) : (b.emit o).mrst = b.mrst := rfl
@[simp] theorem Block.emit_lc (b : Block) (o : Out) : (b.emit o).lc = b.lc := rfl
@[simp] theorem Block.emit_tap (b : Block) (o : Out) : (b.emit o).tap = b.tap := rfl

@[simp] theorem Block.irq_regs (b : Block) (c w : Nat) : (b.irq c w).regs = b.regs := rfl
@[simp] theorem Block.irq_mem (b : Block) (c w : Nat) : (b.irq c w).mem = b.mem := rfl
@[simp] theorem Block.irq_tags (b : Block) (c w : Nat) : (b.irq c w).tags = b.tags := rfl
@[simp] theorem Block.irq_sites (b : Block) (c w : Nat) : (b.irq c w).sites = b.sites := rfl
@[simp] theorem Block.irq_faultQ (b : Block) (c w : Nat) : (b.irq c w).faultQ = b.faultQ := rfl
@[simp] theorem Block.irq_free (b : Block) (c w : Nat) : (b.irq c w).free = b.free := rfl
@[simp] theorem Block.irq_tick (b : Block) (c w : Nat) : (b.irq c w).tick = b.tick := rfl
@[simp] theorem Block.irq_retires (b : Block) (c w : Nat) : (b.irq c w).retires = b.retires := rfl
@[simp] theorem Block.irq_rst (b : Block) (c w : Nat) : (b.irq c w).rst = b.rst := rfl
@[simp] theorem Block.irq_heldQ (b : Block) (c w : Nat) : (b.irq c w).heldQ = b.heldQ := rfl
@[simp] theorem Block.irq_moss (b : Block) (c w : Nat) : (b.irq c w).moss = b.moss := rfl
@[simp] theorem Block.irq_grp (b : Block) (c w : Nat) : (b.irq c w).grp = b.grp := rfl
@[simp] theorem Block.irq_migCh (b : Block) (c w : Nat) : (b.irq c w).migCh = b.migCh := rfl
@[simp] theorem Block.irq_mcasts (b : Block) (c w : Nat) : (b.irq c w).mcasts = b.mcasts := rfl
@[simp] theorem Block.irq_sigs (b : Block) (c w : Nat) : (b.irq c w).sigs = b.sigs := rfl
@[simp] theorem Block.irq_samples (b : Block) (c w : Nat) : (b.irq c w).samples = b.samples := rfl
@[simp] theorem Block.irq_bk (b : Block) (c w : Nat) : (b.irq c w).bk = b.bk := rfl
@[simp] theorem Block.irq_rc (b : Block) (c w : Nat) : (b.irq c w).rc = b.rc := rfl
@[simp] theorem Block.irq_sf (b : Block) (c w : Nat) : (b.irq c w).sf = b.sf := rfl
@[simp] theorem Block.irq_misses (b : Block) (c w : Nat) : (b.irq c w).misses = b.misses := rfl
@[simp] theorem Block.irq_pre (b : Block) (c w : Nat) : (b.irq c w).pre = b.pre := rfl
@[simp] theorem Block.irq_plru (b : Block) (c w : Nat) : (b.irq c w).plru = b.plru := rfl
@[simp] theorem Block.irq_isolated (b : Block) (c w : Nat) : (b.irq c w).isolated = b.isolated := rfl
@[simp] theorem Block.irq_pkgSeen (b : Block) (c w : Nat) : (b.irq c w).pkgSeen = b.pkgSeen := rfl
@[simp] theorem Block.irq_stlb (b : Block) (c w : Nat) : (b.irq c w).stlb = b.stlb := rfl
@[simp] theorem Block.irq_wcache (b : Block) (c w : Nat) : (b.irq c w).wcache = b.wcache := rfl
@[simp] theorem Block.irq_cctx (b : Block) (c w : Nat) : (b.irq c w).cctx = b.cctx := rfl
@[simp] theorem Block.irq_wins (b : Block) (c w : Nat) : (b.irq c w).wins = b.wins := rfl
@[simp] theorem Block.irq_inval (b : Block) (c w : Nat) : (b.irq c w).inval = b.inval := rfl
@[simp] theorem Block.irq_tagSet (b : Block) (c w : Nat) : (b.irq c w).tagSet = b.tagSet := rfl
@[simp] theorem Block.irq_terminated (b : Block) (c w : Nat) : (b.irq c w).terminated = b.terminated := rfl
@[simp] theorem Block.irq_termSeq (b : Block) (c w : Nat) : (b.irq c w).termSeq = b.termSeq := rfl
@[simp] theorem Block.irq_irqOwed (b : Block) (c w : Nat) : (b.irq c w).irqOwed = b.irqOwed := rfl
@[simp] theorem Block.irq_dm (b : Block) (c w : Nat) : (b.irq c w).dm = b.dm := rfl
@[simp] theorem Block.irq_qps (b : Block) (c w : Nat) : (b.irq c w).qps = b.qps := rfl
@[simp] theorem Block.irq_ports (b : Block) (c w : Nat) : (b.irq c w).ports = b.ports := rfl
@[simp] theorem Block.irq_regQ (b : Block) (c w : Nat) : (b.irq c w).regQ = b.regQ := rfl
@[simp] theorem Block.irq_snap (b : Block) (c w : Nat) : (b.irq c w).snap = b.snap := rfl
@[simp] theorem Block.irq_pw (b : Block) (c w : Nat) : (b.irq c w).pw = b.pw := rfl
@[simp] theorem Block.irq_mrst (b : Block) (c w : Nat) : (b.irq c w).mrst = b.mrst := rfl
@[simp] theorem Block.irq_lc (b : Block) (c w : Nat) : (b.irq c w).lc = b.lc := rfl
@[simp] theorem Block.irq_tap (b : Block) (c w : Nat) : (b.irq c w).tap = b.tap := rfl

@[simp] theorem Block.setSite_regs (b : Block) (p : Nat) (s : Site) : (b.setSite p s).regs = b.regs := rfl
@[simp] theorem Block.setSite_mem (b : Block) (p : Nat) (s : Site) : (b.setSite p s).mem = b.mem := rfl
@[simp] theorem Block.setSite_tags (b : Block) (p : Nat) (s : Site) : (b.setSite p s).tags = b.tags := rfl
@[simp] theorem Block.setSite_faultQ (b : Block) (p : Nat) (s : Site) : (b.setSite p s).faultQ = b.faultQ := rfl
@[simp] theorem Block.setSite_out (b : Block) (p : Nat) (s : Site) : (b.setSite p s).out = b.out := rfl
@[simp] theorem Block.setSite_free (b : Block) (p : Nat) (s : Site) : (b.setSite p s).free = b.free := rfl
@[simp] theorem Block.setSite_tick (b : Block) (p : Nat) (s : Site) : (b.setSite p s).tick = b.tick := rfl
@[simp] theorem Block.setSite_retires (b : Block) (p : Nat) (s : Site) : (b.setSite p s).retires = b.retires := rfl
@[simp] theorem Block.setSite_rst (b : Block) (p : Nat) (s : Site) : (b.setSite p s).rst = b.rst := rfl
@[simp] theorem Block.setSite_heldQ (b : Block) (p : Nat) (s : Site) : (b.setSite p s).heldQ = b.heldQ := rfl
@[simp] theorem Block.setSite_moss (b : Block) (p : Nat) (s : Site) : (b.setSite p s).moss = b.moss := rfl
@[simp] theorem Block.setSite_grp (b : Block) (p : Nat) (s : Site) : (b.setSite p s).grp = b.grp := rfl
@[simp] theorem Block.setSite_migCh (b : Block) (p : Nat) (s : Site) : (b.setSite p s).migCh = b.migCh := rfl
@[simp] theorem Block.setSite_mcasts (b : Block) (p : Nat) (s : Site) : (b.setSite p s).mcasts = b.mcasts := rfl
@[simp] theorem Block.setSite_sigs (b : Block) (p : Nat) (s : Site) : (b.setSite p s).sigs = b.sigs := rfl
@[simp] theorem Block.setSite_samples (b : Block) (p : Nat) (s : Site) : (b.setSite p s).samples = b.samples := rfl
@[simp] theorem Block.setSite_bk (b : Block) (p : Nat) (s : Site) : (b.setSite p s).bk = b.bk := rfl
@[simp] theorem Block.setSite_rc (b : Block) (p : Nat) (s : Site) : (b.setSite p s).rc = b.rc := rfl
@[simp] theorem Block.setSite_sf (b : Block) (p : Nat) (s : Site) : (b.setSite p s).sf = b.sf := rfl
@[simp] theorem Block.setSite_misses (b : Block) (p : Nat) (s : Site) : (b.setSite p s).misses = b.misses := rfl
@[simp] theorem Block.setSite_pre (b : Block) (p : Nat) (s : Site) : (b.setSite p s).pre = b.pre := rfl
@[simp] theorem Block.setSite_plru (b : Block) (p : Nat) (s : Site) : (b.setSite p s).plru = b.plru := rfl
@[simp] theorem Block.setSite_isolated (b : Block) (p : Nat) (s : Site) : (b.setSite p s).isolated = b.isolated := rfl
@[simp] theorem Block.setSite_pkgSeen (b : Block) (p : Nat) (s : Site) : (b.setSite p s).pkgSeen = b.pkgSeen := rfl
@[simp] theorem Block.setSite_stlb (b : Block) (p : Nat) (s : Site) : (b.setSite p s).stlb = b.stlb := rfl
@[simp] theorem Block.setSite_wcache (b : Block) (p : Nat) (s : Site) : (b.setSite p s).wcache = b.wcache := rfl
@[simp] theorem Block.setSite_cctx (b : Block) (p : Nat) (s : Site) : (b.setSite p s).cctx = b.cctx := rfl
@[simp] theorem Block.setSite_wins (b : Block) (p : Nat) (s : Site) : (b.setSite p s).wins = b.wins := rfl
@[simp] theorem Block.setSite_inval (b : Block) (p : Nat) (s : Site) : (b.setSite p s).inval = b.inval := rfl
@[simp] theorem Block.setSite_tagSet (b : Block) (p : Nat) (s : Site) : (b.setSite p s).tagSet = b.tagSet := rfl
@[simp] theorem Block.setSite_terminated (b : Block) (p : Nat) (s : Site) : (b.setSite p s).terminated = b.terminated := rfl
@[simp] theorem Block.setSite_termSeq (b : Block) (p : Nat) (s : Site) : (b.setSite p s).termSeq = b.termSeq := rfl
@[simp] theorem Block.setSite_irqOwed (b : Block) (p : Nat) (s : Site) : (b.setSite p s).irqOwed = b.irqOwed := rfl
@[simp] theorem Block.setSite_dm (b : Block) (p : Nat) (s : Site) : (b.setSite p s).dm = b.dm := rfl
@[simp] theorem Block.setSite_qps (b : Block) (p : Nat) (s : Site) : (b.setSite p s).qps = b.qps := rfl
@[simp] theorem Block.setSite_ports (b : Block) (p : Nat) (s : Site) : (b.setSite p s).ports = b.ports := rfl
@[simp] theorem Block.setSite_regQ (b : Block) (p : Nat) (s : Site) : (b.setSite p s).regQ = b.regQ := rfl
@[simp] theorem Block.setSite_snap (b : Block) (p : Nat) (s : Site) : (b.setSite p s).snap = b.snap := rfl
@[simp] theorem Block.setSite_pw (b : Block) (p : Nat) (s : Site) : (b.setSite p s).pw = b.pw := rfl
@[simp] theorem Block.setSite_mrst (b : Block) (p : Nat) (s : Site) : (b.setSite p s).mrst = b.mrst := rfl
@[simp] theorem Block.setSite_lc (b : Block) (p : Nat) (s : Site) : (b.setSite p s).lc = b.lc := rfl
@[simp] theorem Block.setSite_tap (b : Block) (p : Nat) (s : Site) : (b.setSite p s).tap = b.tap := rfl

@[simp] theorem Block.onSite_regs (b : Block) (p : Nat) (f : Site → Site) : (b.onSite p f).regs = b.regs := rfl
@[simp] theorem Block.onSite_mem (b : Block) (p : Nat) (f : Site → Site) : (b.onSite p f).mem = b.mem := rfl
@[simp] theorem Block.onSite_tags (b : Block) (p : Nat) (f : Site → Site) : (b.onSite p f).tags = b.tags := rfl
@[simp] theorem Block.onSite_faultQ (b : Block) (p : Nat) (f : Site → Site) : (b.onSite p f).faultQ = b.faultQ := rfl
@[simp] theorem Block.onSite_out (b : Block) (p : Nat) (f : Site → Site) : (b.onSite p f).out = b.out := rfl
@[simp] theorem Block.onSite_free (b : Block) (p : Nat) (f : Site → Site) : (b.onSite p f).free = b.free := rfl
@[simp] theorem Block.onSite_tick (b : Block) (p : Nat) (f : Site → Site) : (b.onSite p f).tick = b.tick := rfl
@[simp] theorem Block.onSite_retires (b : Block) (p : Nat) (f : Site → Site) : (b.onSite p f).retires = b.retires := rfl
@[simp] theorem Block.onSite_rst (b : Block) (p : Nat) (f : Site → Site) : (b.onSite p f).rst = b.rst := rfl
@[simp] theorem Block.onSite_heldQ (b : Block) (p : Nat) (f : Site → Site) : (b.onSite p f).heldQ = b.heldQ := rfl
@[simp] theorem Block.onSite_moss (b : Block) (p : Nat) (f : Site → Site) : (b.onSite p f).moss = b.moss := rfl
@[simp] theorem Block.onSite_grp (b : Block) (p : Nat) (f : Site → Site) : (b.onSite p f).grp = b.grp := rfl
@[simp] theorem Block.onSite_migCh (b : Block) (p : Nat) (f : Site → Site) : (b.onSite p f).migCh = b.migCh := rfl
@[simp] theorem Block.onSite_mcasts (b : Block) (p : Nat) (f : Site → Site) : (b.onSite p f).mcasts = b.mcasts := rfl
@[simp] theorem Block.onSite_sigs (b : Block) (p : Nat) (f : Site → Site) : (b.onSite p f).sigs = b.sigs := rfl
@[simp] theorem Block.onSite_samples (b : Block) (p : Nat) (f : Site → Site) : (b.onSite p f).samples = b.samples := rfl
@[simp] theorem Block.onSite_bk (b : Block) (p : Nat) (f : Site → Site) : (b.onSite p f).bk = b.bk := rfl
@[simp] theorem Block.onSite_rc (b : Block) (p : Nat) (f : Site → Site) : (b.onSite p f).rc = b.rc := rfl
@[simp] theorem Block.onSite_sf (b : Block) (p : Nat) (f : Site → Site) : (b.onSite p f).sf = b.sf := rfl
@[simp] theorem Block.onSite_misses (b : Block) (p : Nat) (f : Site → Site) : (b.onSite p f).misses = b.misses := rfl
@[simp] theorem Block.onSite_pre (b : Block) (p : Nat) (f : Site → Site) : (b.onSite p f).pre = b.pre := rfl
@[simp] theorem Block.onSite_plru (b : Block) (p : Nat) (f : Site → Site) : (b.onSite p f).plru = b.plru := rfl
@[simp] theorem Block.onSite_isolated (b : Block) (p : Nat) (f : Site → Site) : (b.onSite p f).isolated = b.isolated := rfl
@[simp] theorem Block.onSite_pkgSeen (b : Block) (p : Nat) (f : Site → Site) : (b.onSite p f).pkgSeen = b.pkgSeen := rfl
@[simp] theorem Block.onSite_stlb (b : Block) (p : Nat) (f : Site → Site) : (b.onSite p f).stlb = b.stlb := rfl
@[simp] theorem Block.onSite_wcache (b : Block) (p : Nat) (f : Site → Site) : (b.onSite p f).wcache = b.wcache := rfl
@[simp] theorem Block.onSite_cctx (b : Block) (p : Nat) (f : Site → Site) : (b.onSite p f).cctx = b.cctx := rfl
@[simp] theorem Block.onSite_wins (b : Block) (p : Nat) (f : Site → Site) : (b.onSite p f).wins = b.wins := rfl
@[simp] theorem Block.onSite_inval (b : Block) (p : Nat) (f : Site → Site) : (b.onSite p f).inval = b.inval := rfl
@[simp] theorem Block.onSite_tagSet (b : Block) (p : Nat) (f : Site → Site) : (b.onSite p f).tagSet = b.tagSet := rfl
@[simp] theorem Block.onSite_terminated (b : Block) (p : Nat) (f : Site → Site) : (b.onSite p f).terminated = b.terminated := rfl
@[simp] theorem Block.onSite_termSeq (b : Block) (p : Nat) (f : Site → Site) : (b.onSite p f).termSeq = b.termSeq := rfl
@[simp] theorem Block.onSite_irqOwed (b : Block) (p : Nat) (f : Site → Site) : (b.onSite p f).irqOwed = b.irqOwed := rfl
@[simp] theorem Block.onSite_dm (b : Block) (p : Nat) (f : Site → Site) : (b.onSite p f).dm = b.dm := rfl
@[simp] theorem Block.onSite_qps (b : Block) (p : Nat) (f : Site → Site) : (b.onSite p f).qps = b.qps := rfl
@[simp] theorem Block.onSite_ports (b : Block) (p : Nat) (f : Site → Site) : (b.onSite p f).ports = b.ports := rfl
@[simp] theorem Block.onSite_regQ (b : Block) (p : Nat) (f : Site → Site) : (b.onSite p f).regQ = b.regQ := rfl
@[simp] theorem Block.onSite_snap (b : Block) (p : Nat) (f : Site → Site) : (b.onSite p f).snap = b.snap := rfl
@[simp] theorem Block.onSite_pw (b : Block) (p : Nat) (f : Site → Site) : (b.onSite p f).pw = b.pw := rfl
@[simp] theorem Block.onSite_mrst (b : Block) (p : Nat) (f : Site → Site) : (b.onSite p f).mrst = b.mrst := rfl
@[simp] theorem Block.onSite_lc (b : Block) (p : Nat) (f : Site → Site) : (b.onSite p f).lc = b.lc := rfl
@[simp] theorem Block.onSite_tap (b : Block) (p : Nat) (f : Site → Site) : (b.onSite p f).tap = b.tap := rfl

@[simp] theorem Block.draw_regs (b : Block) (w : Nat) : (b.draw w).2.regs = b.regs := rfl
@[simp] theorem Block.draw_mem (b : Block) (w : Nat) : (b.draw w).2.mem = b.mem := rfl
@[simp] theorem Block.draw_tags (b : Block) (w : Nat) : (b.draw w).2.tags = b.tags := rfl
@[simp] theorem Block.draw_sites (b : Block) (w : Nat) : (b.draw w).2.sites = b.sites := rfl
@[simp] theorem Block.draw_faultQ (b : Block) (w : Nat) : (b.draw w).2.faultQ = b.faultQ := rfl
@[simp] theorem Block.draw_out (b : Block) (w : Nat) : (b.draw w).2.out = b.out := rfl
@[simp] theorem Block.draw_tick (b : Block) (w : Nat) : (b.draw w).2.tick = b.tick := rfl
@[simp] theorem Block.draw_retires (b : Block) (w : Nat) : (b.draw w).2.retires = b.retires := rfl
@[simp] theorem Block.draw_rst (b : Block) (w : Nat) : (b.draw w).2.rst = b.rst := rfl
@[simp] theorem Block.draw_heldQ (b : Block) (w : Nat) : (b.draw w).2.heldQ = b.heldQ := rfl
@[simp] theorem Block.draw_moss (b : Block) (w : Nat) : (b.draw w).2.moss = b.moss := rfl
@[simp] theorem Block.draw_grp (b : Block) (w : Nat) : (b.draw w).2.grp = b.grp := rfl
@[simp] theorem Block.draw_migCh (b : Block) (w : Nat) : (b.draw w).2.migCh = b.migCh := rfl
@[simp] theorem Block.draw_mcasts (b : Block) (w : Nat) : (b.draw w).2.mcasts = b.mcasts := rfl
@[simp] theorem Block.draw_sigs (b : Block) (w : Nat) : (b.draw w).2.sigs = b.sigs := rfl
@[simp] theorem Block.draw_samples (b : Block) (w : Nat) : (b.draw w).2.samples = b.samples := rfl
@[simp] theorem Block.draw_bk (b : Block) (w : Nat) : (b.draw w).2.bk = b.bk := rfl
@[simp] theorem Block.draw_rc (b : Block) (w : Nat) : (b.draw w).2.rc = b.rc := rfl
@[simp] theorem Block.draw_sf (b : Block) (w : Nat) : (b.draw w).2.sf = b.sf := rfl
@[simp] theorem Block.draw_misses (b : Block) (w : Nat) : (b.draw w).2.misses = b.misses := rfl
@[simp] theorem Block.draw_pre (b : Block) (w : Nat) : (b.draw w).2.pre = b.pre := rfl
@[simp] theorem Block.draw_plru (b : Block) (w : Nat) : (b.draw w).2.plru = b.plru := rfl
@[simp] theorem Block.draw_isolated (b : Block) (w : Nat) : (b.draw w).2.isolated = b.isolated := rfl
@[simp] theorem Block.draw_pkgSeen (b : Block) (w : Nat) : (b.draw w).2.pkgSeen = b.pkgSeen := rfl
@[simp] theorem Block.draw_stlb (b : Block) (w : Nat) : (b.draw w).2.stlb = b.stlb := rfl
@[simp] theorem Block.draw_wcache (b : Block) (w : Nat) : (b.draw w).2.wcache = b.wcache := rfl
@[simp] theorem Block.draw_cctx (b : Block) (w : Nat) : (b.draw w).2.cctx = b.cctx := rfl
@[simp] theorem Block.draw_wins (b : Block) (w : Nat) : (b.draw w).2.wins = b.wins := rfl
@[simp] theorem Block.draw_inval (b : Block) (w : Nat) : (b.draw w).2.inval = b.inval := rfl
@[simp] theorem Block.draw_tagSet (b : Block) (w : Nat) : (b.draw w).2.tagSet = b.tagSet := rfl
@[simp] theorem Block.draw_terminated (b : Block) (w : Nat) : (b.draw w).2.terminated = b.terminated := rfl
@[simp] theorem Block.draw_termSeq (b : Block) (w : Nat) : (b.draw w).2.termSeq = b.termSeq := rfl
@[simp] theorem Block.draw_irqOwed (b : Block) (w : Nat) : (b.draw w).2.irqOwed = b.irqOwed := rfl
@[simp] theorem Block.draw_dm (b : Block) (w : Nat) : (b.draw w).2.dm = b.dm := rfl
@[simp] theorem Block.draw_qps (b : Block) (w : Nat) : (b.draw w).2.qps = b.qps := rfl
@[simp] theorem Block.draw_ports (b : Block) (w : Nat) : (b.draw w).2.ports = b.ports := rfl
@[simp] theorem Block.draw_regQ (b : Block) (w : Nat) : (b.draw w).2.regQ = b.regQ := rfl
@[simp] theorem Block.draw_snap (b : Block) (w : Nat) : (b.draw w).2.snap = b.snap := rfl
@[simp] theorem Block.draw_pw (b : Block) (w : Nat) : (b.draw w).2.pw = b.pw := rfl
@[simp] theorem Block.draw_mrst (b : Block) (w : Nat) : (b.draw w).2.mrst = b.mrst := rfl
@[simp] theorem Block.draw_lc (b : Block) (w : Nat) : (b.draw w).2.lc = b.lc := rfl
@[simp] theorem Block.draw_tap (b : Block) (w : Nat) : (b.draw w).2.tap = b.tap := rfl

@[simp] theorem Block.freshSeed_regs (b : Block) : (b.freshSeed).2.regs = b.regs := rfl
@[simp] theorem Block.freshSeed_mem (b : Block) : (b.freshSeed).2.mem = b.mem := rfl
@[simp] theorem Block.freshSeed_tags (b : Block) : (b.freshSeed).2.tags = b.tags := rfl
@[simp] theorem Block.freshSeed_sites (b : Block) : (b.freshSeed).2.sites = b.sites := rfl
@[simp] theorem Block.freshSeed_faultQ (b : Block) : (b.freshSeed).2.faultQ = b.faultQ := rfl
@[simp] theorem Block.freshSeed_out (b : Block) : (b.freshSeed).2.out = b.out := rfl
@[simp] theorem Block.freshSeed_tick (b : Block) : (b.freshSeed).2.tick = b.tick := rfl
@[simp] theorem Block.freshSeed_retires (b : Block) : (b.freshSeed).2.retires = b.retires := rfl
@[simp] theorem Block.freshSeed_rst (b : Block) : (b.freshSeed).2.rst = b.rst := rfl
@[simp] theorem Block.freshSeed_heldQ (b : Block) : (b.freshSeed).2.heldQ = b.heldQ := rfl
@[simp] theorem Block.freshSeed_moss (b : Block) : (b.freshSeed).2.moss = b.moss := rfl
@[simp] theorem Block.freshSeed_grp (b : Block) : (b.freshSeed).2.grp = b.grp := rfl
@[simp] theorem Block.freshSeed_migCh (b : Block) : (b.freshSeed).2.migCh = b.migCh := rfl
@[simp] theorem Block.freshSeed_mcasts (b : Block) : (b.freshSeed).2.mcasts = b.mcasts := rfl
@[simp] theorem Block.freshSeed_sigs (b : Block) : (b.freshSeed).2.sigs = b.sigs := rfl
@[simp] theorem Block.freshSeed_samples (b : Block) : (b.freshSeed).2.samples = b.samples := rfl
@[simp] theorem Block.freshSeed_bk (b : Block) : (b.freshSeed).2.bk = b.bk := rfl
@[simp] theorem Block.freshSeed_rc (b : Block) : (b.freshSeed).2.rc = b.rc := rfl
@[simp] theorem Block.freshSeed_sf (b : Block) : (b.freshSeed).2.sf = b.sf := rfl
@[simp] theorem Block.freshSeed_misses (b : Block) : (b.freshSeed).2.misses = b.misses := rfl
@[simp] theorem Block.freshSeed_pre (b : Block) : (b.freshSeed).2.pre = b.pre := rfl
@[simp] theorem Block.freshSeed_plru (b : Block) : (b.freshSeed).2.plru = b.plru := rfl
@[simp] theorem Block.freshSeed_isolated (b : Block) : (b.freshSeed).2.isolated = b.isolated := rfl
@[simp] theorem Block.freshSeed_pkgSeen (b : Block) : (b.freshSeed).2.pkgSeen = b.pkgSeen := rfl
@[simp] theorem Block.freshSeed_stlb (b : Block) : (b.freshSeed).2.stlb = b.stlb := rfl
@[simp] theorem Block.freshSeed_wcache (b : Block) : (b.freshSeed).2.wcache = b.wcache := rfl
@[simp] theorem Block.freshSeed_cctx (b : Block) : (b.freshSeed).2.cctx = b.cctx := rfl
@[simp] theorem Block.freshSeed_wins (b : Block) : (b.freshSeed).2.wins = b.wins := rfl
@[simp] theorem Block.freshSeed_inval (b : Block) : (b.freshSeed).2.inval = b.inval := rfl
@[simp] theorem Block.freshSeed_tagSet (b : Block) : (b.freshSeed).2.tagSet = b.tagSet := rfl
@[simp] theorem Block.freshSeed_terminated (b : Block) : (b.freshSeed).2.terminated = b.terminated := rfl
@[simp] theorem Block.freshSeed_termSeq (b : Block) : (b.freshSeed).2.termSeq = b.termSeq := rfl
@[simp] theorem Block.freshSeed_irqOwed (b : Block) : (b.freshSeed).2.irqOwed = b.irqOwed := rfl
@[simp] theorem Block.freshSeed_dm (b : Block) : (b.freshSeed).2.dm = b.dm := rfl
@[simp] theorem Block.freshSeed_qps (b : Block) : (b.freshSeed).2.qps = b.qps := rfl
@[simp] theorem Block.freshSeed_ports (b : Block) : (b.freshSeed).2.ports = b.ports := rfl
@[simp] theorem Block.freshSeed_regQ (b : Block) : (b.freshSeed).2.regQ = b.regQ := rfl
@[simp] theorem Block.freshSeed_snap (b : Block) : (b.freshSeed).2.snap = b.snap := rfl
@[simp] theorem Block.freshSeed_pw (b : Block) : (b.freshSeed).2.pw = b.pw := rfl
@[simp] theorem Block.freshSeed_mrst (b : Block) : (b.freshSeed).2.mrst = b.mrst := rfl
@[simp] theorem Block.freshSeed_lc (b : Block) : (b.freshSeed).2.lc = b.lc := rfl
@[simp] theorem Block.freshSeed_tap (b : Block) : (b.freshSeed).2.tap = b.tap := rfl

@[simp] theorem Block.report_faultQ (b : Block) (r : FaultRec) : (b.report r).faultQ = b.faultQ ++ [r] := rfl
@[simp] theorem Block.emit_out (b : Block) (o : Out) : (b.emit o).out = b.out ++ [o] := rfl
@[simp] theorem Block.irq_out (b : Block) (c w : Nat) : (b.irq c w).out = b.out ++ [.irq c w] := rfl
@[simp] theorem Block.draw_free (b : Block) (w : Nat) : (b.draw w).2.free = b.free + 1 := rfl
@[simp] theorem Block.freshSeed_free (b : Block) : b.freshSeed.2.free = b.free + 1 := rfl

/-! ### Registers -/

/-- A register field reads back what was written, cut to its width. -/
@[simp] theorem Block.rd_wr_self (b : Block) (f : Field) (v i j : Nat) : (b.wr f v i j).rd f i j = v % 2 ^ f.width := by
  simp [Block.rd, Block.wr]

/-- A write of one register field leaves every other as it reads. -/
theorem Block.rd_wr_ne (b : Block) {f g : Field} {i j k l : Nat} (v : Nat) (h : f.key i j ≠ g.key k l) :
    (b.wr f v i j).rd g k l = b.rd g k l := SMap.get_set_ne _ _ _ _ h

/-- Fields with different numbers have different keys. -/
theorem Field.key_ne {f g : Field} (h : f.id ≠ g.id) (i j k l : Nat) : f.key i j ≠ g.key k l := by
  unfold Field.key; omega

/-- A write of a field leaves a field of another number as it reads. -/
theorem Block.rd_wr_id (b : Block) {f g : Field} (h : f.id ≠ g.id) (v i j k l : Nat) :
    (b.wr f v i j).rd g k l = b.rd g k l := Block.rd_wr_ne b v (Field.key_ne h i j k l)

@[simp] theorem Block.rd_report (b : Block) (r : FaultRec) (f : Field) (i j : Nat) : (b.report r).rd f i j = b.rd f i j := rfl
@[simp] theorem Block.rd_emit (b : Block) (o : Out) (f : Field) (i j : Nat) : (b.emit o).rd f i j = b.rd f i j := rfl
@[simp] theorem Block.rd_irq (b : Block) (c w : Nat) (f : Field) (i j : Nat) : (b.irq c w).rd f i j = b.rd f i j := rfl
@[simp] theorem Block.rd_setSite (b : Block) (p : Nat) (s : Site) (f : Field) (i j : Nat) :
    (b.setSite p s).rd f i j = b.rd f i j := rfl
@[simp] theorem Block.rd_onSite (b : Block) (p : Nat) (g : Site → Site) (f : Field) (i j : Nat) :
    (b.onSite p g).rd f i j = b.rd f i j := rfl

/-! ### Sites -/

@[simp] theorem Block.site_wr (b : Block) (f : Field) (v i j p : Nat) : (b.wr f v i j).site p = b.site p := rfl
@[simp] theorem Block.site_report (b : Block) (r : FaultRec) (p : Nat) : (b.report r).site p = b.site p := rfl
@[simp] theorem Block.site_emit (b : Block) (o : Out) (p : Nat) : (b.emit o).site p = b.site p := rfl

/-- A site reads back what it was set to. -/
@[simp] theorem Block.site_setSite_self (b : Block) (p : Nat) (s : Site) : (b.setSite p s).site p = s := by
  simp [Block.site, Block.setSite]

/-- Setting one site leaves every other. -/
theorem Block.site_setSite_ne (b : Block) {p q : Nat} (s : Site) (h : p ≠ q) : (b.setSite p s).site q = b.site q :=
  SMap.get_set_ne _ _ _ _ h

@[simp] theorem Block.site_onSite_self (b : Block) (p : Nat) (g : Site → Site) : (b.onSite p g).site p = g (b.site p) := by
  simp [Block.onSite]

theorem Block.site_onSite_ne (b : Block) {p q : Nat} (g : Site → Site) (h : p ≠ q) : (b.onSite p g).site q = b.site q :=
  Block.site_setSite_ne b _ h

/-! ### The writes that a command's own accesses make -/

/-- A command whose accesses wrote no register has none to carry out. -/
@[simp] theorem Block.drainRegs_nil (b : Block) (h : b.regQ = []) : b.drainRegs = b := by
  cases b; simp only at h; subst h; rfl

end Sys2Proof.Machine
end

