-- ==== Sys2Proof/Laws/After.lean ====
section
/-! SUPPORT. `After a b`: what holds between the machine before and after ANY piece of the work a
command does.  Memory stays in its canonical form, the trace of outputs only grows at its end, and
the counter of free values never goes back.  The files After*.lean beside this one say it once for
each function of the model (`<function>_after`), so that a proof about a whole command cites one lemma. -/

namespace Sys2Proof.Machine

/-- Between `a` and a later `b`: canonical memory stays canonical, outputs are only appended, the
counter of free values does not go back. -/
def After (a b : Block) : Prop := (a.mem.wf = true → b.mem.wf = true) ∧ a.out <+: b.out ∧ a.free ≤ b.free

theorem After.refl (a : Block) : After a a := ⟨id, List.prefix_refl _, Nat.le_refl _⟩

theorem After.trans {a b c : Block} (h : After a b) (k : After b c) : After a c := ⟨fun x => k.1 (h.1 x), h.2.1.trans k.2.1, h.2.2.trans k.2.2⟩

theorem After.same {a b c : Block} (h : After a b) (m : c.mem = b.mem) (o : c.out = b.out) (f : c.free = b.free) : After a c :=
  ⟨by rw [m]; exact h.1, by rw [o]; exact h.2.1, by rw [f]; exact h.2.2⟩

theorem After.mem {a b : Block} (h : After a b) {m : Mem} (hm : b.mem.wf = true → m.wf = true) : After a { b with mem := m } :=
  ⟨fun x => hm (h.1 x), h.2.1, h.2.2⟩

theorem After.ite {a x y : Block} {c : Prop} [Decidable c] (hx : After a x) (hy : After a y) : After a (if c then x else y) := by split <;> assumption

theorem After.ite2 {α : Type} {a : Block} {x y : α × Block} {c : Prop} [Decidable c] (hx : After a x.2) (hy : After a y.2) : After a (if c then x else y).2 := by split <;> assumption

theorem After.ite3 {α β : Type} {a : Block} {x y : α × β × Block} {c : Prop} [Decidable c] (hx : After a x.2.2) (hy : After a y.2.2) : After a (if c then x else y).2.2 := by split <;> assumption

theorem After.snd {α : Type} {a b : Block} {e : α × Block} {v : α} (h : e = (v, b)) (he : After a e.2) : After a b := by subst h; exact he

theorem After.snd3 {α β : Type} {a b : Block} {e : α × β × Block} {v : α} {w : β} (h : e = (v, w, b)) (he : After a e.2.2) : After a b := by subst h; exact he

theorem After.fst {α : Type} {a b : Block} {e : Block × α} {v : α} (h : e = (b, v)) (he : After a e.1) : After a b := by subst h; exact he

theorem After.foldl {α : Type} {a b : Block} {f : Block → α → Block} {l : List α} (h : After a b) (hf : ∀ b x, After a b → After a (f b x)) : After a (l.foldl f b) := by
  induction l generalizing b with
  | nil => exact h
  | cons x l ih => exact ih (hf _ _ h)

theorem After.foldl2 {α β : Type} {a : Block} {b : β × Block} {f : β × Block → α → β × Block} {l : List α} (h : After a b.2) (hf : ∀ b x, After a b.2 → After a (f b x).2) : After a (l.foldl f b).2 := by
  induction l generalizing b with
  | nil => exact h
  | cons x l ih => exact ih (hf _ _ h)

theorem After.foldl3 {α β γ : Type} {a : Block} {b : β × γ × Block} {f : β × γ × Block → α → β × γ × Block} {l : List α} (h : After a b.2.2) (hf : ∀ b x, After a b.2.2 → After a (f b x).2.2) : After a (l.foldl f b).2.2 := by
  induction l generalizing b with
  | nil => exact h
  | cons x l ih => exact ih (hf _ _ h)

theorem After.mk {a b : Block} (f_regs : SMap Nat) (f_tags : SMap Nat) (f_sites : SMap Site) (f_faultQ : List FaultRec) (f_tick : TickSt) (f_retires : List Retire) (f_rst : Option RstRun) (f_heldQ : List (Nat × HeldReq)) (f_moss : Moss) (f_grp : GrpSt) (f_migCh : SMap Nat) (f_mcasts : List Mcast) (f_sigs : List Sig) (f_samples : List Sample) (f_bk : Bracken) (f_rc : List RcLine) (f_sf : List SfEntry) (f_misses : List RcMiss) (f_pre : List RcPre) (f_plru : SMap Nat) (f_isolated : NSet) (f_pkgSeen : NSet) (f_stlb : List TlbE) (f_wcache : List WalkE) (f_cctx : List CtxE) (f_wins : List WinE) (f_inval : Option Inval) (f_tagSet : Option (Nat × Nat × Nat)) (f_terminated : NSet) (f_termSeq : SMap Nat) (f_irqOwed : Bool) (f_dm : Damask) (f_qps : List Qp) (f_ports : Ports) (f_regQ : List (Nat × Nat × Nat × Nat)) (f_snap : Snap) (f_pw : Power) (f_mrst : ModRst) (f_lc : Lichen) (f_tap : Tap) (h : After a b) : After a (Block.mk f_regs b.mem f_tags f_sites f_faultQ b.out b.free f_tick f_retires f_rst f_heldQ f_moss f_grp f_migCh f_mcasts f_sigs f_samples f_bk f_rc f_sf f_misses f_pre f_plru f_isolated f_pkgSeen f_stlb f_wcache f_cctx f_wins f_inval f_tagSet f_terminated f_termSeq f_irqOwed f_dm f_qps f_ports f_regQ f_snap f_pw f_mrst f_lc f_tap) := After.same h rfl rfl rfl

theorem After.mkWord {a b : Block} (f_regs : SMap Nat) (f_tags : SMap Nat) (f_sites : SMap Site) (f_faultQ : List FaultRec) (f_tick : TickSt) (f_retires : List Retire) (f_rst : Option RstRun) (f_heldQ : List (Nat × HeldReq)) (f_moss : Moss) (f_grp : GrpSt) (f_migCh : SMap Nat) (f_mcasts : List Mcast) (f_sigs : List Sig) (f_samples : List Sample) (f_bk : Bracken) (f_rc : List RcLine) (f_sf : List SfEntry) (f_misses : List RcMiss) (f_pre : List RcPre) (f_plru : SMap Nat) (f_isolated : NSet) (f_pkgSeen : NSet) (f_stlb : List TlbE) (f_wcache : List WalkE) (f_cctx : List CtxE) (f_wins : List WinE) (f_inval : Option Inval) (f_tagSet : Option (Nat × Nat × Nat)) (f_terminated : NSet) (f_termSeq : SMap Nat) (f_irqOwed : Bool) (f_dm : Damask) (f_qps : List Qp) (f_ports : Ports) (f_regQ : List (Nat × Nat × Nat × Nat)) (f_snap : Snap) (f_pw : Power) (f_mrst : ModRst) (f_lc : Lichen) (f_tap : Tap) {k : Nat} {w : Cw} (h : After a b) : After a (Block.mk f_regs (b.mem.setWord k w) f_tags f_sites f_faultQ b.out b.free f_tick f_retires f_rst f_heldQ f_moss f_grp f_migCh f_mcasts f_sigs f_samples f_bk f_rc f_sf f_misses f_pre f_plru f_isolated f_pkgSeen f_stlb f_wcache f_cctx f_wins f_inval f_tagSet f_terminated f_termSeq f_irqOwed f_dm f_qps f_ports f_regQ f_snap f_pw f_mrst f_lc f_tap) := ⟨fun x => Mem.wf_setWord (h.1 x) _ _, h.2.1, h.2.2⟩

theorem After.snd4 {α β γ : Type} {a b : Block} {e : α × β × γ × Block} {v : α} {w : β} {x : γ} (h : e = (v, w, x, b)) (he : After a e.2.2.2) : After a b := by subst h; exact he

theorem After.ite1 {α : Type} {a : Block} {x y : Block × α} {c : Prop} [Decidable c] (hx : After a x.1) (hy : After a y.1) : After a (if c then x else y).1 := by split <;> assumption

theorem After.ite4 {α β γ : Type} {a : Block} {x y : α × β × γ × Block} {c : Prop} [Decidable c] (hx : After a x.2.2.2) (hy : After a y.2.2.2) : After a (if c then x else y).2.2.2 := by split <;> assumption

theorem After.foldl1 {α β : Type} {a : Block} {b : Block × β} {f : Block × β → α → Block × β} {l : List α} (h : After a b.1) (hf : ∀ b x, After a b.1 → After a (f b x).1) : After a (l.foldl f b).1 := by
  induction l generalizing b with
  | nil => exact h
  | cons x l ih => exact ih (hf _ _ h)

theorem After.foldl4 {α β γ δ : Type} {a : Block} {b : β × γ × δ × Block} {f : β × γ × δ × Block → α → β × γ × δ × Block} {l : List α} (h : After a b.2.2.2) (hf : ∀ b x, After a b.2.2.2 → After a (f b x).2.2.2) : After a (l.foldl f b).2.2.2 := by
  induction l generalizing b with
  | nil => exact h
  | cons x l ih => exact ih (hf _ _ h)

theorem Block.each_after {α : Type} {a b : Block} {l : List α} {f : Block → α → Block} (h : After a b) (hf : ∀ b x, After a b → After a (f b x)) : After a (b.each l f) := After.foldl h hf

theorem Block.done_after {α : Type} {a : Block} {r : α × Block} (h : After a r.2) : After a (Block.done r) := h
end Sys2Proof.Machine
end

