-- ==== Sys2Proof/Laws/AfterMemory.lean ====
section
/-! SUPPORT. What the memory and port operations, the Damask and translation layers and the shared maintenance and mapping operations do: one lemma per function, in the terms of `After`. -/

namespace Sys2Proof.Machine
open Reg

/-! `Sys2Proof.Machine.Ops` -/

theorem Block.wr_after {a b : Block} (f : Field) (v : Nat) (i : Nat) (j : Nat) (h : After a b) : After a (b.wr f v i j) := by
  unfold Block.wr
  with_reducible repeat' first | assumption | apply After.mk

theorem Block.inc_after {a b : Block} (f : Field) (n : Nat) (i : Nat) (j : Nat) (h : After a b) : After a (b.inc f n i j) := by
  unfold Block.inc
  with_reducible repeat' first | assumption | apply Block.wr_after

theorem Block.addWrap_after {a b : Block} (f : Field) (n : Nat) (i : Nat) (j : Nat) (h : After a b) : After a (b.addWrap f n i j) := by
  unfold Block.addWrap
  with_reducible repeat' first | assumption | apply Block.wr_after

theorem Block.clearRegs_after {a b : Block} (p : Field → Nat → Nat → Bool) (h : After a b) : After a (b.clearRegs p) := by
  unfold Block.clearRegs
  with_reducible repeat' first | assumption | apply After.mk

theorem Block.draw_after {a b : Block} (w : Nat) (h : After a b) : After a (b.draw w).2 := by
  exact ⟨h.1, h.2.1, Nat.le_succ_of_le h.2.2⟩

theorem Block.freshSeed_after {a b : Block}  (h : After a b) : After a (b.freshSeed).2 := by
  exact ⟨h.1, h.2.1, Nat.le_succ_of_le h.2.2⟩

theorem Block.room_after {a b : Block} {α : Type} (n : Nat) (l : List α) (h : After a b) : After a (Block.room b n l).2 := by
  unfold Block.room
  with_reducible repeat' first | assumption | apply After.ite2 | apply Block.draw_after

theorem Block.enterAll_after {a y3 : Block} {α : Type} (n : Nat) (y2 : List α) (y4 : List α) (h : After a y3) : After a (Block.enterAll n y2 y3 y4).2 := by
  induction y2 generalizing y3 n y4 with
  | nil =>
    simp only [Block.enterAll]
    with_reducible repeat' assumption
  | cons t l ih =>
    simp only [Block.enterAll]
    with_reducible repeat' first | assumption | apply Block.room_after | apply ih

theorem Block.report_after {a b : Block} (r : FaultRec) (h : After a b) : After a (b.report r) := by
  unfold Block.report
  with_reducible repeat' first | assumption | apply After.mk

theorem Block.emit_after {a b : Block} (o : Out) (h : After a b) : After a (b.emit o) := by
  exact ⟨h.1, h.2.1.trans (List.prefix_append _ _), h.2.2⟩

theorem Block.irq_after {a b : Block} (core : Nat) (why : Nat) (h : After a b) : After a (b.irq core why) := by
  unfold Block.irq
  with_reducible repeat' first | assumption | apply Block.emit_after

theorem Block.whenB_after {a b : Block} (c : Bool) (f : Block → Block) (h : After a b) (hf : ∀ c0, After a c0 → After a (f c0)) : After a (b.whenB c f) := by
  unfold Block.whenB
  with_reducible repeat' first | assumption | apply After.ite | apply hf

theorem Block.setSite_after {a b : Block} (p : Nat) (s : Site) (h : After a b) : After a (b.setSite p s) := by
  unfold Block.setSite
  with_reducible repeat' first | assumption | apply After.mk

theorem Block.onSite_after {a b : Block} (p : Nat) (f : Site → Site) (h : After a b) : After a (b.onSite p f) := by
  unfold Block.onSite
  with_reducible repeat' first | assumption | apply Block.setSite_after

/-! `Sys2Proof.Machine.Flags` -/

theorem Block.writeField_after {a b : Block} (f : Field) (i : Nat) (j : Nat) (v : Nat) (h : After a b) : After a (b.writeField f i j v) := by
  unfold Block.writeField
  with_reducible repeat' first | assumption | apply Block.wr_after | split

theorem Block.afterRead_after {a b : Block} (f : Field) (i : Nat) (j : Nat) (h : After a b) : After a (b.afterRead f i j) := by
  unfold Block.afterRead
  with_reducible repeat' first | assumption | apply Block.wr_after | split

theorem Block.cfgErr_after {a b : Block} (f : Field) (i : Nat) (h : After a b) : After a (b.cfgErr f i) := by
  unfold Block.cfgErr
  with_reducible repeat' first | assumption | apply Block.wr_after

/-! `Sys2Proof.Machine.RegSpace` -/

theorem Block.atSnap_after {a b : Block}  (h : After a b) : After a (b.atSnap) := by
  unfold Block.atSnap
  with_reducible repeat' first | assumption | dsimp only | apply After.mk

theorem Block.readOne_after {a b : Block} (f : Field) (i : Nat) (j : Nat) (h : After a b) : After a (b.readOne f i j).2 := by
  unfold Block.readOne
  with_reducible repeat' first | assumption | apply After.ite2 | apply Block.draw_after | apply Block.afterRead_after

theorem Block.readReg_after {a b : Block} (r : RegAt) (h : After a b) : After a (b.readReg r).2 := by
  unfold Block.readReg
  with_reducible repeat' first | (intro) | assumption | apply Block.readOne_after | apply After.foldl2

theorem Block.unmapped_after {a b : Block} (ctx : Nat) (off : Nat) (cause : Nat) (h : After a b) : After a (b.unmapped ctx off cause) := by
  unfold Block.unmapped
  with_reducible repeat' first | assumption | apply Block.report_after

theorem Block.regRead_after {a b : Block} (ctx : Nat) (off : Nat) (n : Nat) (h : After a b) : After a (b.regRead ctx off n).2 := by
  unfold Block.regRead
  with_reducible repeat' first | assumption | apply After.ite2 | apply Block.unmapped_after | apply Block.readReg_after | split

theorem Block.regPost_after {a b : Block} (ctx : Nat) (off : Nat) (n : Nat) (v : Nat) (h : After a b) : After a (b.regPost ctx off n v) := by
  unfold Block.regPost
  with_reducible repeat' first | assumption | apply After.mk

/-! `Sys2Proof.Machine.Mem` -/

theorem Block.undefMem_after {a b : Block} (dom : Nat) (h : After a b) : After a (b.undefMem dom) := by
  exact ⟨fun k => Mem.wf_undef (h.1 k) _ _, h.2.1, Nat.le_succ_of_le h.2.2⟩

theorem Block.rowLog_after {a b : Block} (i : Nat) (ch : Nat) (pc : Nat) (bank : Nat) (row : Nat) (unc : Bool) (h : After a b) : After a (b.rowLog i ch pc bank row unc) := by
  unfold Block.rowLog
  with_reducible repeat' first | (intro) | assumption | apply Block.whenB_after | apply Block.inc_after | apply Block.wr_after | split | dsimp only

theorem Block.memErr_after {a b : Block} (y1 : Nat) (src : Nat) (h : After a b) : After a (b.memErr y1 src) := by
  unfold Block.memErr
  with_reducible repeat' first | assumption | apply After.ite | apply Block.inc_after | apply Block.wr_after | apply Block.rowLog_after | apply Block.report_after

theorem Block.memCorr_after {a b : Block} (y1 : Nat) (h : After a b) : After a (b.memCorr y1) := by
  unfold Block.memCorr
  with_reducible repeat' first | assumption | apply Block.rowLog_after | apply Block.inc_after

theorem Block.putWord_after {a b : Block} (y1 : Nat) (w : Cw) (h : After a b) : After a (b.putWord y1 w) := by
  exact h.mem (fun k => Mem.wf_setWord k _ _)

theorem Block.ctlRead_after {a b : Block} (y1 : Nat) (src : Nat) (h : After a b) : After a (b.ctlRead y1 src).2 := by
  unfold Block.ctlRead
  with_reducible repeat' first | assumption | apply Block.memCorr_after | apply Block.putWord_after | apply Block.memErr_after | split

theorem Block.ctlWrite_after {a b : Block} (y1 : Nat) (w : Cw) (h : After a b) : After a (b.ctlWrite y1 w) := by
  unfold Block.ctlWrite
  with_reducible repeat' first | assumption | apply Block.putWord_after | apply Block.memCorr_after | apply Block.memErr_after | split

theorem Block.ctlMerge_after {a b : Block} (y1 : Nat) (off : Nat) (bs : List Byte) (pois : Bool) (h : After a b) : After a (b.ctlMerge y1 off bs pois) := by
  unfold Block.ctlMerge
  with_reducible repeat' first | assumption | apply Block.memCorr_after | apply Block.putWord_after | apply Block.memErr_after | split

theorem Block.lsErr_after {a b : Block} (p : Nat) (off : Nat) (h : After a b) : After a (b.lsErr p off) := by
  unfold Block.lsErr
  with_reducible repeat' first | assumption | apply Block.report_after

theorem Block.lsRead_after {a b : Block} (p : Nat) (off : Nat) (h : After a b) : After a (b.lsRead p off).2 := by
  unfold Block.lsRead
  with_reducible repeat' first | assumption | apply Block.lsErr_after | split | dsimp only | apply After.mkWord

theorem Block.lsWrite_after {a b : Block} (p : Nat) (off : Nat) (bs : List Byte) (pois : Bool) (h : After a b) : After a (b.lsWrite p off bs pois) := by
  unfold Block.lsWrite
  with_reducible repeat' first | assumption | apply After.ite | apply Block.lsErr_after | split | apply After.mkWord

theorem Block.tagFail_after {a b : Block} (ctx : Nat) (y2 : Nat) (h : After a b) : After a (b.tagFail ctx y2) := by
  unfold Block.tagFail
  with_reducible repeat' first | assumption | apply Block.report_after | apply Block.inc_after

theorem Block.absentRec_after {a b : Block} (cause : Nat) (ctx : Nat) (y3 : Nat) (unit : Nat) (h : After a b) : After a (b.absentRec cause ctx y3 unit) := by
  unfold Block.absentRec
  with_reducible repeat' first | assumption | apply Block.report_after

theorem Block.pkgAccess_after {a b : Block} (p : Nat) (ctx : Nat) (y3 : Nat) (h : After a b) : After a (b.pkgAccess p ctx y3) := by
  unfold Block.pkgAccess
  with_reducible repeat' first | assumption | apply After.ite | apply Block.inc_after | apply Block.absentRec_after | apply After.mk

theorem Block.moduleFatal_after {a b : Block} (cause : Nat) (level : Nat) (unit : Nat) (h : After a b) : After a (b.moduleFatal cause level unit) := by
  unfold Block.moduleFatal
  extract_lets l0 l1
  clear_value l1
  have k0 : After a l0 := by
    subst l0
    with_reducible repeat' first | assumption | apply Block.report_after
  with_reducible repeat' first | assumption | apply After.mk

theorem Block.missRec_after {a b : Block} (write : Bool) (ctx : Nat) (y3 : Nat) (y4 : Miss) (h : After a b) : After a (b.missRec write ctx y3 y4) := by
  unfold Block.missRec
  with_reducible repeat' first | assumption | apply Block.absentRec_after | apply Block.pkgAccess_after | split

theorem Block.missRecs_after {a b : Block} (write : Bool) (ctx : Nat) (ms : List (Option Miss × Nat)) (h : After a b) : After a (b.missRecs write ctx ms) := by
  unfold Block.missRecs
  with_reducible repeat' first | (intro) | assumption | apply Block.each_after | apply Block.missRec_after

theorem Block.checkWords_after {a b : Block} (region : Nat) (line : Nat) (y3 : Nat) (y4 : List Cw) (h : After a b) : After a (b.checkWords region line y3 y4).2 := by
  induction y4 generalizing b y3 with
  | nil => exact h
  | cons w ws ih =>
    unfold Block.checkWords
    extract_lets r c
    refine ih _ ?_
    subst c
    split
    · exact Block.report_after _ (Block.inc_after _ _ _ _ h)
    · exact Block.inc_after _ _ _ _ h
    · exact h

theorem Block.putWords_after {a b : Block} (line : Nat) (y2 : Nat) (y3 : List Cw) (h : After a b) : After a (b.putWords line y2 y3) := by
  induction y3 generalizing b y2 with
  | nil => exact h
  | cons w ws ih => exact ih _ (Block.putWord_after _ _ h)

theorem Block.writeBackWords_after {a b : Block} (ln : RcLine) (h : After a b) : After a (b.writeBackWords ln).2 := by
  unfold Block.writeBackWords
  with_reducible repeat' first | assumption | apply Block.checkWords_after | apply Block.missRec_after | apply Block.putWords_after | (refine After.snd (by assumption) ?_) | split

theorem Block.writeBack_after {a b : Block} (ln : RcLine) (h : After a b) : After a (b.writeBack ln) := by
  unfold Block.writeBack
  with_reducible repeat' first | assumption | apply Block.writeBackWords_after

theorem Block.rcPut_after {a b : Block} (x : RcLine) (h : After a b) : After a (b.rcPut x) := by
  unfold Block.rcPut
  with_reducible repeat' first | assumption | apply After.mk

theorem Block.rcDrop_after {a b : Block} (r : Nat) (line : Nat) (h : After a b) : After a (b.rcDrop r line) := by
  unfold Block.rcDrop
  with_reducible repeat' first | assumption | apply After.mk

theorem Block.recall_after {a b : Block} (line : Nat) (h : After a b) : After a (b.recall line) := by
  unfold Block.recall
  with_reducible repeat' first | assumption | apply Block.writeBackWords_after | apply Block.rcPut_after | (refine After.snd (by assumption) ?_) | split | dsimp only | apply After.mk

theorem Block.recallInval_after {a b : Block} (line : Nat) (keep : Option Nat) (h : After a b) : After a (b.recallInval line keep) := by
  unfold Block.recallInval
  extract_lets l0
  have k0 : After a l0 := by
    subst l0
    with_reducible repeat' first | assumption | apply Block.writeBack_after | split
  with_reducible repeat' first | assumption | split | apply After.mk

theorem Block.sfVictim_after {a b : Block} (i : Nat) (h : After a b) : After a (b.sfVictim i).2 := by
  unfold Block.sfVictim
  with_reducible repeat' first | assumption | apply After.ite2 | apply Block.draw_after

theorem Block.sfEnter_after {a b : Block} (r : Nat) (line : Nat) (own : Bool) (h : After a b) : After a (b.sfEnter r line own) := by
  unfold Block.sfEnter
  with_reducible repeat' first | assumption | apply After.ite | apply Block.sfVictim_after | apply Block.inc_after | apply Block.recallInval_after | split | dsimp only | apply After.mk

theorem Block.sfLeave_after {a b : Block} (r : Nat) (line : Nat) (h : After a b) : After a (b.sfLeave r line) := by
  unfold Block.sfLeave
  with_reducible repeat' first | assumption | apply After.mk

theorem Block.rcCheck_after {a b : Block} (x : RcLine) (i : Nat) (h : After a b) : After a (b.rcCheck x i).2 := by
  unfold Block.rcCheck
  with_reducible repeat' first | assumption | apply Block.rcPut_after | apply Block.inc_after | apply Block.report_after | split

theorem Block.lockRead_after {a b : Block} (r : Nat) (w : Nat) (h : After a b) : After a (b.lockRead r w).2 := by
  unfold Block.lockRead
  with_reducible repeat' first | assumption | apply After.ite2 | apply Block.rcCheck_after | split

theorem Block.lockWrite_after {a b : Block} (r : Nat) (w : Nat) (ms : MBytes) (h : After a b) : After a (b.lockWrite r w ms).2 := by
  unfold Block.lockWrite
  with_reducible repeat' first | assumption | apply After.ite2 | apply Block.rcPut_after | split

theorem Block.holdReq_after {a b : Block} (l : Nat) (q : HeldReq) (h : After a b) : After a (b.holdReq l q) := by
  unfold Block.holdReq
  with_reducible repeat' first | assumption | apply After.mk

theorem Block.heldStore_after {a b : Block} (p : Nat) (y2 : HeldReq) (h : After a b) : After a (b.heldStore p y2) := by
  unfold Block.heldStore
  with_reducible repeat' first | assumption | apply Block.lsWrite_after | split

theorem Block.orHold_after {a b : Block} (y1 : Nat) (q : HeldReq) (f : Block → Block) (h : After a b) (hf : ∀ c0, After a c0 → After a (f c0)) : After a (b.orHold y1 q f) := by
  unfold Block.orHold
  with_reducible repeat' first | assumption | apply Block.holdReq_after | apply hf | split

theorem Block.memRead_after {a b : Block} (y1 : Nat) (h : After a b) : After a (b.memRead y1).2 := by
  unfold Block.memRead
  with_reducible repeat' first | assumption | apply Block.ctlRead_after | apply Block.recall_after | split

theorem Block.memWrite_after {a b : Block} (y1 : Nat) (bs : List Byte) (pois : Bool) (h : After a b) : After a (b.memWrite y1 bs pois) := by
  unfold Block.memWrite
  extract_lets l0
  have k0 : After a l0 := by
    subst l0
    with_reducible repeat' first | assumption | apply Block.recallInval_after
  with_reducible repeat' first | assumption | apply After.ite | apply Block.ctlWrite_after | apply Block.ctlMerge_after | split

theorem Block.holderRead_after {a b : Block} (y1 : Nat) (h : After a b) : After a (b.holderRead y1).2 := by
  unfold Block.holderRead
  with_reducible repeat' first | assumption | apply After.ite2 | apply Block.memRead_after | apply Block.lsRead_after | apply Block.lockRead_after | split

theorem Block.holderWrite_after {a b : Block} (ctx : Nat) (y2 : Nat) (ms : MBytes) (h : After a b) : After a (b.holderWrite ctx y2 ms).2 := by
  unfold Block.holderWrite
  with_reducible repeat' first | assumption | apply After.ite2 | apply Block.memWrite_after | apply Block.holdReq_after | apply Block.lsWrite_after | apply Block.lockWrite_after | split

theorem Block.mread_after {a b : Block} (ctx : Nat) (y2 : Nat) (n : Nat) (h : After a b) : After a (b.mread ctx y2 n).2 := by
  unfold Block.mread
  extract_lets l0
  have k0 : After a l0 := by
    subst l0
    with_reducible repeat' first | assumption | apply Block.missRecs_after
  with_reducible repeat' first | (intro) | assumption | apply Block.tagFail_after | apply Block.regRead_after | apply Block.holderRead_after | apply After.foldl2 | split

theorem Block.mwrite_after {a b : Block} (ctx : Nat) (y2 : Nat) (bs : MBytes) (h : After a b) : After a (b.mwrite ctx y2 bs).2 := by
  unfold Block.mwrite
  extract_lets l0 l1
  clear_value l0
  have k1 : After a l1 := by
    subst l1
    with_reducible repeat' first | assumption | apply Block.missRecs_after
  with_reducible repeat' first | (intro) | assumption | apply After.ite | apply Block.tagFail_after | apply Block.holdReq_after | apply Block.regPost_after | apply Block.absentRec_after | apply Block.holderWrite_after | apply After.foldl2 | split

theorem Block.holderWords_after {a b : Block} (y1 : Nat) (y2 : Nat) (h : After a b) : After a (b.holderWords y1 y2).2 := by
  induction y2 generalizing b y1 with
  | zero => exact h
  | succ n ih =>
    unfold Block.holderWords
    exact ih _ (Block.holderRead_after _ h)

theorem Block.mreadWords_after {a b : Block} (ctx : Nat) (y2 : Nat) (n : Nat) (h : After a b) : After a (b.mreadWords ctx y2 n).2 := by
  exact Block.holderWords_after _ _ (Block.missRecs_after _ _ _ h)

theorem Block.plruUse_after {a b : Block} (r : Nat) (line : Nat) (way : Nat) (h : After a b) : After a (b.plruUse r line way) := by
  unfold Block.plruUse
  with_reducible repeat' first | assumption | apply After.mk

theorem Block.badOut_after {a b : Block} (x : RcLine) (h : After a b) : After a (b.badOut x) := by
  unfold Block.badOut
  with_reducible repeat' first | assumption | apply Block.sfLeave_after | apply Block.rcDrop_after | apply Block.inc_after | apply Block.report_after | apply Block.wr_after | apply Block.moduleFatal_after | split

theorem Block.rcOut_after {a b : Block} (x : RcLine) (h : After a b) : After a (b.rcOut x) := by
  unfold Block.rcOut
  with_reducible repeat' first | assumption | apply After.ite | apply Block.badOut_after | apply Block.rcDrop_after | apply Block.sfLeave_after | apply Block.writeBack_after

theorem Block.rcLookup_after {a b : Block} (r : Nat) (line : Nat) (h : After a b) : After a (b.rcLookup r line) := by
  unfold Block.rcLookup
  with_reducible repeat' first | (intro) | assumption | apply Block.each_after | apply Block.badOut_after

theorem Block.rcEvict_after {a b : Block} (r : Nat) (line : Nat) (way : Nat) (h : After a b) : After a (b.rcEvict r line way) := by
  unfold Block.rcEvict
  with_reducible repeat' first | assumption | apply Block.rcOut_after | split

theorem Block.fillWords_after {a b : Block} (ctx : Nat) (line : Nat) (h : After a b) : After a (b.fillWords ctx line).2 := by
  unfold Block.fillWords
  with_reducible repeat' first | assumption | apply Block.mreadWords_after | apply Block.recall_after

theorem Block.rcFill_after {a b : Block} (r : Nat) (ctx : Nat) (line : Nat) (modified : Bool) (whole : Bool) (h : After a b) : After a (b.rcFill r ctx line modified whole) := by
  unfold Block.rcFill
  with_reducible repeat' first | assumption | apply Block.rcEvict_after | apply Block.recallInval_after | apply Block.fillWords_after | apply Block.sfEnter_after | apply Block.plruUse_after | split | dsimp only | apply After.mk

theorem Block.rcReadHit_after {a b : Block} (r : Nat) (line : Nat) (off : Nat) (n : Nat) (h : After a b) : After a (b.rcReadHit r line off n).2 := by
  unfold Block.rcReadHit
  with_reducible repeat' first | (intro) | assumption | apply Block.rcCheck_after | apply After.foldl2 | split

theorem Block.rcWriteHit_after {a b : Block} (r : Nat) (line : Nat) (off : Nat) (ms : MBytes) (h : After a b) : After a (b.rcWriteHit r line off ms) := by
  unfold Block.rcWriteHit
  with_reducible repeat' first | (intro) | assumption | apply After.ite | apply Block.rcPut_after | apply Block.report_after | apply Block.inc_after | apply After.foldl | split

theorem Block.rcRead_after {a b : Block} (r : Nat) (ctx : Nat) (y3 : Nat) (n : Nat) (h : After a b) : After a (b.rcRead r ctx y3 n).2 := by
  unfold Block.rcRead
  extract_lets l0 l1 l2 l3 l4
  clear_value l0 l2 l3
  have k1 : After a l1 := by
    subst l1
    with_reducible repeat' first | assumption | apply Block.rcLookup_after
  have k4 : After a l4 := by
    subst l4
    with_reducible repeat' first | assumption | apply After.ite | apply Block.inc_after | apply Block.rcFill_after
  with_reducible repeat' first | assumption | apply After.ite2 | apply Block.tagFail_after | apply Block.rcReadHit_after | apply Block.plruUse_after | apply Block.mread_after | split

theorem Block.rcWrite_after {a b : Block} (r : Nat) (ctx : Nat) (y3 : Nat) (bs : MBytes) (h : After a b) : After a (b.rcWrite r ctx y3 bs).2 := by
  unfold Block.rcWrite
  extract_lets l0 l1 l2 l3 l4 l5
  clear_value l0 l2 l3
  have k1 : After a l1 := by
    subst l1
    with_reducible repeat' first | assumption | apply Block.rcLookup_after
  have k4 : After a l4 := by
    subst l4
    with_reducible repeat' first | assumption | apply Block.inc_after
  have k5 : After a l5 := by
    subst l5
    with_reducible repeat' first | assumption | apply Block.inc_after | apply Block.rcFill_after
  with_reducible repeat' first | assumption | apply After.ite | apply After.ite2 | apply Block.tagFail_after | apply Block.mwrite_after | apply Block.inc_after | apply Block.sfEnter_after | apply Block.rcPut_after | apply Block.recallInval_after | apply Block.rcWriteHit_after | apply Block.plruUse_after | split

theorem Block.tread_after {a b : Block} (r : Nat) (ctx : Nat) (y3 : Nat) (n : Nat) (nc : Bool) (h : After a b) : After a (b.tread r ctx y3 n nc).2 := by
  unfold Block.tread
  with_reducible repeat' first | (intro) | assumption | apply After.ite2 | apply Block.rcRead_after | apply Block.mread_after | apply After.foldl2

theorem Block.twrite_after {a b : Block} (r : Nat) (ctx : Nat) (y3 : Nat) (bs : MBytes) (nc : Bool) (h : After a b) : After a (b.twrite r ctx y3 bs nc).2 := by
  unfold Block.twrite
  with_reducible repeat' first | (intro) | assumption | apply After.ite2 | apply Block.rcWrite_after | apply Block.mwrite_after | apply After.foldl2

theorem Block.rcFlush_after {a b : Block} (r : Nat) (p : RcLine → Bool) (lockedToo : Bool) (h : After a b) : After a (b.rcFlush r p lockedToo) := by
  unfold Block.rcFlush
  with_reducible repeat' first | (intro) | assumption | apply Block.each_after | apply Block.rcOut_after

/-! `Sys2Proof.Machine.PortOps` -/

theorem Block.onPorts_after {a b : Block} (f : Ports → Ports) (h : After a b) : After a (b.onPorts f) := by
  unfold Block.onPorts
  with_reducible repeat' first | assumption | apply After.mk

theorem Block.protect_after {a b : Block} (sub : Nat) (h : After a b) : After a (b.protect sub).2 := by
  unfold Block.protect
  with_reducible repeat' first | assumption | apply After.ite2 | apply Block.onPorts_after | apply Block.report_after | apply Block.wr_after | split

theorem Block.txFrame_after {a b : Block} (sub : Nat) (h : After a b) : After a (b.txFrame sub).2 := by
  unfold Block.txFrame
  with_reducible repeat' first | assumption | apply After.ite2 | apply Block.protect_after | apply Block.inc_after

theorem Block.roceTx_after {a b : Block} (q : Qp) (op : Nat) (args : List Nat) (data : List Byte) (h : After a b) : After a (b.roceTx q op args data) := by
  unfold Block.roceTx
  with_reducible repeat' first | assumption | apply Block.txFrame_after | apply Block.emit_after | (refine After.snd (by assumption) ?_) | split | dsimp only

/-! `Sys2Proof.Machine.Damask` -/

theorem Block.tableWords_after {a b : Block} (off : Nat) (n : Nat) (h : After a b) : After a (b.tableWords off n).2.2 := by
  unfold Block.tableWords
  with_reducible repeat' first | assumption | apply Block.mread_after

theorem Block.onDm_after {a b : Block} (f : Damask → Damask) (h : After a b) : After a (b.onDm f) := by
  unfold Block.onDm
  with_reducible repeat' first | assumption | apply After.mk

theorem Block.dmWire_after {a b : Block} (node : Nat) (path : Nat) (cls : Nat) (m : DmMsg) (h : After a b) : After a (b.dmWire node path cls m) := by
  unfold Block.dmWire
  with_reducible repeat' first | assumption | apply After.ite | apply Block.txFrame_after | apply Block.inc_after | apply Block.emit_after

theorem Block.dmPumpN_after {a y1 : Block} (y0 : Nat) (y2 : Nat) (h : After a y1) : After a (Block.dmPumpN y0 y1 y2) := by
  induction y0 generalizing y1 y2 with
  | zero =>
    simp only [Block.dmPumpN]
    with_reducible repeat' assumption
  | succ n ih =>
    simp only [Block.dmPumpN]
    with_reducible repeat' first | assumption | apply After.ite | apply Block.onDm_after | apply Block.dmWire_after | apply ih | split

theorem Block.dmPump_after {a b : Block} (id : Nat) (h : After a b) : After a (b.dmPump id) := by
  unfold Block.dmPump
  with_reducible repeat' first | assumption | apply Block.dmPumpN_after

theorem Block.dmPath_after {a b : Block} (node : Nat) (cls : Nat) (src : Nat) (h : After a b) : After a (b.dmPath node cls src).2 := by
  unfold Block.dmPath
  with_reducible repeat' first | assumption | apply Block.onDm_after | apply Block.dmPump_after | apply Block.inc_after | split

theorem Block.dmSend_after {a b : Block} (node : Nat) (cls : Nat) (src : Nat) (type : Nat) (rel : Nat) (ctx : Nat) (off : Nat) (args : List Nat) (data : MBytes) (owner : Option Issuer) (record : Option Nat) (held : Option Nat) (ent : Option (Nat × Nat)) (h : After a b) : After a (b.dmSend node cls src type rel ctx off args data owner record held ent).2 := by
  unfold Block.dmSend
  with_reducible repeat' first | assumption | apply Block.dmPath_after | apply Block.onDm_after | apply Block.dmPump_after | (refine After.snd (by assumption) ?_) | split

theorem Block.holdAcc_after {a b : Block} (y1 : RelHold) (h : After a b) : After a (b.holdAcc y1) := by
  unfold Block.holdAcc
  with_reducible repeat' first | assumption | apply Block.onDm_after

theorem Block.holdHere_after {a b : Block} (t : Nat) (y2 : RelHold) (h : After a b) : After a (b.holdHere t y2) := by
  unfold Block.holdHere
  with_reducible repeat' first | assumption | apply Block.onDm_after | apply Block.holdReq_after

theorem Block.dmWrite_after {a b : Block} (node : Nat) (cls : Nat) (src : Nat) (rel : Nat) (ctx : Nat) (off : Nat) (data : MBytes) (owner : Option Issuer) (record : Option Nat) (ent : Option (Nat × Nat)) (h : After a b) : After a (b.dmWrite node cls src rel ctx off data owner record ent).2 := by
  unfold Block.dmWrite
  with_reducible repeat' first | assumption | apply After.ite2 | apply Block.dmSend_after | apply Block.absentRec_after

theorem Block.dmAsk_after {a b : Block} (node : Nat) (cls : Nat) (src : Nat) (type : Nat) (rel : Nat) (ctx : Nat) (off : Nat) (len : Nat) (args : List Nat) (who : Waiter) (owner : Option Issuer) (record : Option Nat) (held : Option Nat) (ent : Option (Nat × Nat)) (h : After a b) : After a (b.dmAsk node cls src type rel ctx off len args who owner record held ent) := by
  unfold Block.dmAsk
  extract_lets l0 l1
  clear_value l0
  have k1 : After a l1 := by
    subst l1
    with_reducible repeat' first | assumption | apply Block.onDm_after
  with_reducible repeat' first | assumption | apply Block.onDm_after | apply Block.dmSend_after

theorem Block.dmRead_after {a b : Block} (node : Nat) (cls : Nat) (src : Nat) (ctx : Nat) (off : Nat) (len : Nat) (who : Waiter) (ent : Option (Nat × Nat)) (h : After a b) : After a (b.dmRead node cls src ctx off len who ent).2 := by
  unfold Block.dmRead
  with_reducible repeat' first | assumption | apply After.ite2 | apply Block.dmAsk_after | apply Block.absentRec_after

theorem Block.dmAtomic_after {a b : Block} (node : Nat) (cls : Nat) (src : Nat) (rel : Nat) (ctx : Nat) (off : Nat) (op : Nat) (wide : Nat) (operand : Nat) (comparand : Nat) (who : Waiter) (record : Option Nat) (ent : Option (Nat × Nat)) (h : After a b) : After a (b.dmAtomic node cls src rel ctx off op wide operand comparand who record ent).2 := by
  unfold Block.dmAtomic
  with_reducible repeat' first | assumption | apply After.ite2 | apply Block.dmAsk_after | apply Block.absentRec_after

theorem Block.matomic_after {a b : Block} (ctx : Nat) (y2 : Nat) (width : Nat) (op : Nat) (operand : Nat) (comparand : Nat) (h : After a b) : After a (b.matomic ctx y2 width op operand comparand).2.2.2 := by
  unfold Block.matomic
  with_reducible repeat' first | assumption | apply After.ite | apply Block.absentRec_after | apply Block.mread_after | apply Block.recallInval_after | apply Block.mwrite_after | apply After.ite4 | split

/-! `Sys2Proof.Machine.Xlate` -/

theorem Block.ctxEntry_after {a b : Block} (ctx : Nat) (h : After a b) : After a (b.ctxEntry ctx).2 := by
  unfold Block.ctxEntry
  with_reducible repeat' first | assumption | apply After.ite2 | apply Block.tableWords_after | split | dsimp only | apply After.mk

theorem Block.pteRead_after {a b : Block} (ctx : Nat) (va : Nat) (write : Bool) (table : Nat) (level : Nat) (h : After a b) : After a (b.pteRead ctx va write table level).2 := by
  unfold Block.pteRead
  with_reducible repeat' first | assumption | apply After.ite2 | apply Block.tableWords_after

theorem Block.walkFrom_after {a y4 : Block} (ctx : Nat) (va : Nat) (write : Bool) (y3 : Nat) (y5 : Nat) (y6 : List WalkE) (h : After a y4) : After a (Block.walkFrom ctx va write y3 y4 y5 y6).2 := by
  induction y3 generalizing y4 ctx va write y5 y6 with
  | zero =>
    simp only [Block.walkFrom]
    with_reducible repeat' first | assumption | apply Block.pteRead_after | (refine After.snd (by assumption) ?_) | split
  | succ n ih =>
    simp only [Block.walkFrom]
    with_reducible repeat' first | assumption | apply Block.pteRead_after | apply ih | (refine After.snd (by assumption) ?_) | split

theorem Block.walk_after {a b : Block} (ctx : Nat) (va : Nat) (write : Bool) (h : After a b) : After a (b.walk ctx va write).2 := by
  unfold Block.walk
  extract_lets l0
  have k0 : After a l0 := Block.inc_after _ _ _ _ h
  clear_value l0
  have kc := Block.ctxEntry_after ctx k0
  split
  · next he => exact After.snd he kc
  · next e b1 he =>
    have k1 : After a b1 := After.snd he kc
    dsimp only
    generalize b1.walkStart e va = st
    have kw := Block.walkFrom_after ctx va write st.1 st.2 [] k1
    rcases hw : Block.walkFrom ctx va write st.1 b1 st.2 [] with ⟨r, b2⟩
    have k2 : After a b2 := After.snd hw kw
    split
    · exact After.same (Block.enterAll_after 1024 r.path b2.wcache k2) rfl rfl rfl
    · exact k2

theorem Block.route_after {a b : Block} (ctx : Nat) (e : TlbE) (va : Nat) (write : Bool) (h : After a b) : After a (b.route ctx e va write).2 := by
  unfold Block.route
  with_reducible repeat' first | assumption | apply After.ite2 | apply Block.ctxEntry_after | (refine After.snd (by assumption) ?_) | split

theorem Block.sharedXl_after {a b : Block} (ctx : Nat) (va : Nat) (write : Bool) (h : After a b) : After a (b.sharedXl ctx va write).2 := by
  unfold Block.sharedXl
  split
  · exact h
  · have kw := Block.walk_after ctx va write h
    rcases hw : b.walk ctx va write with ⟨r, b1⟩
    have k1 : After a b1 := After.snd hw kw
    dsimp only
    split
    · split
      · exact After.same (Block.room_after 8192 b1.stlb k1) rfl rfl rfl
      · exact k1
    · exact k1

theorem Block.xlFail_after {a b : Block} (cause : Nat) (ctx : Nat) (va : Nat) (h : After a b) : After a (b.xlFail cause ctx va) := by
  unfold Block.xlFail
  with_reducible repeat' first | assumption | apply Block.report_after | apply Block.inc_after

theorem Block.useLeaf_after {a b : Block} (ctx : Nat) (e : TlbE) (va : Nat) (write : Bool) (h : After a b) : After a (b.useLeaf ctx e va write).2 := by
  unfold Block.useLeaf
  with_reducible repeat' first | assumption | apply After.ite2 | apply Block.route_after | apply Block.xlFail_after

theorem Block.xlate_after {a b : Block} (ctx : Nat) (va : Nat) (write : Bool) (h : After a b) : After a (b.xlate ctx va write).2 := by
  unfold Block.xlate
  with_reducible repeat' first | assumption | apply After.ite2 | apply Block.xlFail_after | apply Block.sharedXl_after | apply Block.useLeaf_after | (refine After.snd (by assumption) ?_) | split

theorem Block.tlbEnter_after {a b : Block} (p : Nat) (e : TlbE) (h : After a b) : After a (b.tlbEnter p e) := by
  unfold Block.tlbEnter
  with_reducible repeat' first | assumption | apply After.ite | apply Block.room_after | apply Block.onSite_after

theorem Block.tileXl_after {a b : Block} (p : Nat) (ctx : Nat) (va : Nat) (write : Bool) (h : After a b) : After a (b.tileXl p ctx va write).2 := by
  unfold Block.tileXl
  extract_lets l0 l1 l2 l3
  clear_value l0
  have k1 : After a l1 := by
    subst l1
    with_reducible repeat' first | assumption | apply Block.inc_after
  have k2 : After a l2 := by
    subst l2
    with_reducible repeat' first | assumption | apply Block.inc_after
  have k3 : After a l3 := by
    subst l3
    with_reducible repeat' first | assumption | apply After.ite | apply Block.inc_after
  with_reducible repeat' first | assumption | apply After.ite2 | apply Block.xlFail_after | apply Block.useLeaf_after | apply Block.tlbEnter_after | apply Block.sharedXl_after | (refine After.snd (by assumption) ?_) | split

theorem Block.farPut_after {a b : Block} (p : Nat) (va : Nat) (bs : MBytes) (h : After a b) : After a (b.farPut p va bs) := by
  unfold Block.farPut
  with_reducible repeat' first | assumption | apply Block.onSite_after

theorem Block.vreadPiece_after {a b : Block} (p : Nat) (ctx : Nat) (cls : Nat) (l : Nat) (va : Nat) (n : Nat) (who : Waiter) (h : After a b) : After a (b.vreadPiece p ctx cls l va n who).2 := by
  unfold Block.vreadPiece
  with_reducible repeat' first | assumption | apply After.ite | apply After.ite2 | apply Block.tileXl_after | apply Block.holdAcc_after | apply Block.holdHere_after | apply Block.tread_after | apply Block.farPut_after | apply Block.dmRead_after | (refine After.snd (by assumption) ?_) | split | dsimp only

theorem Block.vread_after {a b : Block} (p : Nat) (ctx : Nat) (cls : Nat) (l : Nat) (va : Nat) (n : Nat) (who : Waiter) (h : After a b) : After a (b.vread p ctx cls l va n who).2 := by
  unfold Block.vread
  with_reducible repeat' first | (intro) | assumption | apply After.ite2 | apply Block.vreadPiece_after | apply After.foldl2

theorem Block.storeNow_after {a b : Block} (p : Nat) (ctx : Nat) (y3 : Nat) (bs : MBytes) (nc : Bool) (h : After a b) : After a (b.storeNow p ctx y3 bs nc).2 := by
  unfold Block.storeNow
  with_reducible repeat' first | assumption | apply Block.twrite_after | (refine After.snd (by assumption) ?_) | split

theorem Block.vwritePiece_after {a b : Block} (p : Nat) (ctx : Nat) (cls : Nat) (l : Nat) (va : Nat) (bs : MBytes) (rel : Nat) (owner : Option Issuer) (h : After a b) : After a (b.vwritePiece p ctx cls l va bs rel owner).2 := by
  unfold Block.vwritePiece
  with_reducible repeat' first | assumption | apply After.ite2 | apply Block.tileXl_after | apply Block.holdAcc_after | apply Block.holdHere_after | apply Block.storeNow_after | apply Block.dmWrite_after | split

theorem Block.vwrite_after {a b : Block} (p : Nat) (ctx : Nat) (cls : Nat) (l : Nat) (va : Nat) (bs : MBytes) (rel : Nat) (owner : Option Issuer) (h : After a b) : After a (b.vwrite p ctx cls l va bs rel owner).2 := by
  unfold Block.vwrite
  with_reducible repeat' first | (intro) | assumption | apply After.ite2 | apply Block.vwritePiece_after | apply After.foldl2

theorem Block.bread_after {a b : Block} (ctx : Nat) (va : Nat) (n : Nat) (far : Option (List Byte)) (h : After a b) : After a (b.bread ctx va n far).2 := by
  unfold Block.bread
  with_reducible repeat' first | assumption | apply After.ite2 | apply Block.xlate_after | apply Block.mread_after | apply Block.dmRead_after | split

theorem Block.bwrite_after {a b : Block} (cls : Nat) (src : Nat) (ctx : Nat) (va : Nat) (bs : MBytes) (rel : Nat) (record : Option Nat) (h : After a b) : After a (b.bwrite cls src ctx va bs rel record).2 := by
  unfold Block.bwrite
  with_reducible repeat' first | assumption | apply After.ite2 | apply Block.xlate_after | apply Block.mwrite_after | apply Block.dmWrite_after | (refine After.snd (by assumption) ?_) | split

/-! `Sys2Proof.Machine.SnapOps` -/

theorem Block.snapLatch_after {a b : Block} (src : Nat) (arg : Nat) (h : After a b) : After a (b.snapLatch src arg) := by
  unfold Block.snapLatch
  with_reducible repeat' first | assumption | apply Block.freshSeed_after | apply Block.draw_after | apply Block.wr_after | apply After.mk

theorem Block.snapTrigger_after {a b : Block} (src : Nat) (arg : Nat) (h : After a b) : After a (b.snapTrigger src arg) := by
  unfold Block.snapTrigger
  extract_lets l0
  have k0 : After a l0 := by
    subst l0
    with_reducible repeat' first | assumption | apply Block.inc_after | apply Block.emit_after
  with_reducible repeat' first | assumption | apply After.ite | apply Block.inc_after | apply Block.snapLatch_after

/-! `Sys2Proof.Machine.BrackenOps` -/

theorem Block.onBk_after {a b : Block} (f : Bracken → Bracken) (h : After a b) : After a (b.onBk f) := by
  unfold Block.onBk
  with_reducible repeat' first | assumption | apply After.mk

theorem Block.onCmd_after {a b : Block} (tag : Nat) (f : Cmd → Cmd) (h : After a b) : After a (b.onCmd tag f) := by
  unfold Block.onCmd
  with_reducible repeat' first | assumption | apply Block.onBk_after

theorem Block.onQueue_after {a b : Block} (q : Nat) (f : Queue → Queue) (h : After a b) : After a (b.onQueue q f) := by
  unfold Block.onQueue
  with_reducible repeat' first | assumption | apply Block.onBk_after

theorem Block.capture_after {a b : Block} (c : Cmd) (status : Nat) (k : Cap) (h : After a b) : After a (b.capture c status k) := by
  unfold Block.capture
  with_reducible repeat' first | assumption | apply After.ite | apply Block.wr_after | apply Block.snapTrigger_after

theorem Block.bkRec_after {a b : Block} (cause : Nat) (ctx : Option Nat) (tag : Nat) (h : After a b) : After a (b.bkRec cause ctx tag) := by
  unfold Block.bkRec
  with_reducible repeat' first | assumption | apply Block.report_after

theorem Block.capRec_after {a b : Block} (c : Cmd) (status : Nat) (k : Cap) (h : After a b) : After a (b.capRec c status k) := by
  unfold Block.capRec
  with_reducible repeat' first | assumption | apply Block.report_after

theorem Block.park_after {a b : Block} (q : Nat) (cause : Nat) (h : After a b) : After a (b.park q cause) := by
  unfold Block.park
  extract_lets l0 l1 l2
  have k0 : After a l0 := by
    subst l0
    with_reducible repeat' first | assumption | apply Block.onQueue_after
  have k1 : After a l1 := by
    subst l1
    with_reducible repeat' first | assumption | apply Block.onBk_after
  have k2 : After a l2 := by
    subst l2
    with_reducible repeat' first | assumption | apply Block.inc_after | apply Block.wr_after
  with_reducible repeat' first | assumption | apply Block.bkRec_after

theorem Block.faultRun_after {a b : Block} (q : Nat) (status : Nat) (h : After a b) : After a (b.faultRun q status) := by
  unfold Block.faultRun
  with_reducible repeat' first | assumption | apply After.ite | apply Block.onQueue_after | apply Block.park_after | split

theorem Block.dropUnplanned_after {a b : Block} (tag : Nat) (h : After a b) : After a (b.dropUnplanned tag) := by
  unfold Block.dropUnplanned
  with_reducible repeat' first | assumption | apply Block.onBk_after

theorem Block.settle_after {a b : Block} (tag : Nat) (h : After a b) : After a (b.settle tag) := by
  unfold Block.settle
  extract_lets l0
  have k0 : After a l0 := by
    subst l0
    with_reducible repeat' first | assumption | apply Block.onBk_after
  with_reducible repeat' first | assumption | apply After.ite | apply Block.wr_after | split

theorem Block.complete_after {a b : Block} (tag : Nat) (status : Nat) (cap : Option Cap) (seq : Option Nat) (h : After a b) : After a (b.complete tag status cap seq) := by
  unfold Block.complete
  extract_lets l0 l1 l2
  clear_value l1 l2
  have k0 : After a l0 := by
    subst l0
    with_reducible repeat' first | assumption | apply Block.dropUnplanned_after
  with_reducible repeat' first | assumption | apply After.ite | apply Block.capRec_after | apply Block.capture_after | apply Block.onCmd_after | apply Block.onBk_after | split

theorem Block.tryOk_after {a b : Block} (tag : Nat) (h : After a b) : After a (b.tryOk tag) := by
  unfold Block.tryOk
  with_reducible repeat' first | assumption | apply After.ite | apply Block.complete_after | split

theorem Block.unplace_after {a b : Block} (l : Nat) (tick : Nat) (index : Nat) (h : After a b) : After a (b.unplace l tick index) := by
  unfold Block.unplace
  with_reducible repeat' first | assumption | apply Block.onBk_after | split

theorem Block.replan_after {a b : Block} (p : Placed) (pin : Bool) (h : After a b) : After a (b.replan p pin) := by
  unfold Block.replan
  extract_lets l0 l1
  clear_value l1
  have k0 : After a l0 := by
    subst l0
    with_reducible repeat' first | assumption | apply Block.unplace_after
  with_reducible repeat' first | assumption | apply After.ite | apply Block.onBk_after

theorem Block.again_after {a b : Block} (p : Placed) (cause : Nat) (pin : Bool) (h : After a b) : After a (b.again p cause pin) := by
  unfold Block.again
  extract_lets l0 l1 l2
  clear_value l0 l1
  have k2 : After a l2 := by
    subst l2
    with_reducible repeat' first | assumption | apply After.ite | apply Block.unplace_after | apply Block.replan_after
  with_reducible repeat' first | (intro) | assumption | apply Block.settle_after | apply Block.complete_after | apply After.foldl

theorem Block.missingStep_after {a b : Block} (p : Placed) (h : After a b) : After a (b.missingStep p) := by
  unfold Block.missingStep
  with_reducible repeat' first | assumption | apply Block.again_after

theorem Block.stepFailed_after {a b : Block} (l : Nat) (tick : Nat) (index : Nat) (status : Nat) (cap : Cap) (seq : Option Nat) (h : After a b) : After a (b.stepFailed l tick index status cap seq) := by
  unfold Block.stepFailed
  extract_lets l0
  have k0 : After a l0 := by
    subst l0
    with_reducible repeat' first | assumption | apply Block.unplace_after
  with_reducible repeat' first | (intro) | assumption | apply Block.settle_after | apply Block.complete_after | apply After.foldl | split

theorem Block.stepEnded_after {a b : Block} (l : Nat) (tick : Nat) (index : Nat) (h : After a b) : After a (b.stepEnded l tick index) := by
  unfold Block.stepEnded
  extract_lets l0
  have k0 : After a l0 := by
    subst l0
    with_reducible repeat' first | assumption | apply Block.unplace_after
  with_reducible repeat' first | (intro) | assumption | apply Block.onBk_after | apply Block.settle_after | apply Block.tryOk_after | apply After.foldl | split

/-! `Sys2Proof.Machine.MaintOps` -/

theorem Block.grpSend_after {a b : Block} (node : Nat) (type : Nat) (ws : List Nat) (h : After a b) : After a (b.grpSend node type ws) := by
  unfold Block.grpSend
  with_reducible repeat' first | assumption | apply After.ite | apply Block.dmSend_after

theorem Block.maintUnplanned_after {a b : Block} (l : Nat) (h : After a b) : After a (b.maintUnplanned l) := by
  unfold Block.maintUnplanned
  with_reducible repeat' first | assumption | apply After.ite | apply Block.grpSend_after

theorem Block.retireReq_after {a b : Block} (l : Nat) (site : Nat) (cause : Nat) (at_ : Nat) (hw : Bool) (h : After a b) : After a (b.retireReq l site cause at_ hw).2 := by
  unfold Block.retireReq
  extract_lets l0 l1 l2 l3
  clear_value l0 l1 l2
  have k3 : After a l3 := by
    subst l3
    with_reducible repeat' first | assumption | apply After.mk
  with_reducible repeat' first | assumption | apply After.ite2 | apply Block.wr_after

theorem Block.hwRetire_after {a b : Block} (l : Nat) (cause : Nat) (h : After a b) : After a (b.hwRetire l cause) := by
  unfold Block.hwRetire
  extract_lets l0
  have k0 : After a l0 := by
    subst l0
    with_reducible repeat' first | assumption | apply Block.wr_after
  with_reducible repeat' first | assumption | apply Block.retireReq_after | apply Block.report_after | (refine After.snd (by assumption) ?_) | split

theorem Block.limitRetire_after {a b : Block} (p cause n limit : Nat) (h : After a b) :
    After a (b.limitRetire p cause n limit) := by
  unfold Block.limitRetire
  with_reducible repeat' first | assumption | apply After.ite | apply Block.hwRetire_after

theorem Block.countTransient_after {a b : Block} (p cause : Nat) (h : After a b) : After a (b.countTransient p cause) := by
  unfold Block.countTransient
  exact Block.limitRetire_after _ _ _ _ (Block.inc_after _ _ _ _ h)

theorem Block.countChecker_after {a b : Block} (p : Nat) (h : After a b) : After a (b.countChecker p) := by
  unfold Block.countChecker
  exact Block.limitRetire_after _ _ _ _ (Block.inc_after _ _ _ _ h)

/-! `Sys2Proof.Machine.TileOps` -/

theorem Block.resOutcome_after {a b : Block} (p : Nat) (outcome : Nat) (tag : Nat) (img : Nat) (h : After a b) : After a (b.resOutcome p outcome tag img) := by
  unfold Block.resOutcome
  extract_lets l0
  have k0 : After a l0 := by
    subst l0
    with_reducible repeat' first | assumption | apply Block.report_after
  with_reducible repeat' first | assumption | apply After.ite | apply Block.countTransient_after | apply Block.countChecker_after | apply Block.inc_after

theorem Block.replayCut_after {a b : Block} (p : Nat) (h : After a b) : After a (b.replayCut p) := by
  unfold Block.replayCut
  with_reducible repeat' first | assumption | apply Block.resOutcome_after | apply Block.wr_after | apply Block.onSite_after | split

theorem Block.lateSwap_after {a b : Block} (p : Nat) (h : After a b) : After a (b.lateSwap p) := by
  unfold Block.lateSwap
  with_reducible repeat' first | assumption | apply After.ite | apply Block.onSite_after

theorem Block.dropRecs_after {a b : Block} (p : Nat) (h : After a b) : After a (b.dropRecs p) := by
  unfold Block.dropRecs
  with_reducible repeat' first | assumption | apply Block.onBk_after

theorem Block.dropRemote_after {a b : Block} (p : Nat) (h : After a b) : After a (b.dropRemote p) := by
  unfold Block.dropRemote
  extract_lets l0
  have k0 : After a l0 := by
    subst l0
    with_reducible repeat' first | assumption | apply Block.onDm_after
  with_reducible repeat' first | assumption | apply After.mk

theorem Block.dropMcasts_after {a b : Block} (p : Nat) (h : After a b) : After a (b.dropMcasts p) := by
  unfold Block.dropMcasts
  with_reducible repeat' first | (intro) | assumption | apply After.ite | apply Block.each_after | apply Block.lateSwap_after | apply Block.onSite_after | dsimp only | apply After.mk

theorem Block.cutLoads_after {a b : Block} (p : Nat) (h : After a b) : After a (b.cutLoads p) := by
  unfold Block.cutLoads
  with_reducible repeat' first | assumption | apply After.mk

theorem Block.rndNow_after {a b : Block} (p : Nat) (h : After a b) : After a (b.rndNow p).2 := by
  unfold Block.rndNow
  with_reducible repeat' first | assumption | apply After.ite2 | apply Block.draw_after | split

theorem Block.stopStep_after {a b : Block} (p : Nat) (h : After a b) : After a (b.stopStep p) := by
  unfold Block.stopStep
  extract_lets l0
  have k0 : After a l0 := by
    subst l0
    with_reducible repeat' first | assumption | apply Block.cutLoads_after | apply Block.dropMcasts_after | apply Block.dropRemote_after | apply Block.dropRecs_after
  with_reducible repeat' first | assumption | apply Block.rndNow_after | apply Block.onSite_after | apply Block.wr_after

theorem Block.drainOver_after {a b : Block} (p : Nat) (h : After a b) : After a (b.drainOver p) := by
  unfold Block.drainOver
  with_reducible repeat' first | assumption | apply Block.freshSeed_after | apply Block.onSite_after

theorem Block.dropRun_after {a b : Block} (p : Nat) (h : After a b) : After a (b.dropRun p) := by
  unfold Block.dropRun
  with_reducible repeat' first | assumption | apply Block.onSite_after

theorem Block.captureAs_after {a b : Block} (p : Nat) (code : Nat) (eng : Nat) (pc : Nat) (va : Nat) (fatal : Bool) (ctx : Nat) (tick : Nat) (tag : Nat) (h : After a b) : After a (b.captureAs p code eng pc va fatal ctx tick tag) := by
  unfold Block.captureAs
  extract_lets l0 l1 l2
  have k0 : After a l0 := by
    subst l0
    with_reducible repeat' first | assumption | apply After.ite | apply Block.wr_after
  have k1 : After a l1 := by
    subst l1
    with_reducible repeat' first | assumption | apply Block.inc_after
  have k2 : After a l2 := by
    subst l2
    with_reducible repeat' first | assumption | apply After.ite | apply Block.inc_after
  with_reducible repeat' first | assumption | apply Block.report_after

theorem Block.captureExc_after {a b : Block} (p : Nat) (code : Nat) (eng : Nat) (pc : Nat) (va : Nat) (fatal : Bool) (h : After a b) : After a (b.captureExc p code eng pc va fatal) := by
  unfold Block.captureExc
  with_reducible repeat' first | assumption | apply Block.captureAs_after

theorem Block.failStep_after {a b : Block} (p : Nat) (code : Nat) (seq : Nat) (h : After a b) : After a (b.failStep p code seq) := by
  unfold Block.failStep
  extract_lets l0 l1 l2 l3
  clear_value l0 l1
  have k2 : After a l2 := by
    subst l2
    with_reducible repeat' first | assumption | apply Block.replayCut_after
  have k3 : After a l3 := by
    subst l3
    with_reducible repeat' first | assumption | apply Block.dropRun_after | apply Block.stopStep_after
  with_reducible repeat' first | assumption | apply After.ite | apply Block.stepFailed_after | split

theorem Block.raise_after {a b : Block} (p : Nat) (code : Nat) (eng : Nat) (pc : Nat) (va : Nat) (h : After a b) : After a (b.raise p code eng pc va) := by
  unfold Block.raise
  with_reducible repeat' first | assumption | apply Block.failStep_after | apply Block.captureExc_after

theorem Block.raisePc_after {a b : Block} (p : Nat) (code : Nat) (va : Nat) (h : After a b) : After a (b.raisePc p code va) := by
  unfold Block.raisePc
  with_reducible repeat' first | assumption | apply Block.raise_after

theorem Block.semFault_after {a b : Block} (p : Nat) (s : Nat) (src : SemSrc) (h : After a b) : After a (b.semFault p s src) := by
  unfold Block.semFault
  extract_lets l0 l1 l2 l3 l4
  clear_value l0 l1 l2 l3
  have k4 : After a l4 := by
    subst l4
    with_reducible repeat' first | assumption | apply Block.captureExc_after
  with_reducible repeat' first | assumption | apply After.ite | apply Block.failStep_after

theorem Block.semCycle_after {a b : Block} (p : Nat) (s : Nat) (set : Option Nat) (sig : Nat) (sub : Nat) (src : SemSrc) (h : After a b) : After a (b.semCycle p s set sig sub src) := by
  unfold Block.semCycle
  with_reducible repeat' first | assumption | apply After.ite | apply Block.onSite_after | apply Block.wr_after | apply Block.semFault_after

theorem Block.semJoin_after {a b : Block} (p : Nat) (s : Nat) (n : Nat) (src : SemSrc) (h : After a b) : After a (b.semJoin p s n src) := by
  unfold Block.semJoin
  with_reducible repeat' first | assumption | apply Block.onSite_after

theorem Block.signal_after {a b : Block} (p : Nat) (s : Nat) (n : Nat) (same : Bool) (src : SemSrc) (h : After a b) : After a (b.signal p s n same src) := by
  unfold Block.signal
  with_reducible repeat' first | assumption | apply After.ite | apply Block.semJoin_after | apply Block.semCycle_after

theorem Block.noteOutside_after {a b : Block} (p : Nat) (s : Nat) (n : Nat) (h : After a b) : After a (b.noteOutside p s n) := by
  unfold Block.noteOutside
  with_reducible repeat' first | assumption | apply Block.onSite_after

theorem Block.terminateAs_after {a b : Block} (p : Nat) (eng : Nat) (pc : Nat) (va : Nat) (ctx : Nat) (tick : Nat) (tag : Nat) (h : After a b) : After a (b.terminateAs p eng pc va ctx tick tag) := by
  unfold Block.terminateAs
  extract_lets l0 l1 l2 l3 l4 l5 l6 l7
  clear_value l0 l2 l7
  have k1 : After a l1 := by
    subst l1
    with_reducible repeat' first | assumption | apply Block.captureAs_after
  have k3 : After a l3 := by
    subst l3
    with_reducible repeat' first | assumption | apply Block.report_after
  have k4 : After a l4 := by
    subst l4
    with_reducible repeat' first | assumption | apply After.mk
  have k5 : After a l5 := by
    subst l5
    with_reducible repeat' first | assumption | apply Block.wr_after
  have k6 : After a l6 := by
    subst l6
    with_reducible repeat' first | (intro) | assumption | apply Block.failStep_after | apply After.foldl
  with_reducible repeat' first | (intro) | assumption | apply After.ite | apply Block.failStep_after | apply Block.settle_after | apply Block.complete_after | apply After.foldl

theorem Block.terminate_after {a b : Block} (p : Nat) (eng : Nat) (pc : Nat) (va : Nat) (h : After a b) : After a (b.terminate p eng pc va) := by
  unfold Block.terminate
  with_reducible repeat' first | assumption | apply Block.terminateAs_after

theorem Block.beginStep_after {a b : Block} (p : Nat) (r : StepRun) (h : After a b) : After a (b.beginStep p r) := by
  unfold Block.beginStep
  extract_lets l0 l1 l2
  clear_value l0
  have k1 : After a l1 := by
    subst l1
    with_reducible repeat' first | assumption | apply Block.onSite_after
  have k2 : After a l2 := by
    subst l2
    with_reducible repeat' first | assumption | apply Block.onSite_after
  with_reducible repeat' first | assumption | apply Block.wr_after

theorem Block.endTodo_after {a b : Block} (p : Nat) (r : StepRun) (h : After a b) : After a (b.endTodo p r) := by
  unfold Block.endTodo
  with_reducible repeat' first | assumption | apply Block.stepFailed_after

theorem Block.nextStepN_after {a y1 : Block} (y0 : Nat) (y2 : Nat) (h : After a y1) : After a (Block.nextStepN y0 y1 y2) := by
  induction y0 generalizing y1 y2 with
  | zero =>
    simp only [Block.nextStepN]
    with_reducible repeat' first | assumption | apply Block.onSite_after | apply Block.wr_after
  | succ n ih =>
    simp only [Block.nextStepN]
    with_reducible repeat' first | assumption | apply After.ite | apply Block.beginStep_after | apply Block.onSite_after | apply Block.wr_after | apply Block.endTodo_after | apply ih | split

theorem Block.nextStep_after {a b : Block} (p : Nat) (h : After a b) : After a (b.nextStep p) := by
  unfold Block.nextStep
  with_reducible repeat' first | assumption | apply Block.nextStepN_after

theorem Block.abortRun_after {a b : Block} (p : Nat) (h : After a b) : After a (b.abortRun p) := by
  unfold Block.abortRun
  extract_lets l0 l1 l2 l3
  clear_value l0 l1
  have k2 : After a l2 := by
    subst l2
    with_reducible repeat' first | assumption | apply Block.replayCut_after
  have k3 : After a l3 := by
    subst l3
    with_reducible repeat' first | assumption | apply Block.dropRun_after | apply Block.stopStep_after
  with_reducible repeat' first | assumption | apply After.ite | apply Block.stepFailed_after | split

theorem Block.fetch_after {a b : Block} (l : Nat) (h : After a b) : After a (b.fetch l).2 := by
  unfold Block.fetch
  with_reducible repeat' first | assumption | apply After.ite2 | apply Block.raisePc_after

theorem Block.advance_after {a b : Block} (p : Nat) (h : After a b) : After a (b.advance p) := by
  unfold Block.advance
  with_reducible repeat' first | assumption | apply After.ite | apply Block.onSite_after | apply Block.wr_after

theorem Block.issue_after {a b : Block} (l : Nat) (legal : Bool) (regs : List Nat) (f : Nat → Block → Block) (h : After a b) (hf : ∀ x0 c1, After a c1 → After a (f x0 c1)) : After a (b.issue l legal regs f) := by
  unfold Block.issue
  with_reducible repeat' first | assumption | apply After.ite | apply Block.fetch_after | apply Block.raisePc_after | apply hf | (refine After.snd (by assumption) ?_) | split

theorem Block.setSreg_after {a b : Block} (p : Nat) (n : Nat) (v : Nat) (h : After a b) : After a (b.setSreg p n v) := by
  unfold Block.setSreg
  with_reducible repeat' first | assumption | apply Block.advance_after | apply Block.onSite_after

/-! `Sys2Proof.Machine.MapOps` -/

theorem Block.packWords_after {a b : Block} (p out n : Nat) (h : After a b) : After a (b.packWords p out n).2 := by
  unfold Block.packWords
  with_reducible repeat' first | (intro) | assumption | apply Block.lsRead_after | apply After.foldl2

theorem Block.packSig_after {a b : Block} (p : Nat) (hd : List Nat) (h : After a b) : After a (b.packSig p hd).2 := by
  unfold Block.packSig
  exact Block.packWords_after _ _ _ h

theorem Block.packEnd_after {a b : Block} (p : Nat) (h : After a b) : After a (b.packEnd p) := by
  unfold Block.packEnd
  extract_lets hd sig b1 ok l0 l1 b2 b3 l2
  have k1 : After a b1 := Block.packSig_after _ _ h
  clear_value b1 ok l0 l1
  have k3 : After a b3 := by
    subst b3 b2
    with_reducible repeat' first | assumption | apply Block.onSite_after | apply Block.inc_after | apply Block.wr_after
  clear_value b3
  have k2 : ∀ c0 x1, After a c0 → After a (l2 c0 x1) := by
    subst l2
    with_reducible repeat' first | (intro) | assumption | apply Block.report_after
  with_reducible repeat' first | assumption | apply After.ite | apply Block.onSite_after | apply Block.inc_after | apply Block.wr_after | apply Block.report_after | apply Block.countTransient_after | apply Block.hwRetire_after

theorem Block.replayEnd_after {a b : Block} (p : Nat) (h : After a b) : After a (b.replayEnd p) := by
  unfold Block.replayEnd
  with_reducible repeat' first | assumption | apply Block.resOutcome_after | apply Block.wr_after | apply Block.onSite_after | split

theorem Block.tryEnd_after {a b : Block} (p : Nat) (h : After a b) : After a (b.tryEnd p) := by
  unfold Block.tryEnd
  extract_lets l0 l1
  have k0 : After a l0 := by
    subst l0
    with_reducible repeat' first | assumption | apply Block.inc_after
  have k1 : After a l1 := by
    subst l1
    with_reducible repeat' first | assumption | apply Block.replayEnd_after
  with_reducible repeat' first | assumption | apply After.ite | apply Block.packEnd_after | apply Block.stepEnded_after | apply Block.nextStep_after | apply Block.wr_after | apply Block.onSite_after | split

end Sys2Proof.Machine
end

