-- ==== Sys2Proof/Laws/AfterTile.lean ====
section
/-! SUPPORT. What the tile commands do (scalar core, synchronisation, DMA, Twill, Frond): one lemma per function, in the terms of `After`. -/

namespace Sys2Proof.Machine
open Reg

/-! `Sys2Proof.Machine.Scalar` -/

theorem Block.doScNop_after {a b : Block} (l : LTile) (rest : BitVec 54) (h : After a b) : After a (b.doScNop l rest) := by
  unfold Block.doScNop
  with_reducible repeat' first | (intro) | assumption | apply Block.issue_after | apply Block.advance_after

theorem Block.doScArith_after {a b : Block} (l : LTile) (f : FmtR) (h : After a b) : After a (b.doScArith l f) := by
  unfold Block.doScArith
  with_reducible repeat' first | (intro) | assumption | apply Block.issue_after | apply Block.setSreg_after

theorem Block.doScArithImm_after {a b : Block} (l : LTile) (f : FmtI) (h : After a b) : After a (b.doScArithImm l f) := by
  unfold Block.doScArithImm
  with_reducible repeat' first | (intro) | assumption | apply Block.issue_after | apply Block.setSreg_after

theorem Block.doScLi_after {a b : Block} (l : LTile) (f : FmtI) (h : After a b) : After a (b.doScLi l f) := by
  unfold Block.doScLi
  with_reducible repeat' first | (intro) | assumption | apply Block.issue_after | apply Block.setSreg_after

theorem Block.doScLih_after {a b : Block} (l : LTile) (f : FmtI) (h : After a b) : After a (b.doScLih l f) := by
  unfold Block.doScLih
  with_reducible repeat' first | (intro) | assumption | apply Block.issue_after | apply Block.setSreg_after

theorem Block.lsBytes_after {a b : Block} (p : Nat) (off : Nat) (n : Nat) (h : After a b) : After a (b.lsBytes p off n).2 := by
  unfold Block.lsBytes
  with_reducible repeat' first | (intro) | assumption | apply Block.lsRead_after | apply After.foldl2

theorem Block.lsStore_after {a b : Block} (p : Nat) (off : Nat) (bs : MBytes) (h : After a b) : After a (b.lsStore p off bs) := by
  unfold Block.lsStore
  with_reducible repeat' first | (intro) | assumption | apply Block.lsWrite_after | apply After.foldl

theorem Block.hold_after {a b : Block} (p : Nat) (x : PendLoad) (h : After a b) : After a (b.hold p x) := by
  unfold Block.hold
  with_reducible repeat' first | assumption | apply Block.onSite_after

theorem Block.load_after {a b : Block} (p : Nat) (l : Nat) (kind : Nat) (dst : Nat) (y5 : Nat) (n : Nat) (virt : Bool) (signed : Bool) (h : After a b) : After a (b.load p l kind dst y5 n virt signed) := by
  unfold Block.load
  with_reducible repeat' first | assumption | apply After.ite | apply Block.raisePc_after | apply Block.vread_after | apply Block.hold_after | apply Block.lsBytes_after | apply Block.holdAcc_after

theorem Block.store_after {a b : Block} (p : Nat) (l : Nat) (y3 : Nat) (bs : MBytes) (virt : Bool) (rel : Nat) (h : After a b) : After a (b.store p l y3 bs virt rel) := by
  unfold Block.store
  with_reducible repeat' first | assumption | apply After.ite | apply Block.raisePc_after | apply Block.vwrite_after | apply Block.advance_after | apply Block.lsStore_after | apply Block.holdAcc_after

theorem Block.doScLd_after {a b : Block} (l : LTile) (f : FmtI) (h : After a b) : After a (b.doScLd l f) := by
  unfold Block.doScLd
  with_reducible repeat' first | (intro) | assumption | apply Block.issue_after | apply Block.load_after

theorem Block.doScSt_after {a b : Block} (l : LTile) (f : FmtI) (h : After a b) : After a (b.doScSt l f) := by
  unfold Block.doScSt
  with_reducible repeat' first | (intro) | assumption | apply Block.issue_after | apply Block.store_after

theorem Block.doDscLd_after {a b : Block} (l : LTile) (f : FmtI) (h : After a b) : After a (b.doDscLd l f) := by
  unfold Block.doDscLd
  with_reducible repeat' first | (intro) | assumption | apply After.ite | apply Block.issue_after | apply Block.raisePc_after | apply Block.load_after

theorem Block.doDscSt_after {a b : Block} (l : LTile) (f : FmtI) (h : After a b) : After a (b.doDscSt l f) := by
  unfold Block.doDscSt
  with_reducible repeat' first | (intro) | assumption | apply Block.issue_after | apply Block.store_after

theorem Block.logEffect_after {a b : Block} (p : Nat) (kind : Nat) (vals : List Nat) (h : After a b) : After a (b.logEffect p kind vals) := by
  unfold Block.logEffect
  extract_lets l0
  have k0 : After a l0 := by
    subst l0
    with_reducible repeat' first | assumption | apply Block.onSite_after
  with_reducible repeat' first | assumption | apply After.ite | apply Block.onSite_after | apply Block.wr_after | split

theorem Block.replayed_after {a b c : Block} {p : Nat} {e : Effect} (h : After a b) (hr : b.replayed p = some (e, c)) : After a c := by
  unfold Block.replayed at hr
  split at hr
  · cases hr
  · split at hr
    · split at hr
      · cases hr; exact Block.onSite_after _ _ h
      · cases hr
    · cases hr

theorem Block.atomic_after {a b : Block} (p : Nat) (l : Nat) (op : Nat) (f : FmtR) (h : After a b) : After a (b.atomic p l op f) := by
  unfold Block.atomic
  extract_lets l0 l1 l2 l3 l4 l5 l6 l7
  clear_value l0 l1 l2 l3 l4 l5 l7
  have k6 : ∀ c0 x1 x2 x3, After a c0 → After a (l6 c0 x1 x2 x3) := by
    subst l6
    with_reducible repeat' first | (intro) | assumption | apply Block.hold_after
  with_reducible repeat' first | assumption | apply After.ite | apply Block.hold_after | apply Block.raisePc_after | apply Block.tileXl_after | apply Block.holdAcc_after | apply Block.holdHere_after | apply Block.matomic_after | apply Block.logEffect_after | apply Block.dmAtomic_after | (refine After.snd4 (by assumption) ?_) | (refine Block.replayed_after ?_ (by assumption)) | split

theorem Block.doScAadd_after {a b : Block} (l : LTile) (f : FmtR) (h : After a b) : After a (b.doScAadd l f) := by
  unfold Block.doScAadd
  with_reducible repeat' first | (intro) | assumption | apply Block.issue_after | apply Block.atomic_after

theorem Block.doScCas_after {a b : Block} (l : LTile) (f : FmtR) (h : After a b) : After a (b.doScCas l f) := by
  unfold Block.doScCas
  with_reducible repeat' first | (intro) | assumption | apply Block.issue_after | apply Block.atomic_after

theorem Block.doScLdReturn_after {a b : Block} (l : LTile) (h : After a b) : After a (b.doScLdReturn l) := by
  unfold Block.doScLdReturn
  extract_lets l0 l1
  clear_value l0
  have k1 : After a l1 := by
    subst l1
    with_reducible repeat' first | assumption | apply Block.onSite_after
  with_reducible repeat' first | assumption | apply After.ite | apply Block.onSite_after | apply Block.raisePc_after | apply Block.advance_after | apply Block.setSreg_after | split

theorem Block.jump_after {a b : Block} (p : Nat) (t : Int) (h : After a b) : After a (b.jump p t) := by
  unfold Block.jump
  with_reducible repeat' first | assumption | apply After.ite | apply Block.wr_after | apply Block.raisePc_after

theorem Block.doScBr_after {a b : Block} (l : LTile) (f : FmtB) (h : After a b) : After a (b.doScBr l f) := by
  unfold Block.doScBr
  with_reducible repeat' first | (intro) | assumption | apply After.ite | apply Block.issue_after | apply Block.jump_after | apply Block.advance_after

theorem Block.doScJal_after {a b : Block} (l : LTile) (f : FmtI) (h : After a b) : After a (b.doScJal l f) := by
  unfold Block.doScJal
  with_reducible repeat' first | (intro) | assumption | apply After.ite | apply Block.issue_after | apply Block.jump_after | apply Block.onSite_after | apply Block.raisePc_after

theorem Block.doScJr_after {a b : Block} (l : LTile) (f : FmtR) (h : After a b) : After a (b.doScJr l f) := by
  unfold Block.doScJr
  with_reducible repeat' first | (intro) | assumption | apply After.ite | apply Block.issue_after | apply Block.jump_after | apply Block.onSite_after | apply Block.raisePc_after

theorem Block.doDscMv_after {a b : Block} (l : LTile) (f : FmtR) (h : After a b) : After a (b.doDscMv l f) := by
  unfold Block.doDscMv
  with_reducible repeat' first | (intro) | assumption | apply Block.issue_after | apply Block.advance_after | apply Block.onSite_after

theorem Block.doDscPut_after {a b : Block} (l : LTile) (f : FmtR) (h : After a b) : After a (b.doDscPut l f) := by
  unfold Block.doDscPut
  with_reducible repeat' first | (intro) | assumption | apply Block.issue_after | apply Block.advance_after | apply Block.onSite_after

theorem Block.doDscGet_after {a b : Block} (l : LTile) (f : FmtR) (h : After a b) : After a (b.doDscGet l f) := by
  unfold Block.doDscGet
  with_reducible repeat' first | (intro) | assumption | apply Block.issue_after | apply Block.setSreg_after

theorem Block.doDscAdv_after {a b : Block} (l : LTile) (f : FmtR) (h : After a b) : After a (b.doDscAdv l f) := by
  unfold Block.doDscAdv
  with_reducible repeat' first | (intro) | assumption | apply Block.issue_after | apply Block.advance_after | apply Block.onSite_after

theorem Block.doTckCnt_after {a b : Block} (l : LTile) (f : FmtR) (h : After a b) : After a (b.doTckCnt l f) := by
  unfold Block.doTckCnt
  with_reducible repeat' first | (intro) | assumption | apply Block.issue_after | apply Block.setSreg_after

theorem Block.doTckNs_after {a b : Block} (l : LTile) (f : FmtR) (ns : W64) (h : After a b) : After a (b.doTckNs l f ns) := by
  unfold Block.doTckNs
  with_reducible repeat' first | (intro) | assumption | apply Block.issue_after | apply Block.setSreg_after

theorem Block.doStpCyc_after {a b : Block} (l : LTile) (f : FmtR) (cyc : W64) (h : After a b) : After a (b.doStpCyc l f cyc) := by
  unfold Block.doStpCyc
  with_reducible repeat' first | (intro) | assumption | apply Block.issue_after | apply Block.setSreg_after | apply Block.wr_after

theorem Block.doStpEnd_after {a b : Block} (l : LTile) (rest : BitVec 54) (h : After a b) : After a (b.doStpEnd l rest) := by
  unfold Block.doStpEnd
  with_reducible repeat' first | (intro) | assumption | apply Block.issue_after | apply Block.tryEnd_after | apply Block.onSite_after

/-! `Sys2Proof.Machine.Num` -/

theorem Block.countSat_after {a b : Block} (p : Nat) (x : SatAt) (n : Nat) (h : After a b) : After a (b.countSat p x n) := by
  unfold Block.countSat
  extract_lets l0 l1
  have k0 : After a l0 := by
    subst l0
    with_reducible repeat' first | assumption | apply Block.inc_after
  have k1 : After a l1 := by
    subst l1
    with_reducible repeat' first | assumption | apply Block.wr_after
  with_reducible repeat' first | assumption | apply After.ite | apply Block.wr_after

theorem Block.countEv_after {a b : Block} (p : Nat) (x : SatAt) (e : Ev) (h : After a b) : After a (b.countEv p x e) := by
  unfold Block.countEv
  with_reducible repeat' first | assumption | apply Block.inc_after | apply Block.countSat_after

/-! `Sys2Proof.Machine.Operands` -/

theorem Block.getRun_after {a b : Block} (p : Nat) (d : Nat) (i0 : Nat) (n : Nat) (o : Nat) (h : After a b) : After a (b.getRun p d i0 n o).2 := by
  unfold Block.getRun
  with_reducible repeat' first | assumption | apply After.ite2 | apply Block.lsBytes_after

theorem Block.runBytes_after {a b : Block} (p : Nat) (d : Nat) (i0 : Nat) (o : Nat) (es : List El) (h : After a b) : After a (b.runBytes p d i0 o es).2.2 := by
  unfold Block.runBytes
  with_reducible repeat' first | assumption | apply Block.lsBytes_after | apply After.ite3

theorem Block.putRun_after {a b : Block} (p : Nat) (d : Nat) (i0 : Nat) (o : Nat) (es : List El) (h : After a b) : After a (b.putRun p d i0 o es) := by
  unfold Block.putRun
  with_reducible repeat' first | assumption | apply After.ite | apply Block.onSite_after | apply Block.runBytes_after | apply Block.lsStore_after

theorem Block.fetchRun_after {a b : Block} (p : Nat) (d : Nat) (i0 : Nat) (n : Nat) (o : Nat) (h : After a b) : After a (b.fetchRun p d i0 n o).2.2 := by
  unfold Block.fetchRun
  with_reducible repeat' first | assumption | apply Block.vread_after | apply Block.getRun_after | apply After.ite3

theorem Block.holdLocal_after {a b : Block} (p : Nat) (pc : Nat) (off : Nat) (ms : MBytes) (waits : NSet) (codes : List Cw) (h : After a b) : After a (b.holdLocal p pc off ms waits codes) := by
  unfold Block.holdLocal
  with_reducible repeat' first | assumption | apply Block.holdAcc_after

theorem Block.storeRun_after {a b : Block} (p : Nat) (pc : Nat) (d : Nat) (i0 : Nat) (o : Nat) (es : List El) (rel : Nat) (h : After a b) : After a (b.storeRun p pc d i0 o es rel).2 := by
  unfold Block.storeRun
  with_reducible repeat' first | assumption | apply After.ite | apply After.ite2 | apply Block.vread_after | apply Block.vwrite_after | apply Block.runBytes_after | apply Block.lsStore_after | apply Block.holdLocal_after | apply Block.putRun_after

/-! `Sys2Proof.Machine.Sync` -/

theorem Block.retire_after {a b : Block} (p : Nat) (id : Nat) (h : After a b) : After a (b.retire p id) := by
  unfold Block.retire
  with_reducible repeat' first | assumption | apply Block.onSite_after

theorem Block.arrive_after {a b : Block} (s : Sig) (kind : Nat) (same : Bool) (h : After a b) : After a (b.arrive s kind same) := by
  unfold Block.arrive
  with_reducible repeat' first | assumption | apply After.ite | apply Block.holdReq_after | apply Block.signal_after | apply Block.noteOutside_after

theorem Block.runSemSig_after {a b : Block} (p : Nat) (i : EngIns) (h : After a b) : After a (b.runSemSig p i) := by
  unfold Block.runSemSig
  extract_lets l0 l1 l2 l3 l4
  clear_value l0 l1 l2 l3
  have k4 : After a l4 := by
    subst l4
    with_reducible repeat' first | assumption | apply Block.retire_after | apply Block.logEffect_after
  with_reducible repeat' first | assumption | apply After.ite | apply Block.semFault_after | apply Block.retire_after | apply Block.semCycle_after | (refine Block.replayed_after ?_ (by assumption)) | split | apply After.mk

theorem Block.runSemWait_after {a b : Block} (p : Nat) (i : EngIns) (h : After a b) : After a (b.runSemWait p i) := by
  unfold Block.runSemWait
  with_reducible repeat' first | assumption | apply Block.retire_after

theorem Block.runSemSub_after {a b : Block} (p : Nat) (i : EngIns) (h : After a b) : After a (b.runSemSub p i) := by
  unfold Block.runSemSub
  with_reducible repeat' first | assumption | apply Block.semCycle_after | apply Block.retire_after

theorem Block.runSemSet_after {a b : Block} (p : Nat) (i : EngIns) (h : After a b) : After a (b.runSemSet p i) := by
  unfold Block.runSemSet
  with_reducible repeat' first | assumption | apply Block.semCycle_after | apply Block.retire_after

theorem Block.semFlush_after {a b : Block} (p : Nat) (s : Nat) (h : After a b) : After a (b.semFlush p s) := by
  unfold Block.semFlush
  with_reducible repeat' first | assumption | apply After.ite | apply Block.semCycle_after

theorem Block.runSemRd_after {a b : Block} (p : Nat) (i : EngIns) (h : After a b) : After a (b.runSemRd p i) := by
  unfold Block.runSemRd
  extract_lets l0 l1
  clear_value l1
  have k0 : After a l0 := by
    subst l0
    with_reducible repeat' first | assumption | apply Block.semFlush_after
  with_reducible repeat' first | assumption | apply Block.onSite_after | apply Block.retire_after

theorem Block.waitRead_after {a b : Block} (p : Nat) (h : After a b) : After a (b.waitRead p) := by
  unfold Block.waitRead
  with_reducible repeat' first | assumption | apply After.ite | apply Block.tileXl_after | apply Block.raise_after | apply Block.onSite_after | apply Block.dmRead_after | split

theorem Block.waitDone_after {a b : Block} (p : Nat) (v : Nat) (h : After a b) : After a (b.waitDone p v) := by
  unfold Block.waitDone
  with_reducible repeat' first | assumption | apply Block.onSite_after | apply Block.tryEnd_after | split

theorem Block.waitGot_after {a b : Block} (p : Nat) (v : Nat) (pois : Bool) (h : After a b) : After a (b.waitGot p v pois) := by
  unfold Block.waitGot
  with_reducible repeat' first | assumption | apply After.ite | apply Block.raise_after | apply Block.onSite_after | apply Block.waitDone_after | split

theorem Block.runWtMem_after {a b : Block} (p : Nat) (i : EngIns) (h : After a b) : After a (b.runWtMem p i) := by
  unfold Block.runWtMem
  with_reducible repeat' first | assumption | apply After.ite | apply Block.raise_after | apply Block.waitRead_after | apply Block.onSite_after

theorem Block.doWaitReadReturn_after {a b : Block} (l : LTile) (h : After a b) : After a (b.doWaitReadReturn l) := by
  unfold Block.doWaitReadReturn
  with_reducible repeat' first | assumption | apply After.ite | apply Block.tryEnd_after | apply Block.onSite_after | apply Block.mread_after | apply Block.raise_after | apply Block.waitGot_after | split | dsimp only

theorem Block.doWaitPollTimer_after {a b : Block} (l : LTile) (h : After a b) : After a (b.doWaitPollTimer l) := by
  unfold Block.doWaitPollTimer
  with_reducible repeat' first | assumption | apply After.ite | apply Block.waitRead_after | split | dsimp only

theorem Block.doMemWaitTimeout_after {a b : Block} (l : LTile) (h : After a b) : After a (b.doMemWaitTimeout l) := by
  unfold Block.doMemWaitTimeout
  with_reducible repeat' first | assumption | apply After.ite | apply Block.waitDone_after | split | dsimp only

theorem Block.doSignalArrive_after {a b : Block} (src : LTile) (dst : LTile) (sem : BitVec 5) (same : Bool) (h : After a b) : After a (b.doSignalArrive src dst sem same) := by
  unfold Block.doSignalArrive
  with_reducible repeat' first | assumption | apply After.ite | apply Block.arrive_after | split | apply After.mk

theorem Block.doTlSemSignal_after {a b : Block} (l : LTile) (sem : BitVec 5) (same : Bool) (h : After a b) : After a (b.doTlSemSignal l sem same) := by
  unfold Block.doTlSemSignal
  with_reducible repeat' first | assumption | apply Block.arrive_after

/-! `Sys2Proof.Machine.Dma` -/

theorem Block.markDone_after {a b : Block} (p : Nat) (id : Nat) (h : After a b) : After a (b.markDone p id) := by
  unfold Block.markDone
  with_reducible repeat' first | assumption | apply Block.onSite_after

theorem Block.lsPutWords_after {a b : Block} (p : Nat) (off : Nat) (y3 : List Cw) (h : After a b) : After a (b.lsPutWords p off y3) := by
  induction y3 generalizing b p off with
  | nil =>
    simp only [Block.lsPutWords]
    with_reducible repeat' assumption
  | cons t l ih =>
    simp only [Block.lsPutWords]
    with_reducible repeat' first | assumption | apply ih | apply After.mkWord

theorem Block.moveWords_after {a b : Block} (p : Nat) (pc : Nat) (src : Nat) (dst : Nat) (n : Nat) (rel : Nat) (h : After a b) : After a (b.moveWords p pc src dst n rel).2 := by
  unfold Block.moveWords
  with_reducible repeat' first | assumption | apply After.ite | apply After.ite2 | apply Block.lsPutWords_after | apply Block.holdLocal_after

theorem Block.copyChunk_after {a b : Block} (p : Nat) (pc : Nat) (y3 : Nat) (d : Nat) (rel : Nat) (i0 : Nat) (n : Nat) (o : Nat) (h : After a b) : After a (b.copyChunk p pc y3 d rel i0 n o).2 := by
  unfold Block.copyChunk
  with_reducible repeat' first | assumption | apply After.ite2 | apply Block.moveWords_after | apply Block.fetchRun_after | apply Block.storeRun_after

theorem Block.dmaChunk_after {a b : Block} (p : Nat) (i : EngIns) (c : Nat × Nat × Nat) (h : After a b) : After a (b.dmaChunk p i c).2 := by
  unfold Block.dmaChunk
  with_reducible repeat' first | assumption | apply After.ite2 | apply Block.storeRun_after | apply Block.copyChunk_after

theorem Block.dmaWalk_after {a y3 : Block} (p : Nat) (i : EngIns) (y2 : List (Nat × Nat × Nat)) (y4 : Nat) (h : After a y3) : After a (Block.dmaWalk p i y2 y3 y4).2.2 := by
  induction y2 generalizing y3 y4 with
  | nil => exact h
  | cons c cs ih =>
    unfold Block.dmaWalk
    have hc := Block.dmaChunk_after p i c h
    dsimp only
    split
    · exact hc
    · exact ih _ (Block.onSite_after _ _ hc)

theorem Block.putChunks_after {a b : Block} (p : Nat) (r : ChunkRun) (h : After a b) : After a (b.putChunks p r) := by
  unfold Block.putChunks
  with_reducible repeat' first | assumption | apply Block.onSite_after

theorem Block.lastChunk_after {a b : Block} (p : Nat) (id : Nat) (h : After a b) : After a (b.lastChunk p id) := by
  unfold Block.lastChunk
  with_reducible repeat' first | assumption | apply Block.markDone_after | apply Block.onSite_after

theorem Block.dmaWork_after {a b : Block} (p : Nat) (r : ChunkRun) (n : Nat) (h : After a b) : After a (b.dmaWork p r n) := by
  unfold Block.dmaWork
  with_reducible repeat' first | assumption | apply After.ite | apply Block.dmaWalk_after | apply Block.raise_after | apply Block.lastChunk_after | apply Block.putChunks_after

theorem Block.chunksNow_after {a b : Block} (n : Nat) (h : After a b) : After a (b.chunksNow n).2 := by
  unfold Block.chunksNow
  with_reducible repeat' first | assumption | apply After.ite2 | apply Block.draw_after

theorem Block.runDma_after {a b : Block} (p : Nat) (i : EngIns) (h : After a b) : After a (b.runDma p i) := by
  unfold Block.runDma
  extract_lets l0 l1 l2
  clear_value l0 l1
  have k2 : After a l2 := by
    subst l2
    with_reducible repeat' first | assumption | apply Block.onSite_after
  with_reducible repeat' first | assumption | apply After.ite | apply Block.chunksNow_after | apply Block.dmaWork_after

theorem Block.runDmaCp_after {a b : Block} (p : Nat) (i : EngIns) (h : After a b) : After a (b.runDmaCp p i) := by
  unfold Block.runDmaCp
  with_reducible repeat' first | assumption | apply Block.runDma_after

theorem Block.runDmaFill_after {a b : Block} (p : Nat) (i : EngIns) (h : After a b) : After a (b.runDmaFill p i) := by
  unfold Block.runDmaFill
  with_reducible repeat' first | assumption | apply Block.runDma_after

theorem Block.dmaRest_after {a b : Block} (p : Nat) (r : ChunkRun) (h : After a b) : After a (b.dmaRest p r) := by
  unfold Block.dmaRest
  with_reducible repeat' first | assumption | apply After.ite | apply Block.dmaWork_after

theorem Block.runDmaCmpl_after {a b : Block} (p : Nat) (i : EngIns) (h : After a b) : After a (b.runDmaCmpl p i) := by
  unfold Block.runDmaCmpl
  extract_lets l0
  have k0 : After a l0 := by
    subst l0
    with_reducible repeat' first | assumption | apply Block.logEffect_after
  with_reducible repeat' first | assumption | apply After.ite | apply Block.markDone_after | apply Block.lsBytes_after | apply Block.bkRec_after | apply Block.onBk_after | (refine After.snd (by assumption) ?_) | (refine Block.replayed_after ?_ (by assumption)) | split | dsimp only

/-! `Sys2Proof.Machine.Twill` -/

theorem Block.readPlane_after {a b : Block} (p : Nat) (d : Nat) (dx : Nat) (h : After a b) : After a (b.readPlane p d dx).2.2.2 := by
  unfold Block.readPlane
  with_reducible repeat' first | (intro) | assumption | apply Block.getRun_after | apply After.ite4 | apply After.foldl3

theorem Block.runTwlLd_after {a b : Block} (p : Nat) (i : EngIns) (h : After a b) : After a (b.runTwlLd p i) := by
  unfold Block.runTwlLd
  with_reducible repeat' first | assumption | apply Block.readPlane_after | apply Block.onSite_after

theorem Block.doTwillLoadComplete_after {a b : Block} (l : LTile) (h : After a b) : After a (b.doTwillLoadComplete l) := by
  unfold Block.doTwillLoadComplete
  with_reducible repeat' first | assumption | apply Block.lateSwap_after | apply Block.onSite_after | apply Block.markDone_after | split | dsimp only

theorem Block.runTwlLdm_after {a b : Block} (p : Nat) (i : EngIns) (h : After a b) : After a (b.runTwlLdm p i) := by
  unfold Block.runTwlLdm
  with_reducible repeat' first | assumption | apply After.ite | apply Block.readPlane_after | apply Block.markDone_after | apply Block.onSite_after | apply After.mk

theorem Block.mcastEnd_after {a b : Block} (p : Nat) (m : Mcast) (same : Bool) (h : After a b) : After a (b.mcastEnd p m same) := by
  unfold Block.mcastEnd
  extract_lets l0 l1 l2
  clear_value l1
  have k0 : After a l0 := by
    subst l0
    with_reducible repeat' first | assumption | apply Block.onSite_after
  have k2 : After a l2 := by
    subst l2
    with_reducible repeat' first | assumption | apply Block.lateSwap_after
  with_reducible repeat' first | assumption | apply After.ite | apply Block.signal_after | apply Block.noteOutside_after

theorem Block.doMulticastRowArrive_after {a b : Block} (l : LTile) (src : LTile) (same : Bool) (h : After a b) : After a (b.doMulticastRowArrive l src same) := by
  unfold Block.doMulticastRowArrive
  with_reducible repeat' first | assumption | apply After.ite | apply Block.onSite_after | apply Block.mcastEnd_after | split | dsimp only | apply After.mk

theorem Block.actRow_after {a b : Block} (p : Nat) (d : Nat) (r : Nat) (h : After a b) : After a (b.actRow p d r).2 := by
  unfold Block.actRow
  with_reducible repeat' first | (intro) | assumption | apply After.ite2 | apply Block.getRun_after | apply Block.lsBytes_after | apply After.foldl2

theorem Block.replayFail_after {a b : Block} (p : Nat) (h : After a b) : After a (b.replayFail p) := by
  unfold Block.replayFail
  with_reducible repeat' first | assumption | apply Block.failStep_after

theorem Block.noteReads_after {a b : Block} (p : Nat) (rs : List Nat) (h : After a b) : After a (b.noteReads p rs) := by
  unfold Block.noteReads
  with_reducible repeat' first | assumption | apply After.ite | apply Block.onSite_after

theorem Block.noteWrites_after {a b : Block} (p : Nat) (rs : List Nat) (h : After a b) : After a (b.noteWrites p rs) := by
  unfold Block.noteWrites
  with_reducible repeat' first | assumption | apply Block.onSite_after

theorem Block.getRuns_after {a b : Block} (p : Nat) (d : Nat) (m : Nat) (n : Nat) (h : After a b) : After a (b.getRuns p d m n).2 := by
  unfold Block.getRuns
  with_reducible repeat' first | (intro) | assumption | apply Block.getRun_after | apply After.foldl2

theorem Block.mmScales_after {a b : Block} (p : Nat) (i : EngIns) (m : Nat) (nb : Nat) (h : After a b) : After a (b.mmScales p i m nb).2 := by
  unfold Block.mmScales
  with_reducible repeat' first | assumption | apply After.ite2 | apply Block.getRuns_after

theorem Block.mmRead_after {a b : Block} (p : Nat) (i : EngIns) (m : Nat) (nb : Nat) (h : After a b) : After a (b.mmRead p i m nb).2.2 := by
  unfold Block.mmRead
  extract_lets l0 l1
  have k0 : After a l0.2 := by
    subst l0
    with_reducible repeat' first | (intro) | assumption | apply Block.actRow_after | apply After.foldl2
  have k1 : After a l1.2 := by
    subst l1
    with_reducible repeat' first | assumption | apply Block.mmScales_after
  with_reducible repeat' assumption

theorem Block.runTwlMm_after {a b : Block} (p : Nat) (i : EngIns) (h : After a b) : After a (b.runTwlMm p i) := by
  unfold Block.runTwlMm
  extract_lets l0 l1 l2 l3 l4 l5
  clear_value l1 l2 l3 l4 l5
  have k0 : After a l0 := by
    subst l0
    with_reducible repeat' first | assumption | apply After.ite | apply Block.onSite_after
  with_reducible repeat' first | assumption | apply After.ite | apply Block.onSite_after | apply Block.replayFail_after | apply Block.terminate_after | apply Block.raise_after | apply Block.mmRead_after | apply Block.noteWrites_after | apply Block.noteReads_after | split

theorem Block.captureRes_after {a b : Block} (p : Nat) (q : PassRun) (r : Nat) (bl : Nat) (more : Bool) (h : After a b) : After a (b.captureRes p q r bl more) := by
  unfold Block.captureRes
  extract_lets l0 l1
  have k0 : After a l0 := by
    subst l0
    with_reducible repeat' first | assumption | apply Block.inc_after
  have k1 : After a l1 := by
    subst l1
    with_reducible repeat' first | assumption | apply After.ite | apply Block.wr_after
  with_reducible repeat' first | assumption | apply After.ite | apply Block.wr_after

theorem Block.lasting_after {a b : Block} (p : Nat) (img : Nat) (h : After a b) : After a (b.lasting p img) := by
  unfold Block.lasting
  with_reducible repeat' first | (intro) | assumption | apply After.ite | apply Block.resOutcome_after | apply Block.wr_after | apply Block.onSite_after | apply Block.hwRetire_after | apply Block.dropRun_after | apply Block.stopStep_after | apply Block.missingStep_after | apply Block.failStep_after | apply After.foldl | split

theorem Block.judge_after {a b : Block} (p : Nat) (q : PassRun) (sums : List Nat) (mm : Option (Nat × Nat)) (h : After a b) : After a (b.judge p q sums mm) := by
  unfold Block.judge
  with_reducible repeat' first | assumption | apply After.ite | apply Block.onSite_after | apply Block.stopStep_after | apply Block.lasting_after | split

theorem Block.passCount_after {a b : Block} (p : Nat) (q : PassRun) (out : PassOut) (mm : List (Nat × Nat)) (h : After a b) : After a (b.passCount p q out mm) := by
  unfold Block.passCount
  extract_lets l0 l1 l2 l3
  clear_value l0
  have k1 : After a l1 := by
    subst l1
    with_reducible repeat' first | assumption | apply Block.countSat_after
  have k2 : After a l2 := by
    subst l2
    with_reducible repeat' first | assumption | apply Block.inc_after
  have k3 : After a l3 := by
    subst l3
    with_reducible repeat' first | assumption | apply After.ite | apply Block.inc_after
  with_reducible repeat' first | assumption | apply Block.captureRes_after | split

theorem Block.passEnd_after {a b : Block} (p : Nat) (l : Nat) (q : PassRun) (rest : List PassRun) (us : List Upset) (rnd : Nat → Rnd) (h : After a b) : After a (b.passEnd p l q rest us rnd) := by
  unfold Block.passEnd
  extract_lets l0 l1 l2 l3 l4 l5 l6 l7
  clear_value l0 l1 l2 l3
  have k4 : After a l4 := by
    subst l4
    with_reducible repeat' first | assumption | apply Block.passCount_after | apply Block.onSite_after
  have k5 : After a l5 := by
    subst l5
    with_reducible repeat' first | assumption | apply Block.onSite_after
  have k6 : After a l6 := by
    subst l6
    with_reducible repeat' first | assumption | apply Block.onSite_after
  have k7 : After a l7 := by
    subst l7
    with_reducible repeat' first | assumption | apply Block.judge_after | apply Block.markDone_after
  with_reducible repeat' first | assumption | apply After.ite | apply Block.resOutcome_after | split | apply After.mk

theorem Block.seedSpent_after {a b : Block} (p : Nat) (h : After a b) : After a (b.seedSpent p) := by
  unfold Block.seedSpent
  with_reducible repeat' first | assumption | apply Block.onSite_after

theorem Block.seedFail_after {a b : Block} (p : Nat) (x : Nat) (eng : Nat) (pc : Nat) (dead : Bool) (ctx : Nat) (tick : Nat) (tag : Nat) (h : After a b) : After a (b.seedFail p x eng pc dead ctx tick tag) := by
  unfold Block.seedFail
  with_reducible repeat' first | assumption | apply After.ite | apply Block.seedSpent_after | apply Block.captureAs_after | apply Block.raise_after

theorem Block.doTwillPassComplete_after {a b : Block} (l : LTile) (us : List Upset) (h : After a b) : After a (b.doTwillPassComplete l us) := by
  unfold Block.doTwillPassComplete
  with_reducible repeat' first | assumption | apply After.ite | apply Block.passEnd_after | apply Block.seedFail_after | apply Block.onSite_after | split | dsimp only

theorem Block.doReplayStart_after {a b : Block} (l : LTile) (h : After a b) : After a (b.doReplayStart l) := by
  unfold Block.doReplayStart
  with_reducible repeat' first | (intro) | assumption | apply After.ite | apply Block.replayFail_after | apply Block.onSite_after | apply Block.wr_after | apply After.foldl | split | dsimp only

theorem Block.doSampleSendTimeout_after {a b : Block} (p : SiteIx) (h : After a b) : After a (b.doSampleSendTimeout p) := by
  unfold Block.doSampleSendTimeout
  with_reducible repeat' first | assumption | apply Block.inc_after | split | apply After.mk

theorem Block.sampleRec_after {a b : Block} (s : Sample) (cause : Nat) (h : After a b) : After a (b.sampleRec s cause) := by
  unfold Block.sampleRec
  with_reducible repeat' first | assumption | apply Block.report_after

theorem Block.doSampleResult_after {a b : Block} (p : SiteIx) (twoEqual : Bool) (same : Bool) (pois : Bool) (referee : Option Bool) (h : After a b) : After a (b.doSampleResult p twoEqual same pois referee) := by
  unfold Block.doSampleResult
  with_reducible repeat' first | (intro) | assumption | apply After.ite | apply Block.inc_after | apply Block.whenB_after | apply Block.wr_after | apply Block.countTransient_after | apply Block.sampleRec_after | apply Block.hwRetire_after | split | apply After.mk

/-! `Sys2Proof.Machine.Frond` -/

theorem Block.readChunk_after {a b : Block} (p : Nat) (d : Nat) (dx : Nat) (i0 : Nat) (n : Nat) (o : Nat) (h : After a b) : After a (b.readChunk p d dx i0 n o).2 := by
  unfold Block.readChunk
  with_reducible repeat' first | assumption | apply After.ite2 | apply Block.getRun_after

theorem Block.chunkIn_after {a b : Block} (p : Nat) (r : ChunkRun) (src : Nat) (d : Nat) (dx : Nat) (i0 : Nat) (n : Nat) (o : Nat) (h : After a b) : After a (b.chunkIn p r src d dx i0 n o).2.2 := by
  unfold Block.chunkIn
  with_reducible repeat' first | assumption | apply Block.readChunk_after | apply After.ite3

theorem Block.countChunk_after {a b : Block} (p : Nat) (cost : Nat) (spans : List (Nat × Nat)) (h : After a b) : After a (b.countChunk p cost spans) := by
  unfold Block.countChunk
  with_reducible repeat' first | assumption | apply After.ite2 | apply Block.draw_after | apply Block.inc_after

theorem Block.frPut_after {a b : Block} (r : ChunkRun) (p : Nat) (d : Nat) (i0 : Nat) (o : Nat) (es : List El) (h : After a b) : After a (b.frPut r p d i0 o es) := by
  unfold Block.frPut
  with_reducible repeat' first | assumption | apply After.ite | apply Block.putRun_after

theorem Block.writeChunk_after {a b : Block} (p : Nat) (r : ChunkRun) (inf1 : Bool) (i0 : Nat) (o : Nat) (xs : List XR) (h : After a b) : After a (b.writeChunk p r inf1 i0 o xs).2 := by
  unfold Block.writeChunk
  extract_lets l0 l1 l2 l3 l4 l5 l6 l7 l8 l9 l10 l11 l12 l13 l14 l15
  clear_value l0 l1 l2 l3 l4 l5 l6 l7 l9 l10 l11 l12
  have k13 : After a l13 := by
    subst l13
    with_reducible repeat' first | assumption | apply Block.countEv_after
  have k14 : After a l14 := by
    subst l14
    with_reducible repeat' first | assumption | apply Block.frPut_after
  have k15 : After a l15 := by
    subst l15
    with_reducible repeat' first | assumption | apply After.ite | apply Block.frPut_after
  with_reducible repeat' first | assumption | split

theorem Block.frFail_after {a b : Block} (p : Nat) (r : ChunkRun) (x : FrRes) (h : After a b) : After a (b.frFail p r x) := by
  unfold Block.frFail
  with_reducible repeat' first | assumption | apply After.ite | apply Block.seedFail_after | apply Block.terminateAs_after | apply Block.raise_after

theorem Block.frStart_after {a b : Block} (p : Nat) (i : EngIns) (h : After a b) : After a (b.frStart p i).2 := by
  unfold Block.frStart
  extract_lets l0 l1
  clear_value l0
  have k1 : After a l1 := by
    subst l1
    with_reducible repeat' first | assumption | apply Block.onSite_after
  with_reducible repeat' first | assumption | apply Block.noteWrites_after | apply Block.noteReads_after

theorem Block.cvtRow_after {a b : Block} (p : Nat) (r : ChunkRun) (o : Nat) (h : After a b) : After a (b.cvtRow p r o).2.2 := by
  unfold Block.cvtRow
  with_reducible repeat' first | assumption | apply After.ite | apply Block.readChunk_after | apply Block.inc_after | apply After.ite3 | split | dsimp only

theorem Block.affChunk_after {a b : Block} (p : Nat) (r : ChunkRun) (c : Nat × Nat × Nat) (h : After a b) : After a (b.affChunk p r c).2.2 := by
  unfold Block.affChunk
  with_reducible repeat' first | assumption | apply After.ite | apply Block.cvtRow_after | apply Block.countChunk_after | apply Block.frPut_after | apply After.ite3

theorem Block.elChunk_after {a b : Block} (p : Nat) (r : ChunkRun) (c : Nat × Nat × Nat) (h : After a b) : After a (b.elChunk p r c).2.2 := by
  unfold Block.elChunk
  with_reducible repeat' first | (intro) | assumption | apply Block.chunkIn_after | apply Block.countSat_after | apply Block.countChunk_after | apply Block.writeChunk_after | apply After.foldl3 | split | dsimp only

theorem Block.frChunk_after {a b : Block} (p : Nat) (r : ChunkRun) (c : Nat × Nat × Nat) (h : After a b) : After a (b.frChunk p r c).2.2 := by
  unfold Block.frChunk
  with_reducible repeat' first | assumption | apply Block.affChunk_after | apply Block.elChunk_after | apply After.ite3

theorem Block.frWalk_after {a y3 : Block} (p : Nat) (y1 : List (Nat × Nat × Nat)) (y2 : ChunkRun) (h : After a y3) : After a (Block.frWalk p y1 y2 y3).2.2 := by
  induction y1 generalizing y2 y3 with
  | nil => exact h
  | cons c cs ih =>
    unfold Block.frWalk
    have hc := Block.frChunk_after p y2 c h
    dsimp only
    split
    · exact hc
    · exact ih _ hc

theorem Block.frWork_after {a b : Block} (p : Nat) (r : ChunkRun) (n : Nat) (h : After a b) : After a (b.frWork p r n) := by
  unfold Block.frWork
  with_reducible repeat' first | assumption | apply After.ite | apply Block.frWalk_after | apply Block.frFail_after | apply Block.lastChunk_after | apply Block.putChunks_after

theorem Block.frGo_after {a b : Block} (p : Nat) (i : EngIns) (rnd : Nat) (chain : List Nat) (h : After a b) : After a (b.frGo p i rnd chain) := by
  unfold Block.frGo
  with_reducible repeat' first | assumption | apply Block.frStart_after | apply Block.chunksNow_after | apply Block.onSite_after | apply Block.frWork_after

theorem Block.frRest_after {a b : Block} (p : Nat) (dead : Bool) (h : After a b) : After a (b.frRest p dead) := by
  unfold Block.frRest
  with_reducible repeat' first | assumption | apply Block.frWork_after | split

theorem Block.runFrdEw_after {a b : Block} (p : Nat) (i : EngIns) (h : After a b) : After a (b.runFrdEw p i) := by
  unfold Block.runFrdEw
  with_reducible repeat' first | assumption | apply Block.frGo_after

theorem Block.runFrdChn_after {a b : Block} (p : Nat) (i : EngIns) (h : After a b) : After a (b.runFrdChn p i) := by
  unfold Block.runFrdChn
  extract_lets l0 l1
  clear_value l0
  have k1 : ∀ c0 x1 x2, After a c0 → After a (l1 c0 x1 x2) := by
    subst l1
    with_reducible repeat' first | (intro) | assumption | apply Block.raise_after | apply Block.frStart_after
  with_reducible repeat' first | assumption | apply After.ite | apply Block.raise_after | apply Block.frStart_after | apply Block.lsBytes_after | apply Block.frGo_after | split | dsimp only

theorem Block.runFrdCvt_after {a b : Block} (p : Nat) (i : EngIns) (h : After a b) : After a (b.runFrdCvt p i) := by
  unfold Block.runFrdCvt
  with_reducible repeat' first | assumption | apply Block.frGo_after

theorem Block.putCells_after {a b : Block} (p : Nat) (t : Nat) (ws : List ((Nat × Nat) × Nat × Bool)) (h : After a b) : After a (b.putCells p t ws) := by
  unfold Block.putCells
  with_reducible repeat' first | assumption | apply Block.onSite_after

theorem Block.regOp_after {a b : Block} (p : Nat) (i : EngIns) (pois : Bool) (ws : List (Nat × List ((Nat × Nat) × Nat × Bool))) (h : After a b) : After a (b.regOp p i pois ws) := by
  unfold Block.regOp
  with_reducible repeat' first | (intro) | assumption | apply After.ite | apply Block.frStart_after | apply Block.terminate_after | apply Block.markDone_after | apply Block.putCells_after | apply After.foldl

theorem Block.runFrdRed_after {a b : Block} (p : Nat) (i : EngIns) (h : After a b) : After a (b.runFrdRed p i) := by
  unfold Block.runFrdRed
  extract_lets l0 l1 l2 l3 l4 l5 l6 l7
  clear_value l0 l1 l2 l3 l4 l5 l6
  have k7 : After a l7 := by
    subst l7
    with_reducible repeat' first | assumption | apply Block.countSat_after
  with_reducible repeat' first | assumption | apply Block.regOp_after

theorem Block.runFrdTopk_after {a b : Block} (p : Nat) (i : EngIns) (h : After a b) : After a (b.runFrdTopk p i) := by
  unfold Block.runFrdTopk
  with_reducible repeat' first | assumption | apply Block.regOp_after

theorem Block.runFrdPerm_after {a b : Block} (p : Nat) (i : EngIns) (h : After a b) : After a (b.runFrdPerm p i) := by
  unfold Block.runFrdPerm
  with_reducible repeat' first | assumption | apply Block.regOp_after

theorem Block.runFrdShf_after {a b : Block} (p : Nat) (i : EngIns) (h : After a b) : After a (b.runFrdShf p i) := by
  unfold Block.runFrdShf
  with_reducible repeat' first | assumption | apply Block.regOp_after

theorem Block.runFrdPack_after {a b : Block} (p : Nat) (i : EngIns) (h : After a b) : After a (b.runFrdPack p i) := by
  unfold Block.runFrdPack
  with_reducible repeat' first | assumption | apply Block.regOp_after

theorem Block.runFrdUnpk_after {a b : Block} (p : Nat) (i : EngIns) (h : After a b) : After a (b.runFrdUnpk p i) := by
  unfold Block.runFrdUnpk
  with_reducible repeat' first | assumption | apply Block.regOp_after

end Sys2Proof.Machine
end

