-- ==== Sys2Proof/Laws/AfterMoss.lean ====
section
/-! SUPPORT. What the Moss engine, the memory commands and the translation commands do: one lemma per function, in the terms of `After`. -/

namespace Sys2Proof.Machine
open Reg

/-! `Sys2Proof.Machine.Moss` -/

theorem Block.dirRead_after {a b : Block} (table : Nat) (h : After a b) : After a (b.dirRead table).2.2 := by
  unfold Block.dirRead
  with_reducible repeat' first | assumption | apply Block.tableWords_after

theorem Block.engRead_after {a b : Block} (m : Nat) (ctx : Nat) (y3 : Nat) (n : Nat) (again : Bool) (h : After a b) : After a (b.engRead m ctx y3 n again).2 := by
  unfold Block.engRead
  extract_lets l0 l1 l2
  have k0 : After a l0 := by
    subst l0
    with_reducible repeat' first | assumption | apply Block.inc_after
  have k1 : After a l1 := by
    subst l1
    with_reducible repeat' first | assumption | apply After.ite | apply Block.inc_after
  have k2 : After a l2 := by
    subst l2
    with_reducible repeat' first | assumption | apply After.ite | apply Block.inc_after
  with_reducible repeat' first | assumption | apply Block.mread_after

theorem readTries_after {a y2 : Block} (f : Block → Bool → RecRead × Block) (y1 : Nat) (y3 : Bool) (h : After a y2) (hf : ∀ c0 x1, After a c0 → After a (f c0 x1).2) : After a (readTries f y1 y2 y3).2 := by
  induction y1 generalizing y2 y3 with
  | zero =>
    simp only [readTries]
    with_reducible repeat' first | assumption | apply hf
  | succ n ih =>
    simp only [readTries]
    with_reducible repeat' first | assumption | apply After.ite2 | apply hf | apply ih

theorem Block.onMss_after {a b : Block} (p : Nat) (f : MssUnit → MssUnit) (h : After a b) : After a (b.onMss p f) := by
  unfold Block.onMss
  with_reducible repeat' first | assumption | apply Block.onSite_after

theorem Block.onMoss_after {a b : Block} (f : Moss → Moss) (h : After a b) : After a (b.onMoss f) := by
  unfold Block.onMoss
  with_reducible repeat' first | assumption | apply After.mk

theorem Block.mssTryDone_after {a b : Block} (p : Nat) (id : Nat) (h : After a b) : After a (b.mssTryDone p id) := by
  unfold Block.mssTryDone
  with_reducible repeat' first | assumption | apply After.ite | apply Block.markDone_after | split

theorem Block.putVec_after {a b : Block} (p : Nat) (i : EngIns) (i0 : Nat) (i1 : Nat) (vs : List Nat) (pois : Bool) (h : After a b) : After a (b.putVec p i i0 i1 vs pois) := by
  unfold Block.putVec
  with_reducible repeat' first | assumption | apply Block.putRun_after | apply Block.noteWrites_after

theorem Block.putRaw_after {a b : Block} (p : Nat) (i : EngIns) (g : MssBag) (q : MssPart) (h : After a b) : After a (b.putRaw p i g q) := by
  unfold Block.putRaw
  with_reducible repeat' first | (intro) | assumption | apply Block.putRun_after | apply Block.noteWrites_after | apply After.foldl

theorem Block.bagDone_after {a b : Block} (p : Nat) (g : MssBag) (h : After a b) : After a (b.bagDone p g) := by
  unfold Block.bagDone
  extract_lets l0 l1 l2 l3
  clear_value l1 l3
  have k0 : After a l0 := by
    subst l0
    with_reducible repeat' first | assumption | apply Block.onMss_after
  have k2 : After a l2 := by
    subst l2
    with_reducible repeat' first | assumption | apply Block.inc_after
  with_reducible repeat' first | (intro) | assumption | apply After.ite | apply Block.raise_after | apply Block.putRaw_after | apply Block.putVec_after | apply Block.mssTryDone_after | apply Block.lsStore_after | apply After.foldl | split

theorem Block.partDone_after {a b : Block} (p : Nat) (tag : Nat) (st : Nat) (data : MBytes) (h : After a b) : After a (b.partDone p tag st data) := by
  unfold Block.partDone
  with_reducible repeat' first | assumption | apply After.ite | apply Block.inc_after | apply Block.onMss_after | apply Block.bagDone_after | split

theorem Block.flushPack_after {a b : Block} (p : Nat) (k : MssPack) (h : After a b) : After a (b.flushPack p k) := by
  unfold Block.flushPack
  extract_lets l0
  have k0 : After a l0 := by
    subst l0
    with_reducible repeat' first | assumption | apply Block.onMss_after
  with_reducible repeat' first | assumption | apply After.ite | apply Block.dmSend_after

theorem Block.mssFail_after {a b : Block} (p : Nat) (ins : Nat) (pc : Nat) (code : Nat) (va : Nat) (h : After a b) : After a (b.mssFail p ins pc code va) := by
  unfold Block.mssFail
  with_reducible repeat' first | (intro) | assumption | apply Block.raise_after | apply Block.each_after | apply Block.flushPack_after

theorem Block.packItem_after {a b : Block} (p : Nat) (ins : Nat) (node : Nat) (kind : Nat) (tag : Nat) (item : MBytes) (h : After a b) : After a (b.packItem p ins node kind tag item) := by
  unfold Block.packItem
  extract_lets l0 l1
  clear_value l0
  have k1 : After a l1 := by
    subst l1
    with_reducible repeat' first | assumption | apply After.ite | apply Block.flushPack_after | split
  with_reducible repeat' first | assumption | apply Block.onMss_after

theorem Block.ownerCheck_after {a b : Block} (table : Nat) (cls : Nat) (rows : List Nat) (h : After a b) : After a (b.ownerCheck table cls rows).2.2 := by
  unfold Block.ownerCheck
  with_reducible repeat' first | assumption | apply Block.dirRead_after | apply Block.inc_after | apply After.ite3

theorem Block.ownerRaw_after {a b : Block} (ctx : Nat) (tick : Nat) (table : Nat) (rows : List Nat) (h : After a b) : After a (b.ownerRaw ctx tick table rows).2.2 := by
  unfold Block.ownerRaw
  with_reducible repeat' first | (intro) | assumption | apply Block.ownerCheck_after | apply Block.mread_after | apply After.ite3 | apply After.foldl3 | (refine After.snd3 (by assumption) ?_) | split

theorem Block.showMs_after {a b : Block} (m : Nat) (h : After a b) : After a (b.showMs m) := by
  unfold Block.showMs
  extract_lets l0 l1 l2 l3 l4 l5
  clear_value l0 l1 l2 l3
  have k4 : After a l4 := by
    subst l4
    with_reducible repeat' first | assumption | apply Block.wr_after
  have k5 : After a l5 := by
    subst l5
    with_reducible repeat' first | assumption | apply Block.wr_after
  with_reducible repeat' first | (intro) | assumption | apply Block.wr_after | apply After.foldl

theorem Block.toEngine_after {a b : Block} (q : MPart) (h : After a b) : After a (b.toEngine q) := by
  unfold Block.toEngine
  with_reducible repeat' first | assumption | apply Block.onMoss_after

theorem Block.toTile_after {a b : Block} (r : MRet) (h : After a b) : After a (b.toTile r) := by
  unfold Block.toTile
  with_reducible repeat' first | assumption | apply Block.onMoss_after

theorem Block.poolCount_after {a b : Block} (m : Nat) (v : List Nat) (ovf : Bool) (h : After a b) : After a (b.poolCount m v ovf) := by
  unfold Block.poolCount
  extract_lets l0
  have k0 : After a l0 := by
    subst l0
    with_reducible repeat' first | assumption | apply After.ite | apply Block.inc_after
  with_reducible repeat' first | assumption | apply After.ite | apply Block.inc_after

theorem Block.poolHere_after {a b : Block} (p : Nat) (e : List Nat) (mode : Nat) (tick : Nat) (rows : List (Nat × Nat)) (h : After a b) : After a (b.poolHere p e mode tick rows).2.2 := by
  unfold Block.poolHere
  with_reducible repeat' first | (intro) | assumption | apply After.ite | apply readTries_after | apply Block.inc_after | apply Block.tread_after | apply Block.poolCount_after | apply After.foldl2

theorem Block.splitBag_after {a b : Block} (p : Nat) (i : EngIns) (item : Nat) (table : Nat) (mode : Nat) (i0 : Nat) (i1 : Nat) (e : List Nat) (rows : List (Nat × Nat)) (h : After a b) : After a (b.splitBag p i item table mode i0 i1 e rows) := by
  unfold Block.splitBag
  extract_lets l0 l1 l2 l3 l4 l5 l6 l7 l8
  clear_value l0 l1 l2 l3 l4 l5 l6
  have k7 : After a l7 := by
    subst l7
    with_reducible repeat' first | assumption | apply Block.onMoss_after
  have k8 : After a l8 := by
    subst l8
    with_reducible repeat' first | assumption | apply Block.onMss_after
  with_reducible repeat' first | (intro) | assumption | apply After.ite | apply Block.bagDone_after | apply Block.partDone_after | apply Block.packItem_after | apply Block.ownerRaw_after | apply Block.toTile_after | apply Block.poolHere_after | apply Block.toEngine_after | apply After.foldl

theorem Block.readTo_after {a b : Block} (p : Nat) (id : Nat) (off : Nat) (h : After a b) : After a (b.readTo p id off) := by
  unfold Block.readTo
  with_reducible repeat' first | assumption | apply Block.onMss_after

theorem Block.askEntry_after {a b : Block} (p : Nat) (table : Nat) (h : After a b) : After a (b.askEntry p table) := by
  unfold Block.askEntry
  with_reducible repeat' first | assumption | apply Block.onMss_after

theorem Block.bagGroup_after {a b : Block} (p : Nat) (i : EngIns) (off : Nat) (h : After a b) : After a (b.bagGroup p i off).2 := by
  unfold Block.bagGroup
  with_reducible repeat' first | assumption | apply After.ite2 | apply Block.lsBytes_after | apply Block.mssFail_after | apply Block.askEntry_after | apply Block.readTo_after | apply Block.splitBag_after | split | dsimp only

theorem Block.showMerge_after {a b : Block} (m : Nat) (h : After a b) : After a (b.showMerge m) := by
  unfold Block.showMerge
  with_reducible repeat' first | assumption | apply Block.wr_after

theorem Block.rejCount_after {a b : Block} (m : Nat) (st : Nat) (h : After a b) : After a (b.rejCount m st) := by
  unfold Block.rejCount
  with_reducible repeat' first | assumption | apply After.ite | apply Block.inc_after

theorem Block.mergeIn_after {a b : Block} (m : Nat) (table : Nat) (row : Nat) (win : Nat) (e : List Nat) (c : Contrib) (h : After a b) : After a (b.mergeIn m table row win e c) := by
  unfold Block.mergeIn
  with_reducible repeat' first | assumption | apply Block.onMoss_after

theorem Block.contribute_after {a b : Block} (node : Nat) (l : Nat) (ctx : Nat) (u : Nat) (c : ContribItem) (h : After a b) : After a (b.contribute node l ctx u c).2 := by
  unfold Block.contribute
  with_reducible repeat' first | assumption | apply After.ite | apply After.ite2 | apply Block.dirRead_after | apply Block.tagFail_after | apply Block.wr_after | apply Block.showMerge_after | apply Block.inc_after | apply Block.mergeIn_after | apply Block.rejCount_after

theorem Block.groupTry_after {a b : Block} (p : Nat) (g : MssGroup) (h : After a b) : After a (b.groupTry p g) := by
  unfold Block.groupTry
  extract_lets l0 l1 l2
  clear_value l0
  have k1 : After a l1 := by
    subst l1
    with_reducible repeat' first | assumption | apply Block.onSite_after
  have k2 : After a l2 := by
    subst l2
    with_reducible repeat' first | assumption | apply Block.lsStore_after
  with_reducible repeat' first | assumption | apply After.ite | apply Block.mssFail_after | apply Block.mssTryDone_after

theorem Block.contribDone_after {a b : Block} (p : Nat) (seq : Nat) (st : Nat) (h : After a b) : After a (b.contribDone p seq st) := by
  unfold Block.contribDone
  with_reducible repeat' first | assumption | apply Block.groupTry_after | apply Block.onMss_after | split

theorem Block.sendGroup_after {a b : Block} (p : Nat) (i : EngIns) (item : Nat) (table : Nat) (e : List Nat) (rows : List (Nat × MBytes)) (h : After a b) : After a (b.sendGroup p i item table e rows) := by
  unfold Block.sendGroup
  with_reducible repeat' first | (intro) | assumption | apply After.ite | apply Block.onMss_after | apply Block.groupTry_after | apply Block.contribDone_after | apply Block.contribute_after | apply Block.packItem_after | apply After.foldl | split

theorem Block.rowGroups_after {a b : Block} (p : Nat) (at_ : Nat) (step : Nat) (y4 : Nat) (h : After a b) : After a (b.rowGroups p at_ step y4).2.2.2 := by
  induction y4 generalizing b p at_ step with
  | zero =>
    simp only [Block.rowGroups]
    with_reducible repeat' assumption
  | succ n ih =>
    simp only [Block.rowGroups]
    with_reducible repeat' first | assumption | apply Block.lsBytes_after | apply ih | apply After.ite4

theorem Block.updGroup_after {a b : Block} (p : Nat) (i : EngIns) (off : Nat) (h : After a b) : After a (b.updGroup p i off).2 := by
  unfold Block.updGroup
  with_reducible repeat' first | assumption | apply After.ite2 | apply Block.lsBytes_after | apply Block.mssFail_after | apply Block.askEntry_after | apply Block.rowGroups_after | apply Block.readTo_after | apply Block.sendGroup_after | (refine After.snd4 (by assumption) ?_) | split

theorem Block.blockEnd_after {a b : Block} (p : Nat) (i : EngIns) (h : After a b) : After a (b.blockEnd p i) := by
  unfold Block.blockEnd
  with_reducible repeat' first | (intro) | assumption | apply After.ite | apply Block.mssTryDone_after | apply Block.flushPack_after | apply After.foldl

theorem Block.mssPumpN_after {a y1 : Block} (y0 : Nat) (y2 : Nat) (h : After a y1) : After a (Block.mssPumpN y0 y1 y2) := by
  induction y0 generalizing y1 y2 with
  | zero =>
    simp only [Block.mssPumpN]
    with_reducible repeat' assumption
  | succ n ih =>
    simp only [Block.mssPumpN]
    with_reducible repeat' first | assumption | apply After.ite | apply After.ite2 | apply Block.blockEnd_after | apply Block.updGroup_after | apply Block.bagGroup_after | apply ih | split

theorem Block.mssPump_after {a b : Block} (p : Nat) (h : After a b) : After a (b.mssPump p) := by
  unfold Block.mssPump
  with_reducible repeat' first | assumption | apply Block.mssPumpN_after

theorem Block.mssSlot_after {a b : Block} (p : Nat) (i : EngIns) (h : After a b) : After a (b.mssSlot p i) := by
  unfold Block.mssSlot
  with_reducible repeat' first | assumption | apply Block.onMss_after

theorem Block.runMss_after {a b : Block} (p : Nat) (i : EngIns) (h : After a b) : After a (b.runMss p i) := by
  unfold Block.runMss
  with_reducible repeat' first | assumption | apply Block.ctxEntry_after | apply Block.raise_after | apply Block.xlFail_after | apply Block.mssSlot_after | apply Block.mssPump_after | (refine After.snd (by assumption) ?_) | split | dsimp only

theorem Block.runMssBag_after {a b : Block} (p : Nat) (i : EngIns) (h : After a b) : After a (b.runMssBag p i) := by
  unfold Block.runMssBag
  with_reducible repeat' first | assumption | apply Block.runMss_after

theorem Block.runMssRaw_after {a b : Block} (p : Nat) (i : EngIns) (h : After a b) : After a (b.runMssRaw p i) := by
  unfold Block.runMssRaw
  with_reducible repeat' first | assumption | apply Block.runMss_after

theorem Block.runMssUpd_after {a b : Block} (p : Nat) (i : EngIns) (h : After a b) : After a (b.runMssUpd p i) := by
  unfold Block.runMssUpd
  extract_lets l0 l1 l2
  clear_value l1
  have k0 : After a l0 := by
    subst l0
    with_reducible repeat' first | assumption | apply Block.logEffect_after
  have k2 : After a l2 := by
    subst l2
    with_reducible repeat' first | assumption | apply After.ite | apply Block.onMss_after
  with_reducible repeat' first | (intro) | assumption | apply Block.lsStore_after | apply Block.markDone_after | apply Block.readTo_after | apply Block.runMss_after | apply After.foldl | (refine Block.replayed_after ?_ (by assumption)) | split

theorem Block.doTableEntryReadReturn_after {a b : Block} (l : LTile) (h : After a b) : After a (b.doTableEntryReadReturn l) := by
  unfold Block.doTableEntryReadReturn
  with_reducible repeat' first | assumption | apply After.ite | apply Block.dirRead_after | apply Block.onMss_after | apply Block.room_after | apply Block.mssPump_after | apply Block.mssFail_after | split | dsimp only

theorem Block.sendReturn_after {a b : Block} (q : MPart) (st : Nat) (data : MBytes) (h : After a b) : After a (b.sendReturn q st data) := by
  unfold Block.sendReturn
  with_reducible repeat' first | assumption | apply After.ite | apply Block.toTile_after | apply Block.dmSend_after | split

theorem Block.replCheck_after {a b : Block} (m : Nat) (table : Nat) (rows : List Nat) (h : After a b) : After a (b.replCheck m table rows).2.2 := by
  unfold Block.replCheck
  with_reducible repeat' first | assumption | apply Block.dirRead_after | apply Block.inc_after | apply After.ite3

theorem Block.doPartAccept_after {a b : Block} (m : Fin 12) (h : After a b) : After a (b.doPartAccept m) := by
  unfold Block.doPartAccept
  with_reducible repeat' first | assumption | apply After.ite | apply Block.onMoss_after | apply Block.replCheck_after | apply Block.ownerCheck_after | apply Block.sendReturn_after | apply Block.inc_after | apply Block.showMs_after | split

theorem Block.doRecordReadReturn_after {a b : Block} (m : Fin 12) (k : Nat) (row : Nat) (h : After a b) : After a (b.doRecordReadReturn m k row) := by
  unfold Block.doRecordReadReturn
  with_reducible repeat' first | assumption | apply After.ite | apply Block.engRead_after | apply Block.inc_after | apply Block.showMs_after | apply Block.onMoss_after | split

theorem Block.doPartPooled_after {a b : Block} (m : Fin 12) (k : Nat) (h : After a b) : After a (b.doPartPooled m k) := by
  unfold Block.doPartPooled
  with_reducible repeat' first | assumption | apply After.ite | apply Block.showMs_after | apply Block.onMoss_after | apply Block.inc_after | apply Block.sendReturn_after | apply Block.poolCount_after | split

theorem Block.doPooledReturnArrive_after {a b : Block} (l : LTile) (tag : W32) (h : After a b) : After a (b.doPooledReturnArrive l tag) := by
  unfold Block.doPooledReturnArrive
  with_reducible repeat' first | assumption | apply After.ite | apply Block.onMoss_after | apply Block.inc_after | apply Block.mssPump_after | apply Block.partDone_after | split

theorem Block.doPartTimeout_after {a b : Block} (l : LTile) (tag : W32) (h : After a b) : After a (b.doPartTimeout l tag) := by
  unfold Block.doPartTimeout
  with_reducible repeat' first | assumption | apply After.ite | apply Block.mssPump_after | apply Block.partDone_after

theorem Block.doUpdateTimeout_after {a b : Block} (l : LTile) (seq : W32) (h : After a b) : After a (b.doUpdateTimeout l seq) := by
  unfold Block.doUpdateTimeout
  with_reducible repeat' first | assumption | apply After.ite | apply Block.contribDone_after

theorem Block.doMsTdirInval_after {a b : Block}  (h : After a b) : After a (b.doMsTdirInval) := by
  unfold Block.doMsTdirInval
  extract_lets l0
  have k0 : After a l0 := by
    subst l0
    with_reducible repeat' first | assumption | apply Block.onMoss_after
  with_reducible repeat' first | assumption | dsimp only | apply After.mk

theorem Block.mergeDrop_after {a b : Block} (x : MEntry) (cause : Nat) (h : After a b) : After a (b.mergeDrop x cause) := by
  unfold Block.mergeDrop
  extract_lets l0 l1
  have k0 : After a l0 := by
    subst l0
    with_reducible repeat' first | assumption | apply Block.onMoss_after
  have k1 : After a l1 := by
    subst l1
    with_reducible repeat' first | assumption | apply After.ite | apply Block.inc_after
  with_reducible repeat' first | assumption | apply Block.report_after

theorem Block.entryApply_after {a b : Block} (x : MEntry) (e : List Nat) (h : After a b) : After a (b.entryApply x e) := by
  unfold Block.entryApply
  with_reducible repeat' first | (intro) | assumption | apply After.ite | apply readTries_after | apply Block.engRead_after | apply Block.mergeDrop_after | apply Block.mwrite_after | apply Block.inc_after | apply Block.onMoss_after | apply After.foldl

theorem Block.doApplyPass_after {a b : Block} (m : Fin 12) (h : After a b) : After a (b.doApplyPass m) := by
  unfold Block.doApplyPass
  extract_lets l0 l1 l2
  clear_value l0 l2
  have k1 : After a l1 := by
    subst l1
    with_reducible repeat' first | assumption | apply Block.onMoss_after
  with_reducible repeat' first | (intro) | assumption | apply Block.onMoss_after | apply Block.dirRead_after | apply Block.mergeDrop_after | apply Block.inc_after | apply Block.entryApply_after | apply Block.showMerge_after | apply After.foldl1 | (refine After.snd3 (by assumption) ?_) | split | dsimp only

theorem Block.switchDiscard_after {a b : Block} (prev : Nat) (h : After a b) : After a (b.switchDiscard prev) := by
  unfold Block.switchDiscard
  extract_lets l0
  have k0 : After a l0 := by
    subst l0
    with_reducible repeat' first | (intro) | assumption | apply After.ite | apply Block.dirRead_after | apply Block.mergeDrop_after | apply After.foldl
  with_reducible repeat' first | (intro) | assumption | apply Block.showMerge_after | apply After.foldl

theorem Block.ownRemoteBag_after {a b : Block} (node : Nat) (cls : Nat) (port : Nat) (y4 : BagHdr) (raw : Bool) (parts : List PartItem) (h : After a b) : After a (b.ownRemoteBag node cls port y4 raw parts) := by
  unfold Block.ownRemoteBag
  extract_lets l0 l1 l2
  clear_value l0 l1
  have k2 : After a l2 := by
    subst l2
    with_reducible repeat' first | assumption | apply After.ite | apply Block.inc_after
  with_reducible repeat' first | (intro) | assumption | apply After.ite | apply Block.sendReturn_after | apply Block.ownerRaw_after | apply Block.ownerCheck_after | apply Block.toEngine_after | apply After.foldl | (refine After.snd3 (by assumption) ?_) | split

theorem Block.ownPooledReturn_after {a b : Block} (l : Nat) (items : List RetItem) (h : After a b) : After a (b.ownPooledReturn l items) := by
  unfold Block.ownPooledReturn
  with_reducible repeat' first | (intro) | assumption | apply After.ite | apply Block.inc_after | apply Block.onMoss_after | apply Block.mssPump_after | apply Block.partDone_after | apply After.foldl

theorem Block.ownUpdate_after {a b : Block} (node : Nat) (cls : Nat) (y3 : BagHdr) (cs : List ContribItem) (h : After a b) : After a (b.ownUpdate node cls y3 cs) := by
  unfold Block.ownUpdate
  with_reducible repeat' first | (intro) | assumption | apply After.ite | apply Block.contribute_after | apply Block.dmSend_after | apply After.foldl2

theorem Block.ownUpdateAck_after {a b : Block} (l : Nat) (acks : List (Nat × Nat)) (h : After a b) : After a (b.ownUpdateAck l acks) := by
  unfold Block.ownUpdateAck
  with_reducible repeat' first | (intro) | assumption | apply After.ite | apply Block.contribDone_after | apply After.foldl

/-! `Sys2Proof.Machine.Engine` -/

theorem Block.runIns_after {a b : Block} (p : Nat) (i : EngIns) (h : After a b) : After a (b.runIns p i) := by
  unfold Block.runIns
  with_reducible repeat' first | assumption | apply Block.runSemSig_after | apply Block.runSemWait_after | apply Block.runSemSub_after | apply Block.runSemSet_after | apply Block.runSemRd_after | apply Block.runWtMem_after | apply Block.runDmaCp_after | apply Block.runDmaFill_after | apply Block.runDmaCmpl_after | apply Block.runTwlMm_after | apply Block.runTwlLd_after | apply Block.runTwlLdm_after | apply Block.runFrdEw_after | apply Block.runFrdChn_after | apply Block.runFrdCvt_after | apply Block.runFrdRed_after | apply Block.runFrdTopk_after | apply Block.runFrdPerm_after | apply Block.runFrdShf_after | apply Block.runFrdPack_after | apply Block.runFrdUnpk_after | apply Block.runMssBag_after | apply Block.runMssRaw_after | apply Block.runMssUpd_after | split

theorem Block.startHead_after {a b : Block} (p : Nat) (eng : Nat) (h : After a b) : After a (b.startHead p eng) := by
  unfold Block.startHead
  with_reducible repeat' first | assumption | apply After.ite | apply Block.semCycle_after | apply Block.frRest_after | apply Block.onSite_after | apply Block.tryEnd_after | apply Block.runIns_after | split | dsimp only

theorem Block.doEngineInstructionStart_after {a b : Block} (l : LTile) (eng : Fin 6) (h : After a b) : After a (b.doEngineInstructionStart l eng) := by
  unfold Block.doEngineInstructionStart
  with_reducible repeat' first | assumption | apply After.ite | apply Block.startHead_after

theorem Block.runRest_after {a b : Block} (p : Nat) (i : EngIns) (h : After a b) : After a (b.runRest p i) := by
  unfold Block.runRest
  with_reducible repeat' first | assumption | apply After.ite | apply Block.dmaRest_after | apply Block.frRest_after | split

theorem Block.doEngineInstructionComplete_after {a b : Block} (l : LTile) (eng : Fin 6) (n : Nat) (same : Bool) (h : After a b) : After a (b.doEngineInstructionComplete l eng n same) := by
  unfold Block.doEngineInstructionComplete
  with_reducible repeat' first | assumption | apply After.ite | apply Block.frRest_after | apply Block.runRest_after | apply Block.retire_after | apply Block.signal_after | apply Block.tryEnd_after | split

theorem Block.dispatch_after {a b : Block} (l : Nat) (legal : Bool) (regs : List Nat) (mk : Nat → Block → EngIns) (ok : EngIns → Bool) (h : After a b) : After a (b.dispatch l legal regs mk ok) := by
  unfold Block.dispatch
  with_reducible repeat' first | (intro) | assumption | apply After.ite | apply Block.issue_after | apply Block.raise_after | apply Block.onSite_after | apply Block.startHead_after | apply Block.advance_after

theorem Block.dispatchT_after {a b : Block} (l : Nat) (op : EngOp) (eng : Nat) (t : FmtT) (legal : Bool) (ok : EngIns → Bool) (h : After a b) : After a (b.dispatchT l op eng t legal ok) := by
  unfold Block.dispatchT
  with_reducible repeat' first | assumption | apply Block.dispatch_after

theorem Block.doSemSig_after {a b : Block} (l : LTile) (f : FmtI) (h : After a b) : After a (b.doSemSig l f) := by
  unfold Block.doSemSig
  with_reducible repeat' first | assumption | apply Block.dispatch_after

theorem Block.doSemWait_after {a b : Block} (l : LTile) (f : FmtI) (h : After a b) : After a (b.doSemWait l f) := by
  unfold Block.doSemWait
  with_reducible repeat' first | assumption | apply Block.dispatch_after

theorem Block.doSemSub_after {a b : Block} (l : LTile) (f : FmtI) (h : After a b) : After a (b.doSemSub l f) := by
  unfold Block.doSemSub
  with_reducible repeat' first | assumption | apply Block.dispatch_after

theorem Block.doSemSet_after {a b : Block} (l : LTile) (f : FmtI) (h : After a b) : After a (b.doSemSet l f) := by
  unfold Block.doSemSet
  with_reducible repeat' first | assumption | apply Block.dispatch_after

theorem Block.doSemRd_after {a b : Block} (l : LTile) (f : FmtI) (h : After a b) : After a (b.doSemRd l f) := by
  unfold Block.doSemRd
  with_reducible repeat' first | assumption | apply Block.dispatch_after

theorem Block.doWtMem_after {a b : Block} (l : LTile) (f : FmtW) (h : After a b) : After a (b.doWtMem l f) := by
  unfold Block.doWtMem
  with_reducible repeat' first | assumption | apply Block.dispatch_after

theorem Block.doDmaCp_after {a b : Block} (l : LTile) (t : FmtT) (h : After a b) : After a (b.doDmaCp l t) := by
  unfold Block.doDmaCp
  with_reducible repeat' first | assumption | apply Block.dispatchT_after

theorem Block.doDmaFill_after {a b : Block} (l : LTile) (t : FmtT) (h : After a b) : After a (b.doDmaFill l t) := by
  unfold Block.doDmaFill
  with_reducible repeat' first | assumption | apply Block.dispatchT_after

theorem Block.doDmaCmpl_after {a b : Block} (l : LTile) (t : FmtT) (h : After a b) : After a (b.doDmaCmpl l t) := by
  unfold Block.doDmaCmpl
  with_reducible repeat' first | assumption | apply Block.dispatchT_after

theorem Block.doTwlMm_after {a b : Block} (l : LTile) (t : FmtT) (h : After a b) : After a (b.doTwlMm l t) := by
  unfold Block.doTwlMm
  with_reducible repeat' first | assumption | apply Block.dispatchT_after

theorem Block.doTwlLd_after {a b : Block} (l : LTile) (t : FmtT) (h : After a b) : After a (b.doTwlLd l t) := by
  unfold Block.doTwlLd
  with_reducible repeat' first | assumption | apply Block.dispatchT_after

theorem Block.doTwlLdm_after {a b : Block} (l : LTile) (t : FmtT) (h : After a b) : After a (b.doTwlLdm l t) := by
  unfold Block.doTwlLdm
  with_reducible repeat' first | assumption | apply Block.dispatchT_after

theorem Block.doFrdEw_after {a b : Block} (l : LTile) (t : FmtT) (h : After a b) : After a (b.doFrdEw l t) := by
  unfold Block.doFrdEw
  with_reducible repeat' first | assumption | apply Block.dispatchT_after

theorem Block.doFrdChn_after {a b : Block} (l : LTile) (t : FmtT) (h : After a b) : After a (b.doFrdChn l t) := by
  unfold Block.doFrdChn
  with_reducible repeat' first | assumption | apply Block.dispatchT_after

theorem Block.doFrdCvt_after {a b : Block} (l : LTile) (t : FmtT) (h : After a b) : After a (b.doFrdCvt l t) := by
  unfold Block.doFrdCvt
  with_reducible repeat' first | assumption | apply Block.dispatchT_after

theorem Block.doFrdRed_after {a b : Block} (l : LTile) (t : FmtT) (h : After a b) : After a (b.doFrdRed l t) := by
  unfold Block.doFrdRed
  with_reducible repeat' first | assumption | apply Block.dispatchT_after

theorem Block.doFrdTopk_after {a b : Block} (l : LTile) (t : FmtT) (h : After a b) : After a (b.doFrdTopk l t) := by
  unfold Block.doFrdTopk
  with_reducible repeat' first | assumption | apply Block.dispatchT_after

theorem Block.doFrdPerm_after {a b : Block} (l : LTile) (t : FmtT) (h : After a b) : After a (b.doFrdPerm l t) := by
  unfold Block.doFrdPerm
  with_reducible repeat' first | assumption | apply Block.dispatchT_after

theorem Block.doFrdShf_after {a b : Block} (l : LTile) (t : FmtT) (h : After a b) : After a (b.doFrdShf l t) := by
  unfold Block.doFrdShf
  with_reducible repeat' first | assumption | apply Block.dispatchT_after

theorem Block.doFrdPack_after {a b : Block} (l : LTile) (t : FmtT) (h : After a b) : After a (b.doFrdPack l t) := by
  unfold Block.doFrdPack
  with_reducible repeat' first | assumption | apply Block.dispatchT_after

theorem Block.doFrdUnpk_after {a b : Block} (l : LTile) (t : FmtT) (h : After a b) : After a (b.doFrdUnpk l t) := by
  unfold Block.doFrdUnpk
  with_reducible repeat' first | assumption | apply Block.dispatchT_after

theorem Block.doMssBag_after {a b : Block} (l : LTile) (t : FmtT) (h : After a b) : After a (b.doMssBag l t) := by
  unfold Block.doMssBag
  with_reducible repeat' first | assumption | apply Block.dispatchT_after

theorem Block.doMssRaw_after {a b : Block} (l : LTile) (t : FmtT) (h : After a b) : After a (b.doMssRaw l t) := by
  unfold Block.doMssRaw
  with_reducible repeat' first | assumption | apply Block.dispatchT_after

theorem Block.doMssUpd_after {a b : Block} (l : LTile) (t : FmtT) (h : After a b) : After a (b.doMssUpd l t) := by
  unfold Block.doMssUpd
  with_reducible repeat' first | assumption | apply Block.dispatchT_after

/-! `Sys2Proof.Machine.MemCmd` -/

theorem Block.upsetAt_after {a b : Block} (y1 : Nat) (f : Nat) (h : After a b) : After a (b.upsetAt y1 f) := by
  unfold Block.upsetAt
  with_reducible repeat' first | assumption | apply After.ite | apply Block.putWord_after | split | dsimp only | apply After.mkWord

theorem Block.sfParity_after {a b : Block} (line : Nat) (h : After a b) : After a (b.sfParity line) := by
  unfold Block.sfParity
  extract_lets l0 l1
  clear_value l0
  have k1 : After a l1 := by
    subst l1
    with_reducible repeat' first | assumption | apply Block.inc_after | apply Block.recallInval_after
  with_reducible repeat' first | assumption | apply Block.report_after

theorem Block.lockPerform_after {a b : Block} (src : Nat) (ctx : Nat) (y3 : Nat) (n : Nat) (r : Nat) (w : Nat) (h : After a b) : After a (b.lockPerform src ctx y3 n r w) := by
  unfold Block.lockPerform
  extract_lets l0 l1
  clear_value l0
  have k1 : After a l1 := by
    subst l1
    with_reducible repeat' first | assumption | apply Block.missRecs_after
  with_reducible repeat' first | assumption | apply Block.emit_after

theorem Block.perform_after {a b : Block} (src : Nat) (ctx : Nat) (y3 : Nat) (op : MemOp) (h : After a b) : After a (b.perform src ctx y3 op) := by
  unfold Block.perform
  refine Block.orHold_after _ _ _ h (fun c hc => ?_)
  cases op with
  | read n =>
    dsimp only
    split
    · exact Block.lockPerform_after _ _ _ _ _ _ hc
    · exact Block.emit_after _ (Block.mread_after _ _ _ hc)
  | write ms => exact Block.emit_after _ (Block.mwrite_after _ _ _ hc)
  | fetchAdd wide v => exact Block.emit_after _ (Block.matomic_after _ _ _ _ _ _ hc)
  | cas wide v cmp => exact Block.emit_after _ (Block.matomic_after _ _ _ _ _ _ hc)
  | fence => exact Block.emit_after _ hc

theorem Block.coreFence_after {a b : Block} (src : Nat) (ctx : Nat) (pa : Nat) (h : After a b) : After a (b.coreFence src ctx pa) := by
  unfold Block.coreFence
  with_reducible repeat' first | assumption | apply After.ite | apply Block.emit_after | apply Block.holdAcc_after

theorem Block.coreRemote_after {a b : Block} (src : Nat) (y2 : Nat) (ctx : Nat) (pa : Nat) (op : MemOp) (h : After a b) : After a (b.coreRemote src y2 ctx pa op) := by
  unfold Block.coreRemote
  extract_lets l0 l1 l2
  clear_value l0 l1
  have k2 : ∀ x0 x1 x2 x3, After a (l2 x0 x1 x2 x3) := by
    subst l2
    with_reducible repeat' first | (intro) | assumption | apply After.ite | apply Block.dmAtomic_after | apply Block.emit_after
  with_reducible repeat' first | assumption | apply After.ite | apply Block.dmAtomic_after | apply Block.emit_after | apply Block.dmRead_after | apply Block.dmWrite_after | apply Block.coreFence_after | split

theorem Block.doMemoryRequest_after {a b : Block} (src : Nat) (ctx : BitVec 12) (pa : BitVec 56) (op : MemOp) (parity : Bool) (flip : BitVec 144) (h : After a b) : After a (b.doMemoryRequest src ctx pa op parity flip) := by
  unfold Block.doMemoryRequest
  extract_lets l0 l1 l2 l3
  clear_value l0 l3
  have k1 : After a l1 := by
    subst l1
    with_reducible repeat' first | assumption | apply Block.upsetAt_after
  have k2 : After a l2 := by
    subst l2
    with_reducible repeat' first | assumption | apply After.ite | apply Block.sfParity_after
  with_reducible repeat' first | assumption | apply After.ite | apply Block.coreFence_after | apply Block.perform_after | apply Block.coreRemote_after | split

theorem Block.hurtEntry_after {a b : Block} (r : Nat) (line : Nat) (here : Nat) (h : After a b) : After a (b.hurtEntry r line here) := by
  unfold Block.hurtEntry
  with_reducible repeat' first | assumption | apply After.ite | apply Block.rcPut_after | apply Block.inc_after | split

theorem Block.upsetLine_after {a b : Block} (r : Nat) (line : Nat) (i : Nat) (f : Nat) (h : After a b) : After a (b.upsetLine r line i f) := by
  unfold Block.upsetLine
  with_reducible repeat' first | assumption | apply After.ite | apply Block.rcPut_after | split

theorem Block.rcNow_after {a b : Block} (r : Nat) (port : Nat) (ctx : Nat) (y4 : Nat) (w : Option MBytes) (n : Nat) (h : After a b) : After a (b.rcNow r port ctx y4 w n) := by
  unfold Block.rcNow
  with_reducible repeat' first | assumption | apply Block.tread_after | apply Block.emit_after | apply Block.twrite_after | split

theorem Block.doRegionCacheAccess_after {a b : Block} (r : Fin 32) (port : Nat) (ctx : BitVec 12) (off : BitVec 46) (w : Option MBytes) (n : Fin 129) (hurt : Option (BitVec 39)) (flip : BitVec 144) (h : After a b) : After a (b.doRegionCacheAccess r port ctx off w n hurt flip) := by
  unfold Block.doRegionCacheAccess
  extract_lets l0 l1 l2 l3 l4 l5 l6 l7 l8 l9
  clear_value l0 l1 l2 l3 l4 l8
  have k5 : After a l5 := by
    subst l5
    with_reducible repeat' first | assumption | apply Block.upsetLine_after
  have k6 : After a l6 := by
    subst l6
    with_reducible repeat' first | assumption | apply Block.hurtEntry_after | split
  have k7 : After a l7 := by
    subst l7
    with_reducible repeat' first | assumption | apply Block.rcLookup_after
  have k9 : After a l9 := by
    subst l9
    with_reducible repeat' first | assumption | apply Block.inc_after
  with_reducible repeat' first | assumption | apply After.ite | apply Block.perform_after | apply Block.rcNow_after | apply After.mk

theorem Block.serveMiss_after {a b : Block} (m : RcMiss) (h : After a b) : After a (b.serveMiss m) := by
  unfold Block.serveMiss
  with_reducible repeat' first | assumption | apply After.ite | apply Block.emit_after | apply Block.tagFail_after | apply Block.mwrite_after | apply Block.mread_after | apply Block.inc_after | apply Block.sfEnter_after | apply Block.rcPut_after | apply Block.recallInval_after | apply Block.rcWriteHit_after | apply Block.plruUse_after | apply Block.rcReadHit_after | split

theorem Block.doCacheFillReturn_after {a b : Block} (r : Fin 32) (line : BitVec 39) (h : After a b) : After a (b.doCacheFillReturn r line) := by
  unfold Block.doCacheFillReturn
  extract_lets l0 l1 l2 l3
  clear_value l0 l1
  have k2 : After a l2 := by
    subst l2
    with_reducible repeat' first | assumption | apply After.mk
  have k3 : After a l3 := by
    subst l3
    with_reducible repeat' first | assumption | apply After.ite | apply Block.rcFill_after | split
  with_reducible repeat' first | (intro) | assumption | apply Block.each_after | apply Block.serveMiss_after

theorem Block.doLockMaskWrite_after {a b : Block} (r : Fin 32) (mask : BitVec 16) (h : After a b) : After a (b.doLockMaskWrite r mask) := by
  unfold Block.doLockMaskWrite
  extract_lets l0 l1 l2 l3 l4
  clear_value l0 l1 l2
  have k3 : After a l3 := by
    subst l3
    with_reducible repeat' first | assumption | apply Block.rcFlush_after
  have k4 : After a l4 := by
    subst l4
    with_reducible repeat' first | (intro) | assumption | apply Block.each_after | apply Block.rcOut_after
  with_reducible repeat' first | assumption | apply Block.wr_after

theorem Block.doRcPreloadGo_after {a b : Block} (r : Fin 32) (way : BitVec 4) (addr : BitVec 39) (h : After a b) : After a (b.doRcPreloadGo r way addr) := by
  unfold Block.doRcPreloadGo
  extract_lets l0 l1
  clear_value l0
  have k1 : After a l1 := by
    subst l1
    with_reducible repeat' first | assumption | apply Block.wr_after
  with_reducible repeat' first | assumption | apply After.ite | apply Block.cfgErr_after | apply Block.wr_after | apply After.mk

theorem Block.preLine_after {a b : Block} (r : Nat) (way : Nat) (line : Nat) (x : PreRes) (h : After a b) : After a (b.preLine r way line x).2 := by
  unfold Block.preLine
  extract_lets l0 l1 l2
  clear_value l1
  have k0 : After a l0 := by
    subst l0
    with_reducible repeat' first | assumption | apply Block.rcLookup_after
  have k2 : After a l2 := by
    subst l2
    with_reducible repeat' first | assumption | apply Block.rcOut_after | split
  with_reducible repeat' first | assumption | apply After.ite2 | apply Block.fillWords_after | (refine After.snd (by assumption) ?_) | split | dsimp only | apply After.mk

theorem Block.doRcPreloadEnd_after {a b : Block} (r : Fin 32) (h : After a b) : After a (b.doRcPreloadEnd r) := by
  unfold Block.doRcPreloadEnd
  with_reducible repeat' first | (intro) | assumption | apply Block.preLine_after | apply Block.wr_after | apply After.foldl2 | split | apply After.mk

theorem Block.doLockWindowAccess_after {a b : Block} (src : Nat) (ctx : BitVec 12) (r : Fin 32) (w : BitVec 23) (op : MemOp) (h : After a b) : After a (b.doLockWindowAccess src ctx r w op) := by
  unfold Block.doLockWindowAccess
  with_reducible repeat' first | assumption | apply Block.perform_after

theorem Block.doScrubRead_after {a b : Block} (off : BitVec 46) (flip : BitVec 144) (h : After a b) : After a (b.doScrubRead off flip) := by
  unfold Block.doScrubRead
  extract_lets l0 l1
  clear_value l0
  have k1 : After a l1 := by
    subst l1
    with_reducible repeat' first | assumption | apply Block.upsetAt_after
  with_reducible repeat' first | assumption | apply After.ite | apply Block.ctlRead_after

theorem Block.doMemMapoutGo_after {a b : Block} (m : Fin 12) (ch : BitVec 5) (h : After a b) : After a (b.doMemMapoutGo m ch) := by
  unfold Block.doMemMapoutGo
  extract_lets l0 l1 l2 l3 l4
  clear_value l0 l1
  have k2 : After a l2 := by
    subst l2
    with_reducible repeat' first | assumption | apply Block.wr_after
  have k3 : After a l3 := by
    subst l3
    with_reducible repeat' first | assumption | apply After.mk
  have k4 : After a l4 := by
    subst l4
    with_reducible repeat' first | assumption | apply Block.wr_after
  with_reducible repeat' first | assumption | apply After.ite | apply Block.wr_after | apply Block.cfgErr_after

theorem Block.doMigrationMove_after {a b : Block} (m : Fin 12) (h : After a b) : After a (b.doMigrationMove m) := by
  unfold Block.doMigrationMove
  extract_lets l0 l1 l2
  clear_value l0
  have k1 : After a l1 := by
    subst l1
    with_reducible repeat' first | (intro) | assumption | apply After.ite | apply Block.each_after | apply Block.ctlRead_after
  have k2 : After a l2 := by
    subst l2
    with_reducible repeat' first | assumption | apply Block.wr_after
  with_reducible repeat' first | assumption | apply After.ite | apply Block.wr_after

theorem Block.doPeatPackageFail_after {a b : Block} (p : Fin 16) (h : After a b) : After a (b.doPeatPackageFail p) := by
  unfold Block.doPeatPackageFail
  with_reducible repeat' first | assumption | apply After.ite | apply Block.wr_after

theorem Block.doMemPprGo_after {a b : Block} (m : Fin 12) (ch : BitVec 5) (pc : Bool) (bank : BitVec 4) (row : BitVec 18) (h : After a b) : After a (b.doMemPprGo m ch pc bank row) := by
  unfold Block.doMemPprGo
  with_reducible repeat' first | assumption | apply After.ite | apply Block.cfgErr_after | apply Block.wr_after

theorem Block.doPprComplete_after {a b : Block} (m : Fin 12) (ok : Bool) (spares : BitVec 8) (h : After a b) : After a (b.doPprComplete m ok spares) := by
  unfold Block.doPprComplete
  extract_lets l0
  have k0 : After a l0 := by
    subst l0
    with_reducible repeat' first | assumption | apply Block.wr_after
  with_reducible repeat' first | assumption | apply After.ite | apply Block.wr_after

/-! `Sys2Proof.Machine.XlCmd` -/

theorem Block.doWalkComplete_after {a b : Block} (site : Option SiteIx) (ctx : BitVec 12) (va : W64) (write : Bool) (stale : Bool) (h : After a b) : After a (b.doWalkComplete site ctx va write stale) := by
  unfold Block.doWalkComplete
  with_reducible repeat' first | assumption | apply After.ite | apply After.ite2 | apply Block.walk_after | apply Block.emit_after | apply Block.xlFail_after | apply Block.route_after | apply Block.tileXl_after | apply Block.xlate_after | split | dsimp only

theorem Block.doXlInvalGo_after {a b : Block} (scope : BitVec 2) (ctx : BitVec 12) (pages : BitVec 20) (h : After a b) : After a (b.doXlInvalGo scope ctx pages) := by
  unfold Block.doXlInvalGo
  extract_lets l0 l1 l2 l3 l4
  clear_value l1 l2 l3
  have k0 : After a l0 := by
    subst l0
    with_reducible repeat' first | assumption | apply Block.wr_after
  have k4 : After a l4 := by
    subst l4
    with_reducible repeat' first | assumption | apply After.mk
  with_reducible repeat' first | assumption | apply After.ite | apply Block.wr_after | apply Block.cfgErr_after

theorem Block.doInvalidationArrive_after {a b : Block} (p : SiteIx) (h : After a b) : After a (b.doInvalidationArrive p) := by
  unfold Block.doInvalidationArrive
  with_reducible repeat' first | assumption | apply After.ite | apply Block.onSite_after | apply Block.wr_after | split | dsimp only | apply After.mk

theorem Block.doDrainReport_after {a b : Block} (p : SiteIx) (h : After a b) : After a (b.doDrainReport p) := by
  unfold Block.doDrainReport
  with_reducible repeat' first | assumption | apply After.ite | apply Block.wr_after | split | apply After.mk

theorem Block.doInvalidationComplete_after {a b : Block}  (h : After a b) : After a (b.doInvalidationComplete) := by
  unfold Block.doInvalidationComplete
  with_reducible repeat' first | assumption | apply After.ite | apply Block.addWrap_after | apply Block.wr_after | split | apply After.mk

theorem Block.doXlTagSetGo_after {a b : Block} (first : BitVec 25) (count : BitVec 20) (tag : BitVec 12) (h : After a b) : After a (b.doXlTagSetGo first count tag) := by
  unfold Block.doXlTagSetGo
  extract_lets l0 l1
  clear_value l1
  have k0 : After a l0 := by
    subst l0
    with_reducible repeat' first | assumption | apply Block.wr_after
  with_reducible repeat' first | assumption | apply After.ite | apply Block.wr_after | apply Block.cfgErr_after | apply After.mk

theorem Block.applyTags_after {a b : Block} (first : Nat) (count : Nat) (tag : Nat) (h : After a b) : After a (b.applyTags first count tag) := by
  unfold Block.applyTags
  extract_lets l0 l1
  have k1 : After a l1 := by
    subst l1
    with_reducible repeat' first | (intro) | assumption | apply Block.rcFlush_after | apply After.foldl
  with_reducible repeat' first | assumption | apply After.mk

theorem Block.doTagSetComplete_after {a b : Block}  (h : After a b) : After a (b.doTagSetComplete) := by
  unfold Block.doTagSetComplete
  with_reducible repeat' first | assumption | apply Block.addWrap_after | apply Block.wr_after | apply Block.applyTags_after | split | apply After.mk

theorem Block.doXlTagRd_after {a b : Block} (g : BitVec 25) (h : After a b) : After a (b.doXlTagRd g) := by
  unfold Block.doXlTagRd
  extract_lets l0
  have k0 : After a l0 := by
    subst l0
    with_reducible repeat' first | assumption | apply Block.wr_after
  with_reducible repeat' first | assumption | apply Block.emit_after

theorem Block.doXlWinvalGo_after {a b : Block} (index : BitVec 13) (all : Bool) (h : After a b) : After a (b.doXlWinvalGo index all) := by
  unfold Block.doXlWinvalGo
  extract_lets l0
  have k0 : After a l0 := by
    subst l0
    with_reducible repeat' first | assumption | apply Block.wr_after
  with_reducible repeat' first | assumption | apply After.ite | apply Block.wr_after | apply Block.cfgErr_after | apply After.mk

theorem Block.doWindowRemovalComplete_after {a b : Block}  (h : After a b) : After a (b.doWindowRemovalComplete) := by
  unfold Block.doWindowRemovalComplete
  with_reducible repeat' first | assumption | apply After.ite | apply Block.addWrap_after | apply Block.wr_after

end Sys2Proof.Machine
end

