-- ==== Sys2Proof/Laws/AfterBracken.lean ====
section
/-! SUPPORT. What the Bracken queues and the plans do: one lemma per function, in the terms of `After`. -/

namespace Sys2Proof.Machine
open Reg

/-! `Sys2Proof.Machine.Bracken` -/

theorem Block.showWatches_after {a b : Block}  (h : After a b) : After a (b.showWatches) := by
  unfold Block.showWatches
  with_reducible repeat' first | assumption | apply Block.wr_after

theorem Block.dropWatch_after {a b : Block} (q : Nat) (h : After a b) : After a (b.dropWatch q) := by
  unfold Block.dropWatch
  with_reducible repeat' first | assumption | apply Block.showWatches_after | apply Block.onBk_after

theorem Block.qcmd_after {a b : Block} (q : Nat) (op : Nat) (skip : Nat) (h : After a b) : After a (b.qcmd q op skip) := by
  unfold Block.qcmd
  with_reducible repeat' first | assumption | apply Block.wr_after

theorem Block.serve_after {a b : Block} (q : Nat) (h : After a b) : After a (b.serve q) := by
  unfold Block.serve
  with_reducible repeat' first | assumption | apply Block.onQueue_after

theorem Block.doQueueEnable_after {a b : Block} (q : BitVec 10) (skip : BitVec 32) (h : After a b) : After a (b.doQueueEnable q skip) := by
  unfold Block.doQueueEnable
  extract_lets l0
  have k0 : After a l0 := by
    subst l0
    with_reducible repeat' first | assumption | apply Block.qcmd_after
  with_reducible repeat' first | assumption | apply After.ite | apply Block.cfgErr_after | apply Block.tableWords_after | apply Block.onBk_after

theorem Block.doQueueDisable_after {a b : Block} (q : BitVec 10) (h : After a b) : After a (b.doQueueDisable q) := by
  unfold Block.doQueueDisable
  extract_lets l0
  have k0 : After a l0 := by
    subst l0
    with_reducible repeat' first | assumption | apply Block.qcmd_after
  with_reducible repeat' first | assumption | apply After.ite | apply Block.cfgErr_after | apply Block.dropWatch_after | apply Block.onQueue_after

theorem Block.doQueuePark_after {a b : Block} (q : BitVec 10) (h : After a b) : After a (b.doQueuePark q) := by
  unfold Block.doQueuePark
  extract_lets l0 l1
  clear_value l1
  have k0 : After a l0 := by
    subst l0
    with_reducible repeat' first | assumption | apply Block.qcmd_after
  with_reducible repeat' first | assumption | apply After.ite | apply Block.park_after | apply Block.cfgErr_after

theorem Block.doQueueResume_after {a b : Block} (q : BitVec 10) (skip : BitVec 32) (h : After a b) : After a (b.doQueueResume q skip) := by
  unfold Block.doQueueResume
  extract_lets l0 l1
  have k0 : After a l0 := by
    subst l0
    with_reducible repeat' first | assumption | apply Block.qcmd_after
  have k1 : After a l1 := by
    subst l1
    with_reducible repeat' first | assumption | apply Block.onQueue_after
  with_reducible repeat' first | assumption | apply After.ite | apply Block.cfgErr_after | apply Block.onQueue_after | apply Block.serve_after | split

theorem Block.doDoorbellNotify_after {a b : Block} (q : BitVec 10) (h : After a b) : After a (b.doDoorbellNotify q) := by
  unfold Block.doDoorbellNotify
  with_reducible repeat' first | assumption | apply After.ite | apply Block.onQueue_after | split

theorem Block.freeIndex_after {a b : Block}  (h : After a b) : After a (b.freeIndex).2 := by
  unfold Block.freeIndex
  with_reducible repeat' first | assumption | apply Block.draw_after

theorem Block.handoff_after {a b : Block} (y1 : Nat) (c : Cmd) (h : After a b) : After a (b.handoff y1 c) := by
  unfold Block.handoff
  extract_lets l0 l1 l2 l3 l4
  clear_value l0 l1 l4
  have k2 : After a l2 := by
    subst l2
    with_reducible repeat' first | assumption | apply Block.onCmd_after
  have k3 : After a l3 := by
    subst l3
    with_reducible repeat' first | assumption | apply Block.onBk_after
  with_reducible repeat' first | assumption | apply Block.mwrite_after | apply Block.irq_after

theorem Block.startCmd_after {a b : Block} (y1 : Nat) (c : Cmd) (forced : Option (Nat × Option Cap)) (h : After a b) : After a (b.startCmd y1 c forced) := by
  unfold Block.startCmd
  extract_lets l0 l1 l2
  clear_value l0
  have k1 : After a l1 := by
    subst l1
    with_reducible repeat' first | assumption | apply Block.onCmd_after
  have k2 : After a l2 := by
    subst l2
    with_reducible repeat' first | assumption | apply Block.onBk_after
  with_reducible repeat' first | assumption | apply After.ite | apply Block.settle_after | apply Block.complete_after | apply Block.handoff_after | apply Block.tryOk_after | split

theorem Block.acceptEntry_after {a b : Block} (x : Queue) (ent : List Nat) (forced : Option (Nat × Option Cap)) (h : After a b) : After a (b.acceptEntry x ent forced) := by
  unfold Block.acceptEntry
  with_reducible repeat' first | assumption | apply After.ite | apply Block.onQueue_after | apply Block.freeIndex_after | apply Block.dropWatch_after | apply Block.onBk_after | apply Block.inc_after | apply Block.wr_after | apply Block.serve_after | apply Block.startCmd_after

theorem Block.onWatch_after {a b : Block} (q : Nat) (f : Watch → Watch) (h : After a b) : After a (b.onWatch q f) := by
  unfold Block.onWatch
  with_reducible repeat' first | assumption | apply Block.onBk_after

theorem Block.watchGot_after {a b : Block} (q : Nat) (v : Nat) (bad : Bool) (h : After a b) : After a (b.watchGot q v bad) := by
  unfold Block.watchGot
  with_reducible repeat' first | assumption | apply After.ite | apply Block.onWatch_after | apply Block.acceptEntry_after | split

theorem Block.watchRead_after {a b : Block} (q : Nat) (h : After a b) : After a (b.watchRead q) := by
  unfold Block.watchRead
  with_reducible repeat' first | assumption | apply After.ite | apply Block.xlate_after | apply Block.watchGot_after | apply Block.onWatch_after | apply Block.dmRead_after | split

theorem Block.startWait_after {a b : Block} (x : Queue) (ent : List Nat) (h : After a b) : After a (b.startWait x ent) := by
  unfold Block.startWait
  extract_lets l0 l1 l2 l3 l4 l5
  clear_value l1 l2 l3 l4
  have k5 : After a l5 := by
    subst l5
    with_reducible repeat' first | assumption | apply Block.showWatches_after | apply Block.onBk_after
  with_reducible repeat' first | assumption | apply After.ite | apply Block.onQueue_after | apply Block.watchRead_after

theorem Block.entryGot_after {a b : Block} (x : Queue) (r : BRes) (tries : Nat) (h : After a b) : After a (b.entryGot x r tries) := by
  unfold Block.entryGot
  with_reducible repeat' first | assumption | apply After.ite | apply Block.park_after | apply Block.onQueue_after | apply Block.acceptEntry_after | apply Block.startWait_after

theorem Block.entryRead_after {a b : Block} (x : Queue) (far : Option (List Byte)) (tries : Nat) (h : After a b) : After a (b.entryRead x far tries) := by
  unfold Block.entryRead
  with_reducible repeat' first | assumption | apply Block.bread_after | apply Block.entryGot_after

theorem Block.doorbellRead_after {a b : Block} (x : Queue) (h : After a b) : After a (b.doorbellRead x) := by
  unfold Block.doorbellRead
  with_reducible repeat' first | assumption | apply After.ite | apply Block.mread_after | apply Block.onQueue_after | apply Block.park_after

theorem Block.doRingEntryFetch_after {a b : Block} (q : BitVec 10) (far : Option (List Byte)) (h : After a b) : After a (b.doRingEntryFetch q far) := by
  unfold Block.doRingEntryFetch
  with_reducible repeat' first | assumption | apply After.ite | apply Block.watchRead_after | apply Block.onQueue_after | apply Block.entryRead_after | apply Block.doorbellRead_after | split

theorem Block.doWatchReadReturn_after {a b : Block} (q : BitVec 10) (h : After a b) : After a (b.doWatchReadReturn q) := by
  unfold Block.doWatchReadReturn
  with_reducible repeat' first | assumption | apply After.ite | apply Block.mread_after | apply Block.watchGot_after | split

theorem Block.doWatchNotify_after {a b : Block} (q : BitVec 10) (h : After a b) : After a (b.doWatchNotify q) := by
  unfold Block.doWatchNotify
  with_reducible repeat' first | assumption | apply After.ite | apply Block.watchRead_after | split

theorem Block.doWatchPoll_after {a b : Block} (q : BitVec 10) (h : After a b) : After a (b.doWatchPoll q) := by
  unfold Block.doWatchPoll
  with_reducible repeat' first | assumption | apply After.ite | apply Block.watchRead_after | split

theorem Block.doWaitTimeout_after {a b : Block} (q : BitVec 10) (h : After a b) : After a (b.doWaitTimeout q) := by
  unfold Block.doWaitTimeout
  with_reducible repeat' first | assumption | apply After.ite | apply Block.acceptEntry_after | split

theorem Block.workIgnored_after {a b : Block} (tag : Nat) (h : After a b) : After a (b.workIgnored tag) := by
  unfold Block.workIgnored
  with_reducible repeat' first | assumption | apply Block.bkRec_after

theorem Block.doWorkRows_after {a b : Block} (tag : BitVec 32) (prog : BitVec 32) (key : BitVec 32) (rows : BitVec 7) (va : BitVec 48) (h : After a b) : After a (b.doWorkRows tag prog key rows va) := by
  unfold Block.doWorkRows
  with_reducible repeat' first | assumption | apply After.ite | apply Block.workIgnored_after | apply Block.onBk_after | split

theorem Block.doWorkStep_after {a b : Block} (tag : BitVec 32) (prog : BitVec 32) (va : BitVec 48) (last : Bool) (tile : Option LTile) (h : After a b) : After a (b.doWorkStep tag prog va last tile) := by
  unfold Block.doWorkStep
  with_reducible repeat' first | assumption | apply After.ite | apply Block.workIgnored_after | apply Block.onBk_after | split

theorem Block.doWorkClose_after {a b : Block} (tag : BitVec 32) (h : After a b) : After a (b.doWorkClose tag) := by
  unfold Block.doWorkClose
  with_reducible repeat' first | assumption | apply After.ite | apply Block.workIgnored_after | apply Block.settle_after | apply Block.tryOk_after | apply Block.onCmd_after | split

theorem Block.doWorkDone_after {a b : Block} (tag : BitVec 32) (status : BitVec 8) (h : After a b) : After a (b.doWorkDone tag status) := by
  unfold Block.doWorkDone
  with_reducible repeat' first | assumption | apply After.ite | apply Block.workIgnored_after | apply Block.onCmd_after | apply Block.bkRec_after | apply Block.settle_after | apply Block.complete_after | split

theorem Block.workRecord_after {a b : Block} (ws : List Nat) (h : After a b) : After a (b.workRecord ws) := by
  unfold Block.workRecord
  with_reducible repeat' first | assumption | apply After.ite | apply Block.workIgnored_after | apply Block.doWorkRows_after | apply Block.doWorkStep_after | apply Block.doWorkClose_after | apply Block.doWorkDone_after

theorem Block.workRingN_after {a y1 : Block} (y0 : Nat) (y2 : Nat) (h : After a y1) : After a (Block.workRingN y0 y1 y2) := by
  induction y0 generalizing y1 y2 with
  | zero =>
    simp only [Block.workRingN]
    with_reducible repeat' assumption
  | succ n ih =>
    simp only [Block.workRingN]
    with_reducible repeat' first | assumption | apply After.ite | apply Block.workRecord_after | apply Block.wr_after | apply Block.tableWords_after | apply Block.bkRec_after | apply ih

theorem Block.workRing_after {a b : Block} (y1 : Nat) (h : After a b) : After a (b.workRing y1) := by
  unfold Block.workRing
  with_reducible repeat' first | assumption | apply After.ite | apply Block.workRingN_after

theorem Block.doWorkDoorbell_after {a b : Block} (y1 : Fin 8) (prod : BitVec 32) (h : After a b) : After a (b.doWorkDoorbell y1 prod) := by
  unfold Block.doWorkDoorbell
  with_reducible repeat' first | assumption | apply Block.workRing_after | apply Block.wr_after

theorem Block.doStaleEntryReread_after {a b : Block} (t : BitVec 10 ⊕ Fin 8) (far : Option (List Byte)) (h : After a b) : After a (b.doStaleEntryReread t far) := by
  unfold Block.doStaleEntryReread
  with_reducible repeat' first | assumption | apply After.ite | apply Block.workRing_after | apply Block.entryRead_after | split

theorem Block.bkResume_after {a b : Block}  (h : After a b) : After a (b.bkResume) := by
  unfold Block.bkResume
  extract_lets l0 l1
  have k0 : After a l0 := by
    subst l0
    with_reducible repeat' first | assumption | apply Block.onBk_after
  have k1 : After a l1 := by
    subst l1
    with_reducible repeat' first | (intro) | assumption | apply Block.each_after | apply Block.watchRead_after
  with_reducible repeat' first | assumption | apply After.ite | apply Block.onBk_after

theorem Block.doBrackenEnable_after {a b : Block}  (h : After a b) : After a (b.doBrackenEnable) := by
  unfold Block.doBrackenEnable
  extract_lets l0 l1 l2
  clear_value l1
  have k0 : After a l0 := by
    subst l0
    with_reducible repeat' first | assumption | apply Block.wr_after
  have k2 : After a l2 := by
    subst l2
    with_reducible repeat' first | (intro) | assumption | apply Block.each_after | apply Block.settle_after | apply Block.complete_after
  with_reducible repeat' first | (intro) | assumption | apply After.ite | apply Block.each_after | apply Block.bkResume_after | apply Block.workRing_after

theorem Block.doBrackenDisable_after {a b : Block}  (h : After a b) : After a (b.doBrackenDisable) := by
  unfold Block.doBrackenDisable
  with_reducible repeat' first | assumption | apply Block.wr_after

theorem Block.doConsPublish_after {a b : Block} (q : BitVec 10) (h : After a b) : After a (b.doConsPublish q) := by
  unfold Block.doConsPublish
  with_reducible repeat' first | assumption | apply After.ite | apply Block.bwrite_after | apply Block.onQueue_after | split

theorem Block.doStepReleased_after {a b : Block} (tag : BitVec 32) (p : SiteIx) (h : After a b) : After a (b.doStepReleased tag p) := by
  unfold Block.doStepReleased
  with_reducible repeat' first | assumption | apply After.ite | apply Block.onBk_after

theorem Block.onRec_after {a b : Block} (tag : Nat) (f : CRec → Option CRec) (h : After a b) : After a (b.onRec tag f) := by
  unfold Block.onRec
  with_reducible repeat' first | assumption | apply Block.onBk_after

theorem Block.recDone_after {a b : Block} (tag : Nat) (h : After a b) : After a (b.recDone tag) := by
  unfold Block.recDone
  with_reducible repeat' first | assumption | apply Block.onRec_after

theorem Block.divert_after {a b : Block} (r : CRec) (cause : Nat) (inc : Bool) (h : After a b) : After a (b.divert r cause inc) := by
  unfold Block.divert
  extract_lets l0 l1 l2 l3 l4 l5
  clear_value l0 l2 l3 l4 l5
  have k1 : After a l1 := by
    subst l1
    with_reducible repeat' first | assumption | apply Block.report_after | apply Block.inc_after
  with_reducible repeat' first | assumption | apply After.ite | apply Block.inc_after | apply Block.mwrite_after | apply Block.addWrap_after

theorem Block.recFailed_after {a b : Block} (tag : Nat) (cause : Nat) (h : After a b) : After a (b.recFailed tag cause) := by
  unfold Block.recFailed
  with_reducible repeat' first | assumption | apply After.ite | apply Block.recDone_after | apply Block.divert_after | apply Block.onRec_after | split

theorem Block.recAcked_after {a b : Block} (tag : Nat) (h : After a b) : After a (b.recAcked tag) := by
  unfold Block.recAcked
  with_reducible repeat' first | assumption | apply After.ite | apply Block.recDone_after | apply Block.onRec_after | split

theorem Block.roceReq_after {a b : Block} (c : Cmd) (inc : Bool) (va : Nat) (data : List Byte) (h : After a b) : After a (b.roceReq c inc va data).2 := by
  unfold Block.roceReq
  with_reducible repeat' first | assumption | apply Block.roceTx_after | split | apply After.mk

theorem Block.sendRec_after {a b : Block} (r : CRec) (h : After a b) : After a (b.sendRec r) := by
  unfold Block.sendRec
  extract_lets l0 l1 l2 l3 l4
  clear_value l0 l2 l3 l4
  have k1 : ∀ c0 x1, After a c0 → After a (l1 c0 x1) := by
    subst l1
    with_reducible repeat' first | (intro) | assumption | apply Block.recDone_after | apply Block.divert_after
  with_reducible repeat' first | assumption | apply After.ite | apply Block.recDone_after | apply Block.divert_after | apply Block.roceReq_after | apply Block.bwrite_after | (refine After.snd (by assumption) ?_) | split

theorem Block.takeRec_after {a b : Block} (r : CRec) (h : After a b) : After a (b.takeRec r) := by
  unfold Block.takeRec
  with_reducible repeat' first | assumption | apply Block.onBk_after

theorem Block.cmplDone_after {a b : Block} (src : Option Nat) (h : After a b) : After a (b.cmplDone src) := by
  unfold Block.cmplDone
  with_reducible repeat' first | assumption | apply Block.markDone_after | split

theorem Block.issueRec_after {a b : Block} (r : CRec) (h : After a b) : After a (b.issueRec r) := by
  unfold Block.issueRec
  extract_lets l0 l1 l2 l3 l4 l5 l6 l7 l8 l9 l10 l11 l12
  clear_value l0 l1 l2 l4 l6 l7 l9
  have k3 : After a l3 := by
    subst l3
    with_reducible repeat' first | assumption | apply After.ite | apply Block.bkRec_after
  have k5 : After a l5 := by
    subst l5
    with_reducible repeat' first | assumption | apply Block.inc_after
  have k8 : After a l8 := by
    subst l8
    with_reducible repeat' first | assumption | apply After.ite | apply After.mk
  have k10 : After a l10 := by
    subst l10
    with_reducible repeat' first | assumption | apply Block.onBk_after | apply Block.takeRec_after
  have k11 : After a l11 := by
    subst l11
    with_reducible repeat' first | assumption | apply Block.inc_after | apply Block.onCmd_after
  have k12 : After a l12 := by
    subst l12
    with_reducible repeat' first | assumption | apply Block.faultRun_after | apply Block.cmplDone_after
  with_reducible repeat' first | assumption | apply Block.settle_after | apply Block.sendRec_after

theorem Block.doCompletionRecordWrite_after {a b : Block} (tag : BitVec 32) (src : Option SiteIx) (h : After a b) : After a (b.doCompletionRecordWrite tag src) := by
  unfold Block.doCompletionRecordWrite
  with_reducible repeat' first | assumption | apply After.ite | apply Block.takeRec_after | apply Block.cmplDone_after | apply Block.bkRec_after | apply Block.issueRec_after | split | dsimp only

theorem Block.sendInc_after {a b : Block} (r : CRec) (h : After a b) : After a (b.sendInc r) := by
  unfold Block.sendInc
  extract_lets l0 l1 l2
  clear_value l0
  have k1 : ∀ c0 x1, After a c0 → After a (l1 c0 x1) := by
    subst l1
    with_reducible repeat' first | (intro) | assumption | apply Block.onRec_after | apply Block.divert_after
  have k2 : ∀ c0, After a c0 → After a (l2 c0) := by
    subst l2
    with_reducible repeat' first | (intro) | assumption | apply Block.onRec_after
  with_reducible repeat' first | assumption | apply After.ite | apply Block.onRec_after | apply Block.divert_after | apply Block.roceReq_after | apply Block.xlate_after | apply Block.matomic_after | apply Block.dmAtomic_after | (refine After.snd (by assumption) ?_) | (refine After.snd4 (by assumption) ?_) | split

theorem Block.doCompletionIncrement_after {a b : Block} (tag : BitVec 32) (h : After a b) : After a (b.doCompletionIncrement tag) := by
  unfold Block.doCompletionIncrement
  with_reducible repeat' first | assumption | apply After.ite | apply Block.sendInc_after | split

/-! `Sys2Proof.Machine.Plan` -/

theorem Block.readProg_after {a b : Block} (p : Nat) (h : After a b) : After a (b.readProg p).2 := by
  unfold Block.readProg
  with_reducible repeat' first | assumption | apply Block.tableWords_after

theorem Block.endInPlan_after {a b : Block} (w : PlanW) (tag : Nat) (status : Nat) (cap : Option Cap) (seq : Option Nat) (h : After a b) : After a (b.endInPlan w tag status cap seq).1 := by
  unfold Block.endInPlan
  with_reducible repeat' first | assumption | apply Block.settle_after | apply Block.complete_after

theorem Block.noRoom_after {a b : Block} (w : PlanW) (it : PItem) (h : After a b) : After a (b.noRoom w it).1 := by
  unfold Block.noRoom
  extract_lets l0
  with_reducible repeat' first | (intro) | assumption | apply After.ite | apply Block.inc_after | apply Block.endInPlan_after | apply After.ite1 | apply After.foldl1 | split

theorem Block.putItem_after {a b : Block} (w : PlanW) (it : PItem) (g : Prog) (pl : Nat × Nat × Nat × Nat) (blk : Nat) (h : After a b) : After a (b.putItem w it g pl blk).1 := by
  unfold Block.putItem
  extract_lets l0 l1
  clear_value l0
  have k1 : After a l1 := by
    subst l1
    with_reducible repeat' first | assumption | apply Block.onBk_after
  with_reducible repeat' first | (intro) | assumption | apply Block.onBk_after | apply Block.onCmd_after | apply After.foldl | split

theorem Block.placeItem_after {a b : Block} (w : PlanW) (it : PItem) (h : After a b) : After a (b.placeItem w it).1 := by
  unfold Block.placeItem
  with_reducible repeat' first | (intro) | assumption | apply Block.endInPlan_after | apply Block.noRoom_after | apply Block.draw_after | apply Block.putItem_after | apply After.ite1 | apply After.foldl1 | (refine After.snd (by assumption) ?_) | split

theorem Block.startLoad_after {a b : Block} (l : Nat) (g : Nat) (pr : Prog) (i : Nat) (h : After a b) : After a (b.startLoad l g pr i) := by
  unfold Block.startLoad
  extract_lets l0 l1
  clear_value l0
  have k1 : After a l1 := by
    subst l1
    with_reducible repeat' first | assumption | apply Block.onBk_after
  with_reducible repeat' first | assumption | apply Block.wr_after

theorem Block.loadProg_after {a b : Block} (s : PlanStep) (h : After a b) : After a (b.loadProg s) := by
  unfold Block.loadProg
  with_reducible repeat' first | (intro) | assumption | apply After.ite | apply Block.each_after | apply Block.startLoad_after

theorem Block.onNextBank_after {a b : Block} (p : Nat) (f : PlanBank → PlanBank) (h : After a b) : After a (b.onNextBank p f) := by
  unfold Block.onNextBank
  with_reducible repeat' first | assumption | apply After.ite | apply Block.onSite_after

theorem Block.completeList_after {a b : Block} (p : Nat) (h : After a b) : After a (b.completeList p) := by
  unfold Block.completeList
  extract_lets l0 l1 l2
  clear_value l0 l2
  have k1 : After a l1 := by
    subst l1
    with_reducible repeat' first | assumption | apply Block.onNextBank_after
  with_reducible repeat' first | assumption | apply After.ite | apply Block.onBk_after

theorem Block.doPageLoadEnd_after {a b : Block} (l : LTile) (page : BitVec 4) (h : After a b) : After a (b.doPageLoadEnd l page) := by
  unfold Block.doPageLoadEnd
  with_reducible repeat' first | assumption | apply After.ite | apply Block.mread_after | apply Block.onSite_after | apply Block.wr_after | apply Block.onBk_after | apply Block.completeList_after | split

theorem Block.seedRead_after {a b : Block} (s : SeedRead) (h : After a b) : After a (b.seedRead s).2.2 := by
  unfold Block.seedRead
  with_reducible repeat' first | assumption | apply Block.mread_after

theorem Block.doSeedReadReturn_after {a b : Block} (p : SiteIx) (index : BitVec 5) (h : After a b) : After a (b.doSeedReadReturn p index) := by
  unfold Block.doSeedReadReturn
  with_reducible repeat' first | assumption | apply Block.seedRead_after | apply Block.onBk_after | apply Block.onSite_after | split

theorem Block.writeBlock_after {a b : Block} (s : PlanStep) (h : After a b) : After a (b.writeBlock s) := by
  unfold Block.writeBlock
  extract_lets l0 l1 l2 l3
  clear_value l0 l1 l2
  have k3 : After a l3.2 := by
    subst l3
    with_reducible repeat' first | assumption | apply Block.draw_after
  with_reducible repeat' first | assumption | apply Block.done_after | apply Block.mwrite_after

theorem Block.streamList_after {a b : Block} (w : PlanW) (l : Nat) (h : After a b) : After a (b.streamList w l) := by
  unfold Block.streamList
  extract_lets l0 l1 l2 l3 l4 l5 l6 l7 l8 l9
  clear_value l0 l1 l3 l4 l7 l9
  have k2 : After a l2 := by
    subst l2
    with_reducible repeat' first | (intro) | assumption | apply After.ite | apply Block.each_after | apply Block.writeBlock_after
  have k5 : After a l5 := by
    subst l5
    with_reducible repeat' first | assumption | apply Block.onBk_after
  have k6 : After a l6 := by
    subst l6
    with_reducible repeat' first | (intro) | assumption | apply Block.each_after | apply Block.loadProg_after
  have k8 : After a l8 := by
    subst l8
    with_reducible repeat' first | assumption | apply Block.onNextBank_after
  with_reducible repeat' first | assumption | apply After.ite | apply Block.completeList_after

theorem Block.beforePlan_after {a b : Block} (t : Nat) (h : After a b) : After a (b.beforePlan t) := by
  unfold Block.beforePlan
  extract_lets l0 l1
  have k0 : After a l0 := by
    subst l0
    with_reducible repeat' first | (intro) | assumption | apply Block.each_after | apply Block.settle_after | apply Block.complete_after
  have k1 : After a l1 := by
    subst l1
    with_reducible repeat' first | (intro) | assumption | apply Block.each_after | apply Block.settle_after | apply Block.complete_after
  with_reducible repeat' first | (intro) | assumption | apply Block.each_after | apply Block.settle_after | apply Block.complete_after | apply Block.inc_after

theorem Block.readProgs_after {a b : Block} (ps : List Nat) (h : After a b) : After a (b.readProgs ps).2 := by
  unfold Block.readProgs
  with_reducible repeat' first | (intro) | assumption | apply Block.readProg_after | apply After.foldl2

theorem Block.addPacks_after {a b : Block} (w : PlanW) (h : After a b) : After a (b.addPacks w).1 := by
  unfold Block.addPacks
  with_reducible repeat' first | assumption | apply Block.readProg_after | apply Block.draw_after | apply After.ite1 | (refine After.snd (by assumption) ?_) | split

theorem Block.doPlanClose_after {a b : Block} (m : W64) (hints : PlanHints) (h : After a b) : After a (b.doPlanClose m hints) := by
  unfold Block.doPlanClose
  extract_lets l0 l1 l2
  clear_value l0 l2
  have k1 : After a l1 := by
    subst l1
    with_reducible repeat' first | assumption | apply Block.beforePlan_after
  with_reducible repeat' first | (intro) | assumption | apply After.ite | apply Block.onBk_after | apply Block.readProgs_after | apply Block.placeItem_after | apply Block.addPacks_after | apply Block.each_after | apply Block.streamList_after | apply After.foldl1

end Sys2Proof.Machine
end

