-- ==== Sys2Proof/Laws/AfterNetwork.lean ====
section
/-! SUPPORT. What the group, fault, RoCE and Damask network commands do: one lemma per function, in the terms of `After`. -/

namespace Sys2Proof.Machine
open Reg

/-! `Sys2Proof.Machine.GroupOps` -/

theorem Block.onFacts_after {a b : Block} (f : TickFacts → TickFacts) (h : After a b) : After a (b.onFacts f) := by
  unfold Block.onFacts
  with_reducible repeat' first | assumption | dsimp only | apply After.mk

theorem Block.toState_after {a b : Block} (st : Nat) (h : After a b) : After a (b.toState st) := by
  unfold Block.toState
  extract_lets l0 l1
  have k0 : After a l0 := by
    subst l0
    with_reducible repeat' first | assumption | apply After.ite | apply Block.report_after
  have k1 : After a l1 := by
    subst l1
    with_reducible repeat' first | assumption | apply Block.wr_after
  with_reducible repeat' first | (intro) | assumption | apply Block.whenB_after | apply Block.onFacts_after

theorem Block.loadEpoch_after {a b : Block}  (h : After a b) : After a (b.loadEpoch) := by
  unfold Block.loadEpoch
  with_reducible repeat' first | assumption | dsimp only | apply After.mk

theorem Block.epochLoad_after {a b : Block}  (h : After a b) : After a (b.epochLoad) := by
  unfold Block.epochLoad
  with_reducible repeat' first | assumption | apply After.ite | apply Block.toState_after | apply Block.loadEpoch_after

theorem Block.writePeriod_after {a b : Block} (per : Nat) (next : Nat) (h : After a b) : After a (b.writePeriod per next).2 := by
  unfold Block.writePeriod
  with_reducible repeat' first | assumption | apply After.ite2 | apply Block.wr_after

theorem Block.grpAll_after {a b : Block} (type : Nat) (ws : List Nat) (h : After a b) : After a (b.grpAll type ws) := by
  unfold Block.grpAll
  with_reducible repeat' first | (intro) | assumption | apply Block.each_after | apply Block.grpSend_after

theorem Block.memberFlag_after {a b : Block} (node : Nat) (k : Nat) (v : Bool) (h : After a b) : After a (b.memberFlag node k v) := by
  unfold Block.memberFlag
  with_reducible repeat' first | assumption | apply Block.tableWords_after | apply Block.mwrite_after | split

theorem Block.memberDigest_after {a b : Block} (node : Nat) (v : Nat) (h : After a b) : After a (b.memberDigest node v) := by
  unfold Block.memberDigest
  with_reducible repeat' first | assumption | apply Block.mwrite_after | split

theorem Block.writePeriodAt_after {a b : Block} (v : Nat) (h : After a b) : After a (b.writePeriodAt v).2 := by
  unfold Block.writePeriodAt
  extract_lets l0 l1
  clear_value l0
  have k1 : After a l1 := by
    subst l1
    with_reducible repeat' first | assumption | apply Block.wr_after
  with_reducible repeat' first | (intro) | assumption | apply After.ite2 | apply Block.wr_after | apply Block.whenB_after | apply Block.grpAll_after

/-! `Sys2Proof.Machine.Group` -/

theorem Block.grpTake_after {a b : Block} (y1 : GrpHdr) (f : Block → Block) (h : After a b) (hf : ∀ c0, After a c0 → After a (f c0)) : After a (b.grpTake y1 f) := by
  unfold Block.grpTake
  with_reducible repeat' first | assumption | apply After.ite | apply Block.inc_after | apply hf

theorem Block.onGrp_after {a b : Block} (f : GrpSt → GrpSt) (h : After a b) : After a (b.onGrp f) := by
  unfold Block.onGrp
  with_reducible repeat' first | assumption | apply After.mk

theorem Block.onMember_after {a b : Block} (node : Nat) (f : Member → Member) (h : After a b) : After a (b.onMember node f) := by
  unfold Block.onMember
  with_reducible repeat' first | assumption | apply Block.onGrp_after

theorem Block.grpRec_after {a b : Block} (cause : Nat) (node : Nat) (h : After a b) : After a (b.grpRec cause node) := by
  unfold Block.grpRec
  with_reducible repeat' first | assumption | apply Block.report_after

theorem Block.takeLead_after {a b : Block} (y1 : GrpHdr) (l : GrpLead) (h : After a b) : After a (b.takeLead y1 l) := by
  unfold Block.takeLead
  extract_lets l0 l1
  clear_value l0
  have k1 : After a l1 := by
    subst l1
    with_reducible repeat' first | assumption | apply Block.wr_after
  with_reducible repeat' first | assumption | apply After.ite | apply Block.wr_after | apply Block.grpRec_after

theorem Block.takeOver_after {a b : Block}  (h : After a b) : After a (b.takeOver) := by
  unfold Block.takeOver
  extract_lets l0 l1
  have k0 : After a l0 := by
    subst l0
    with_reducible repeat' first | assumption | apply Block.wr_after
  have k1 : After a l1 := by
    subst l1
    with_reducible repeat' first | assumption | apply Block.wr_after
  with_reducible repeat' first | assumption | apply Block.grpAll_after

theorem Block.sendService_after {a b : Block} (node : Nat) (inSvc : Bool) (cause : Nat) (h : After a b) : After a (b.sendService node inSvc cause) := by
  unfold Block.sendService
  with_reducible repeat' first | assumption | apply Block.grpSend_after

theorem Block.epochSync_after {a b : Block} (e : EpochFields) (h : After a b) : After a (b.epochSync e) := by
  unfold Block.epochSync
  extract_lets l0 l1 l2
  clear_value l1
  have k0 : After a l0 := by
    subst l0
    with_reducible repeat' first | (intro) | assumption | apply After.ite | apply Block.writePeriod_after | apply Block.writePeriodAt_after | apply Block.whenB_after | apply Block.wr_after
  have k2 : After a l2 := by
    subst l2
    with_reducible repeat' first | (intro) | assumption | apply Block.whenB_after | apply Block.wr_after
  with_reducible repeat' first | assumption | apply After.ite | apply Block.wr_after | apply Block.epochLoad_after

theorem Block.mismatch_after {a b : Block} (node : Nat) (h : After a b) : After a (b.mismatch node) := by
  unfold Block.mismatch
  extract_lets l0 l1 l2
  have k0 : After a l0 := by
    subst l0
    with_reducible repeat' first | assumption | apply Block.memberFlag_after
  have k1 : After a l1 := by
    subst l1
    with_reducible repeat' first | assumption | apply After.ite | apply Block.wr_after
  have k2 : After a l2 := by
    subst l2
    with_reducible repeat' first | assumption | apply Block.grpRec_after | apply Block.inc_after
  with_reducible repeat' first | (intro) | assumption | apply Block.whenB_after | apply Block.sendService_after

theorem Block.compareLatch_after {a b : Block} (node : Nat) (k : Nat) (v : Nat) (h : After a b) : After a (b.compareLatch node k v) := by
  unfold Block.compareLatch
  with_reducible repeat' first | assumption | apply After.ite | apply Block.memberFlag_after | apply Block.mismatch_after | split

theorem Block.recordMember_after {a b : Block} (node : Nat) (m : HbMsg) (h : After a b) : After a (b.recordMember node m) := by
  unfold Block.recordMember
  extract_lets l0 l1 l2 l3 l4
  clear_value l0
  have k1 : After a l1 := by
    subst l1
    with_reducible repeat' first | assumption | apply Block.memberFlag_after
  have k2 : After a l2 := by
    subst l2
    with_reducible repeat' first | assumption | apply After.ite | apply Block.onMember_after | apply Block.memberDigest_after
  have k3 : After a l3 := by
    subst l3
    with_reducible repeat' first | (intro) | assumption | apply Block.memberFlag_after | apply Block.whenB_after
  have k4 : After a l4 := by
    subst l4
    with_reducible repeat' first | (intro) | assumption | apply Block.whenB_after | apply Block.sendService_after
  with_reducible repeat' first | assumption | apply Block.compareLatch_after

theorem Block.grpHeartbeat_after {a b : Block} (y1 : GrpHdr) (m : HbMsg) (h : After a b) : After a (b.grpHeartbeat y1 m) := by
  unfold Block.grpHeartbeat
  with_reducible repeat' first | (intro) | assumption | apply After.ite | apply Block.grpTake_after | apply Block.whenB_after | apply Block.takeLead_after | apply Block.onMember_after | apply Block.recordMember_after | apply Block.epochSync_after | apply Block.wr_after

theorem Block.doHeartbeatMissed_after {a b : Block} (node : BitVec 10) (k : W64) (h : After a b) : After a (b.doHeartbeatMissed node k) := by
  unfold Block.doHeartbeatMissed
  extract_lets l0 l1 l2 l3 l4 l5 l6
  clear_value l0 l1 l2 l3
  have k4 : After a l4 := by
    subst l4
    with_reducible repeat' first | assumption | apply Block.onMember_after | apply Block.inc_after
  have k5 : After a l5 := by
    subst l5
    with_reducible repeat' first | (intro) | assumption | apply Block.whenB_after | apply Block.grpRec_after | apply Block.memberFlag_after
  have k6 : After a l6 := by
    subst l6
    with_reducible repeat' first | assumption | apply Block.wr_after
  with_reducible repeat' first | assumption | apply After.ite | apply Block.takeOver_after

theorem Block.doDigestLate_after {a b : Block} (node : BitVec 10) (k : W64) (h : After a b) : After a (b.doDigestLate node k) := by
  unfold Block.doDigestLate
  with_reducible repeat' first | assumption | apply After.ite | apply Block.onMember_after | apply Block.inc_after | apply Block.memberFlag_after

theorem Block.grpEpoch_after {a b : Block} (y1 : GrpHdr) (e : EpochFields) (h : After a b) : After a (b.grpEpoch y1 e) := by
  unfold Block.grpEpoch
  with_reducible repeat' first | (intro) | assumption | apply After.ite | apply Block.grpTake_after | apply Block.epochSync_after

theorem Block.grpTakeover_after {a b : Block} (y1 : GrpHdr) (l : GrpLead) (h : After a b) : After a (b.grpTakeover y1 l) := by
  unfold Block.grpTakeover
  with_reducible repeat' first | (intro) | assumption | apply After.ite | apply Block.grpTake_after | apply Block.takeLead_after | apply Block.wr_after

theorem Block.setService_after {a b : Block} (inSvc : Bool) (cause : Nat) (h : After a b) : After a (b.setService inSvc cause) := by
  unfold Block.setService
  with_reducible repeat' first | assumption | apply Block.wr_after

theorem Block.grpService_after {a b : Block} (y1 : GrpHdr) (inSvc : Bool) (cause : BitVec 8) (h : After a b) : After a (b.grpService y1 inSvc cause) := by
  unfold Block.grpService
  with_reducible repeat' first | (intro) | assumption | apply After.ite | apply Block.grpTake_after | apply Block.setService_after

theorem Block.omapBusy_after {a b : Block}  (h : After a b) : After a (b.omapBusy) := by
  unfold Block.omapBusy
  with_reducible repeat' first | assumption | apply Block.wr_after

theorem Block.grpPlacement_after {a b : Block} (y1 : GrpHdr) (at_ : W64) (es : List OmapEntry) (h : After a b) : After a (b.grpPlacement y1 at_ es) := by
  unfold Block.grpPlacement
  with_reducible repeat' first | (intro) | assumption | apply After.ite | apply Block.grpTake_after | apply Block.wr_after | apply Block.each_after | apply Block.omapBusy_after | apply Block.onGrp_after

theorem Block.omapApply_after {a b : Block}  (h : After a b) : After a (b.omapApply) := by
  unfold Block.omapApply
  extract_lets l0
  have k0 : After a l0 := by
    subst l0
    with_reducible repeat' first | (intro) | assumption | apply Block.each_after | apply Block.wr_after
  with_reducible repeat' first | assumption | apply After.ite | apply Block.omapBusy_after | apply Block.onGrp_after | split

theorem Block.omapAcked_after {a b : Block} (uid : Nat) (h : After a b) : After a (b.omapAcked uid) := by
  unfold Block.omapAcked
  with_reducible repeat' first | assumption | apply After.ite | apply Block.omapBusy_after | apply Block.onGrp_after

theorem Block.doOmapSend_after {a b : Block}  (h : After a b) : After a (b.doOmapSend) := by
  unfold Block.doOmapSend
  extract_lets l0 l1 l2 l3 l4 l5
  clear_value l0 l1 l2 l4
  have k5 : After a l5 := by
    subst l5
    with_reducible repeat' first | (intro) | assumption | apply After.ite | apply Block.each_after | apply Block.dmSend_after | apply Block.onGrp_after
  with_reducible repeat' first | assumption | apply After.ite | apply Block.wr_after | apply Block.onGrp_after | apply Block.omapBusy_after

theorem Block.reportItem_after {a b : Block} (node : Nat) (i : DigestItem) (h : After a b) : After a (b.reportItem node i) := by
  unfold Block.reportItem
  with_reducible repeat' first | assumption | apply After.ite | apply Block.inc_after | apply Block.mwrite_after | apply Block.addWrap_after

theorem Block.grpDigestReport_after {a b : Block} (y1 : GrpHdr) (items : List DigestItem) (h : After a b) : After a (b.grpDigestReport y1 items) := by
  unfold Block.grpDigestReport
  with_reducible repeat' first | (intro) | assumption | apply After.ite | apply Block.grpTake_after | apply Block.each_after | apply Block.reportItem_after

theorem Block.digestN_after {a y1 : Block} (y0 : Nat) (y2 : Nat) (y3 : Nat) (y4 : Bool) (h : After a y1) : After a (Block.digestN y0 y1 y2 y3 y4).2.2 := by
  induction y0 generalizing y1 y2 y3 y4 with
  | zero =>
    simp only [Block.digestN]
    with_reducible repeat' assumption
  | succ n ih =>
    simp only [Block.digestN]
    with_reducible repeat' first | assumption | apply Block.mread_after | apply ih

theorem Block.digestEntry_after {a b : Block} (k : Nat) (y2 : Nat) (h : After a b) : After a (b.digestEntry k y2).2 := by
  unfold Block.digestEntry
  with_reducible repeat' first | (intro) | assumption | apply After.ite2 | apply Block.tableWords_after | apply Block.digestN_after | apply Block.mwrite_after | apply Block.whenB_after | apply Block.inc_after

theorem Block.doDigestPassEnd_after {a b : Block}  (h : After a b) : After a (b.doDigestPassEnd) := by
  unfold Block.doDigestPassEnd
  with_reducible repeat' first | (intro) | assumption | apply After.ite | apply Block.digestEntry_after | apply Block.wr_after | apply Block.onGrp_after | apply Block.each_after | apply Block.reportItem_after | apply Block.grpSend_after | apply After.foldl2 | split

theorem Block.maintGranted_after {a b : Block} (g : Nat) (h : After a b) : After a (b.maintGranted g) := by
  unfold Block.maintGranted
  with_reducible repeat' first | assumption | apply After.ite | apply Block.wr_after

theorem Block.grantN_after {a y1 : Block} (y0 : Nat) (h : After a y1) : After a (Block.grantN y0 y1) := by
  induction y0 generalizing y1 with
  | zero =>
    simp only [Block.grantN]
    with_reducible repeat' assumption
  | succ n ih =>
    simp only [Block.grantN]
    with_reducible repeat' first | assumption | apply After.ite | apply Block.maintGranted_after | apply Block.wr_after | apply Block.onGrp_after | apply Block.grpSend_after | apply ih | split

theorem Block.maintQueue_after {a b : Block} (node : Nat) (kind : Nat) (arg : Nat) (h : After a b) : After a (b.maintQueue node kind arg) := by
  unfold Block.maintQueue
  extract_lets l0
  have k0 : After a l0 := by
    subst l0
    with_reducible repeat' first | assumption | apply After.ite | apply Block.onGrp_after
  with_reducible repeat' first | assumption | apply Block.grantN_after

theorem Block.maintEnd_after {a b : Block} (node : Nat) (kind : Nat) (arg : Nat) (h : After a b) : After a (b.maintEnd node kind arg) := by
  unfold Block.maintEnd
  extract_lets l0
  have k0 : After a l0 := by
    subst l0
    with_reducible repeat' first | assumption | apply Block.onGrp_after
  with_reducible repeat' first | assumption | apply Block.grantN_after | apply Block.wr_after

theorem Block.grpMaintReq_after {a b : Block} (y1 : GrpHdr) (kind : BitVec 2) (arg : BitVec 12) (h : After a b) : After a (b.grpMaintReq y1 kind arg) := by
  unfold Block.grpMaintReq
  with_reducible repeat' first | (intro) | assumption | apply After.ite | apply Block.grpTake_after | apply Block.maintQueue_after

theorem Block.grpMaintGrant_after {a b : Block} (y1 : GrpHdr) (kind : BitVec 2) (arg : BitVec 12) (g : W64) (h : After a b) : After a (b.grpMaintGrant y1 kind arg g) := by
  unfold Block.grpMaintGrant
  with_reducible repeat' first | (intro) | assumption | apply After.ite | apply Block.grpTake_after | apply Block.maintGranted_after

theorem Block.grpMaintDone_after {a b : Block} (y1 : GrpHdr) (kind : BitVec 2) (arg : BitVec 12) (unplanned : Bool) (h : After a b) : After a (b.grpMaintDone y1 kind arg unplanned) := by
  unfold Block.grpMaintDone
  with_reducible repeat' first | (intro) | assumption | apply After.ite | apply Block.grpTake_after | apply Block.maintEnd_after

theorem Block.doMaintGo_after {a b : Block} (kind : BitVec 2) (arg : BitVec 12) (h : After a b) : After a (b.doMaintGo kind arg) := by
  unfold Block.doMaintGo
  extract_lets l0
  have k0 : After a l0 := by
    subst l0
    with_reducible repeat' first | assumption | apply Block.wr_after
  with_reducible repeat' first | assumption | apply After.ite | apply Block.wr_after | apply Block.maintQueue_after | apply Block.grpSend_after

theorem Block.doMaintDoneCmd_after {a b : Block}  (h : After a b) : After a (b.doMaintDoneCmd) := by
  unfold Block.doMaintDoneCmd
  extract_lets l0 l1 l2
  clear_value l0 l1
  have k2 : After a l2 := by
    subst l2
    with_reducible repeat' first | assumption | apply Block.wr_after
  with_reducible repeat' first | assumption | apply After.ite | apply Block.maintEnd_after | apply Block.grpSend_after

theorem Block.doDeputyWrite_after {a b : Block} (dep : BitVec 10) (valid : Bool) (h : After a b) : After a (b.doDeputyWrite dep valid) := by
  unfold Block.doDeputyWrite
  extract_lets l0 l1
  have k0 : ∀ c0, After a c0 → After a (l0 c0) := by
    subst l0
    with_reducible repeat' first | (intro) | assumption | apply Block.wr_after
  have k1 : After a l1 := by
    subst l1
    with_reducible repeat' first | assumption | apply Block.wr_after
  with_reducible repeat' first | assumption | apply After.ite | apply Block.wr_after | apply Block.grpAll_after

theorem Block.doSvcCmdGo_after {a b : Block} (node : BitVec 10) (inSvc : Bool) (h : After a b) : After a (b.doSvcCmdGo node inSvc) := by
  unfold Block.doSvcCmdGo
  extract_lets l0
  have k0 : After a l0 := by
    subst l0
    with_reducible repeat' first | assumption | apply Block.wr_after
  with_reducible repeat' first | assumption | apply After.ite | apply Block.setService_after | apply Block.sendService_after

theorem Block.snapAt_after {a b : Block} (at_ : Nat) (tag : Nat) (h : After a b) : After a (b.snapAt at_ tag) := by
  unfold Block.snapAt
  with_reducible repeat' first | assumption | apply After.ite | apply Block.wr_after

theorem Block.grpSnapAt_after {a b : Block} (y1 : GrpHdr) (at_ : W64) (tag : BitVec 16) (h : After a b) : After a (b.grpSnapAt y1 at_ tag) := by
  unfold Block.grpSnapAt
  with_reducible repeat' first | (intro) | assumption | apply After.ite | apply Block.grpTake_after | apply Block.snapAt_after

theorem Block.doSnGrpGo_after {a b : Block} (tag : BitVec 16) (h : After a b) : After a (b.doSnGrpGo tag) := by
  unfold Block.doSnGrpGo
  extract_lets l0 l1
  clear_value l1
  have k0 : After a l0 := by
    subst l0
    with_reducible repeat' first | assumption | apply Block.wr_after
  with_reducible repeat' first | assumption | apply After.ite | apply Block.snapAt_after | apply Block.grpAll_after

theorem Block.digestLatch_after {a b : Block}  (h : After a b) : After a (b.digestLatch) := by
  unfold Block.digestLatch
  extract_lets l0
  have k0 : After a l0 := by
    subst l0
    with_reducible repeat' first | assumption | apply Block.onGrp_after
  with_reducible repeat' first | assumption | apply After.ite | apply Block.wr_after

theorem Block.digestPass_after {a b : Block}  (h : After a b) : After a (b.digestPass) := by
  unfold Block.digestPass
  with_reducible repeat' first | assumption | apply After.ite | apply Block.inc_after | apply Block.wr_after | apply Block.onGrp_after

theorem Block.heartbeats_after {a b : Block}  (h : After a b) : After a (b.heartbeats) := by
  unfold Block.heartbeats
  with_reducible repeat' first | (intro) | assumption | apply After.ite | apply Block.each_after | apply Block.inc_after | apply Block.grpSend_after

/-! `Sys2Proof.Machine.LichenOps` -/

theorem Block.onLc_after {a b : Block} (f : Lichen → Lichen) (h : After a b) : After a (b.onLc f) := by
  unfold Block.onLc
  with_reducible repeat' first | assumption | apply After.mk

theorem Block.logPut_after {a b : Block} (e : LogE) (h : After a b) : After a (b.logPut e) := by
  unfold Block.logPut
  extract_lets l0 l1 l2
  clear_value l0
  have k1 : After a l1 := by
    subst l1
    with_reducible repeat' first | assumption | apply Block.onLc_after
  have k2 : After a l2 := by
    subst l2
    with_reducible repeat' first | assumption | apply Block.wr_after
  with_reducible repeat' first | (intro) | assumption | apply Block.whenB_after | apply Block.inc_after

theorem Block.lcRec_after {a b : Block} (cause : Nat) (arg : Nat) (h : After a b) : After a (b.lcRec cause arg) := by
  unfold Block.lcRec
  with_reducible repeat' first | assumption | apply Block.report_after

theorem Block.logNow_after {a b : Block} (e : LogE) (cause : Nat) (h : After a b) : After a (b.logNow e cause) := by
  unfold Block.logNow
  extract_lets l0
  have k0 : After a l0 := by
    subst l0
    with_reducible repeat' first | assumption | apply Block.logPut_after
  with_reducible repeat' first | assumption | apply After.ite | apply Block.lcRec_after

theorem Block.lcEvent_after {a b : Block} (code : Nat) (arg : Nat) (cause : Nat) (h : After a b) : After a (b.lcEvent code arg cause) := by
  unfold Block.lcEvent
  with_reducible repeat' first | assumption | apply After.ite | apply Block.draw_after | apply Block.logNow_after | apply Block.onLc_after

theorem Block.logOwed_after {a b : Block}  (h : After a b) : After a (b.logOwed) := by
  unfold Block.logOwed
  with_reducible repeat' first | (intro) | assumption | apply Block.each_after | apply Block.onLc_after | apply Block.logNow_after

theorem Block.rstEvent_after {a b : Block}  (h : After a b) : After a (b.rstEvent) := by
  unfold Block.rstEvent
  with_reducible repeat' first | assumption | apply Block.lcEvent_after

theorem Block.recRegion_after {a b : Block} (r : Nat) (h : After a b) : After a (b.recRegion r) := by
  unfold Block.recRegion
  with_reducible repeat' first | assumption | apply Block.rstEvent_after | apply Block.inc_after | apply Block.wr_after

theorem Block.recTile_after {a b : Block} (l : Nat) (h : After a b) : After a (b.recTile l) := by
  unfold Block.recTile
  with_reducible repeat' first | assumption | apply Block.rstEvent_after | apply Block.inc_after | apply Block.wr_after

theorem Block.recContext_after {a b : Block}  (h : After a b) : After a (b.recContext) := by
  unfold Block.recContext
  with_reducible repeat' first | assumption | apply Block.rstEvent_after | apply Block.inc_after | apply Block.wr_after

/-! `Sys2Proof.Machine.Faults` -/

theorem Block.faultIrq_after {a b : Block}  (h : After a b) : After a (b.faultIrq) := by
  unfold Block.faultIrq
  with_reducible repeat' first | (intro) | assumption | apply Block.each_after | apply Block.irq_after

theorem Block.overflow_after {a b : Block} (r : FaultRec) (ws : List Nat) (h : After a b) : After a (b.overflow r ws) := by
  unfold Block.overflow
  extract_lets l0
  have k0 : After a l0 := by
    subst l0
    with_reducible repeat' first | (intro) | assumption | apply After.ite | apply Block.faultIrq_after | apply Block.wr_after | apply Block.each_after
  with_reducible repeat' first | assumption | apply Block.inc_after

theorem Block.ringPut_after {a b : Block} (r : FaultRec) (ws : List Nat) (h : After a b) : After a (b.ringPut r ws) := by
  unfold Block.ringPut
  with_reducible repeat' first | assumption | apply After.ite | apply Block.overflow_after | apply Block.mwrite_after | apply Block.addWrap_after | (refine After.snd (by assumption) ?_) | split | dsimp only | apply After.mk

theorem Block.pldmEvent_after {a b : Block} (r : FaultRec) (seq : Nat) (h : After a b) : After a (b.pldmEvent r seq) := by
  unfold Block.pldmEvent
  with_reducible repeat' first | (intro) | assumption | apply Block.whenB_after | apply Block.emit_after

theorem Block.doFaultRecord_after {a b : Block}  (h : After a b) : After a (b.doFaultRecord) := by
  unfold Block.doFaultRecord
  with_reducible repeat' first | (intro) | assumption | apply Block.wr_after | apply Block.pldmEvent_after | apply Block.ringPut_after | apply Block.whenB_after | apply Block.snapTrigger_after | split | apply After.mk

theorem Block.doFaultIrq_after {a b : Block}  (h : After a b) : After a (b.doFaultIrq) := by
  unfold Block.doFaultIrq
  with_reducible repeat' first | assumption | apply After.ite | apply Block.faultIrq_after | apply After.mk

theorem Block.doOverflowClear_after {a b : Block}  (h : After a b) : After a (b.doOverflowClear) := by
  unfold Block.doOverflowClear
  extract_lets l0
  have k0 : After a l0 := by
    subst l0
    with_reducible repeat' first | assumption | apply Block.wr_after
  with_reducible repeat' first | assumption | apply Block.clearRegs_after

theorem Block.doSwrecGo_after {a b : Block} (cause : BitVec 8) (level : BitVec 3) (aux : BitVec 31) (h : After a b) : After a (b.doSwrecGo cause level aux) := by
  unfold Block.doSwrecGo
  extract_lets l0
  have k0 : After a l0 := by
    subst l0
    with_reducible repeat' first | assumption | apply Block.wr_after
  with_reducible repeat' first | assumption | apply Block.report_after

theorem Block.doContextClear_after {a b : Block} (ctx : BitVec 12) (h : After a b) : After a (b.doContextClear ctx) := by
  unfold Block.doContextClear
  extract_lets l0
  have k0 : After a l0 := by
    subst l0
    with_reducible repeat' first | assumption | apply Block.wr_after
  with_reducible repeat' first | assumption | apply Block.recContext_after | apply After.mk

theorem Block.gapCount_after {a b : Block} (m : Nat) (h : After a b) : After a (b.gapCount m) := by
  unfold Block.gapCount
  with_reducible repeat' first | assumption | apply After.ite | apply Block.inc_after

theorem Block.shortCause_after {a b : Block} (f : TickFacts) (h : After a b) : After a (b.shortCause f) := by
  unfold Block.shortCause
  with_reducible repeat' first | assumption | apply After.ite | apply Block.inc_after

theorem Block.classify_after {a b : Block} (n : Nat) (h : After a b) : After a (b.classify n) := by
  unfold Block.classify
  extract_lets l0 l1 l2
  clear_value l0
  have k1 : After a l1 := by
    subst l1
    with_reducible repeat' first | assumption | apply Block.gapCount_after
  have k2 : After a l2 := by
    subst l2
    with_reducible repeat' first | assumption | apply After.ite | apply Block.inc_after | apply Block.shortCause_after
  with_reducible repeat' first | assumption | apply After.ite | apply Block.wr_after

/-! `Sys2Proof.Machine.Roce` -/

theorem Block.window_after {a b : Block} (die : Nat) (key : Nat) (h : After a b) : After a (b.window die key).2 := by
  unfold Block.window
  with_reducible repeat' first | assumption | apply After.ite2 | apply Block.tableWords_after | apply Block.room_after | split | dsimp only | apply After.mk

theorem Block.winFail_after {a b : Block} (addr : Nat) (h : After a b) : After a (b.winFail addr) := by
  unfold Block.winFail
  with_reducible repeat' first | assumption | apply Block.report_after | apply Block.inc_after

theorem Block.admitTo_after {a b : Block} (die : Nat) (pd : Nat) (t : RoceTarget) (n : Nat) (perm : WinE → Bool) (h : After a b) : After a (b.admitTo die pd t n perm).2 := by
  have hw := Block.window_after die t.key.toNat h
  unfold Block.admitTo
  extract_lets
  split
  · next heq => exact Block.winFail_after _ (After.snd heq hw)
  · next heq =>
    have hb := After.snd heq hw
    extract_lets
    split
    · exact Block.winFail_after _ hb
    · split
      · exact hb
      · split
        · exact hb
        · exact Block.xlFail_after _ _ _ hb

theorem Block.winLocal_after {a b : Block} (w : WinAt) (y2 : Nat) (write : Bool) (h : After a b) : After a (b.winLocal w y2 write).2 := by
  unfold Block.winLocal
  with_reducible repeat' first | assumption | apply After.ite2 | apply Block.xlate_after | apply Block.xlFail_after

theorem Block.winWriteAt_after {a b : Block} (w : WinAt) (y2 : Nat) (bs : List Byte) (h : After a b) : After a (b.winWriteAt w y2 bs).2 := by
  unfold Block.winWriteAt
  with_reducible repeat' first | assumption | apply After.ite2 | apply Block.winLocal_after | apply Block.absentRec_after | apply Block.mwrite_after | (refine After.snd (by assumption) ?_) | split

theorem Block.winWrite_after {a b : Block} (w : WinAt) (bs : List Byte) (h : After a b) : After a (b.winWrite w bs).2 := by
  unfold Block.winWrite
  with_reducible repeat' first | (intro) | assumption | apply After.ite2 | apply Block.winWriteAt_after | apply After.foldl2

theorem Block.winReadAt_after {a b : Block} (w : WinAt) (y2 : Nat) (n : Nat) (h : After a b) : After a (b.winReadAt w y2 n).2 := by
  unfold Block.winReadAt
  with_reducible repeat' first | assumption | apply After.ite2 | apply Block.winLocal_after | apply Block.absentRec_after | apply Block.mread_after | (refine After.snd (by assumption) ?_) | split

theorem Block.winRead_after {a b : Block} (w : WinAt) (n : Nat) (h : After a b) : After a (b.winRead w n).2 := by
  unfold Block.winRead
  with_reducible repeat' first | (intro) | assumption | apply Block.winReadAt_after | apply After.foldl2 | (refine After.snd (by assumption) ?_) | split

theorem Block.onQp_after {a b : Block} (i : Nat) (f : Qp → Qp) (h : After a b) : After a (b.onQp i f) := by
  unfold Block.onQp
  with_reducible repeat' first | assumption | apply After.mk

theorem Block.qpcmd_after {a b : Block} (i : Nat) (op : Nat) (h : After a b) : After a (b.qpcmd i op) := by
  unfold Block.qpcmd
  with_reducible repeat' first | assumption | apply Block.wr_after

theorem Block.doQpEnable_after {a b : Block} (i : BitVec 12) (h : After a b) : After a (b.doQpEnable i) := by
  unfold Block.doQpEnable
  extract_lets l0
  have k0 : After a l0 := by
    subst l0
    with_reducible repeat' first | assumption | apply Block.qpcmd_after
  with_reducible repeat' first | assumption | apply After.ite | apply Block.wr_after | apply Block.tableWords_after | dsimp only | apply After.mk

theorem Block.qpFail_after {a b : Block} (q : Qp) (cause : Nat) (h : After a b) : After a (b.qpFail q cause) := by
  unfold Block.qpFail
  with_reducible repeat' first | (intro) | assumption | apply Block.each_after | apply Block.recFailed_after

theorem Block.doQpDisable_after {a b : Block} (i : BitVec 12) (h : After a b) : After a (b.doQpDisable i) := by
  unfold Block.doQpDisable
  extract_lets l0
  have k0 : After a l0 := by
    subst l0
    with_reducible repeat' first | assumption | apply Block.qpcmd_after
  with_reducible repeat' first | assumption | apply Block.qpFail_after | split | apply After.mk

theorem Block.qpError_after {a b : Block} (q : Qp) (cause : Nat) (h : After a b) : After a (b.qpError q cause) := by
  unfold Block.qpError
  extract_lets l0
  have k0 : After a l0 := by
    subst l0
    with_reducible repeat' first | assumption | apply Block.inc_after | apply Block.onQp_after
  with_reducible repeat' first | assumption | apply Block.qpFail_after

theorem Block.nak_after {a b : Block} (q : Qp) (psn : Nat) (syndrome : Nat) (own : Bool) (h : After a b) : After a (b.nak q psn syndrome own) := by
  unfold Block.nak
  extract_lets l0 l1
  have k0 : After a l0 := by
    subst l0
    with_reducible repeat' first | assumption | apply Block.inc_after | apply Block.onQp_after
  have k1 : After a l1 := by
    subst l1
    with_reducible repeat' first | (intro) | assumption | apply Block.whenB_after | apply Block.report_after
  with_reducible repeat' first | assumption | apply Block.roceTx_after

theorem Block.nakError_after {a b : Block} (q : Qp) (psn : Nat) (syndrome : Nat) (own : Bool) (h : After a b) : After a (b.nakError q psn syndrome own) := by
  unfold Block.nakError
  with_reducible repeat' first | assumption | apply Block.qpError_after | apply Block.nak_after

theorem Block.rack_after {a b : Block} (q : Qp) (psn : Nat) (n : Nat) (h : After a b) : After a (b.rack q psn n) := by
  unfold Block.rack
  with_reducible repeat' first | assumption | apply Block.roceTx_after

theorem Block.notify_after {a b : Block} (q : Qp) (h : After a b) : After a (b.notify q) := by
  unfold Block.notify
  with_reducible repeat' first | assumption | apply After.ite | apply Block.roceTx_after | apply Block.inc_after | apply Block.onQp_after

theorem Block.request_after {a b : Block} (p : RocePkt) (n : Qp → Nat) (dup : Block → Qp → Block) (perf : Block → Qp → Block) (h : After a b) (hdup : ∀ c0 x1, After a c0 → After a (dup c0 x1)) (hperf : ∀ c0 x1, After a c0 → After a (perf c0 x1)) : After a (b.request p n dup perf) := by
  unfold Block.request
  extract_lets l0
  have k0 : After a l0 := by
    subst l0
    with_reducible repeat' first | assumption | apply Block.inc_after
  with_reducible repeat' first | (intro) | assumption | apply After.ite | apply Block.whenB_after | apply Block.notify_after | apply Block.nak_after | apply Block.onQp_after | apply Block.nakError_after | apply hdup | apply hperf | split

theorem Block.doRdmaWrite_after {a b : Block} (p : RocePkt) (t : RoceTarget) (data : List Byte) (h : After a b) : After a (b.doRdmaWrite p t data) := by
  unfold Block.doRdmaWrite
  with_reducible repeat' first | (intro) | assumption | apply Block.request_after | apply Block.rack_after | apply Block.admitTo_after | apply Block.nakError_after | apply Block.winWrite_after | (refine After.snd (by assumption) ?_) | split

theorem Block.fillSlot_after {a b : Block} (q : Qp) (payload : List Byte) (len : Nat) (kind : Nat) (imm : Option Nat) (psn : Nat) (h : After a b) : After a (b.fillSlot q payload len kind imm psn).2 := by
  unfold Block.fillSlot
  with_reducible repeat' first | assumption | apply After.ite2 | apply Block.bwrite_after | apply Block.onQp_after

theorem Block.fillAck_after {a b : Block} (q : Qp) (payload : List Byte) (len : Nat) (kind : Nat) (imm : Option Nat) (psn : Nat) (h : After a b) : After a (b.fillAck q payload len kind imm psn) := by
  unfold Block.fillAck
  with_reducible repeat' first | assumption | apply Block.fillSlot_after | apply Block.rack_after | apply Block.nakError_after | (refine After.snd (by assumption) ?_) | split

theorem Block.rnr_after {a b : Block} (q : Qp) (psn : Nat) (h : After a b) : After a (b.rnr q psn) := by
  unfold Block.rnr
  with_reducible repeat' first | assumption | apply Block.nak_after | apply Block.onQp_after

theorem Block.doWriteWithImmediate_after {a b : Block} (p : RocePkt) (t : RoceTarget) (data : List Byte) (imm : BitVec 32) (h : After a b) : After a (b.doWriteWithImmediate p t data imm) := by
  unfold Block.doWriteWithImmediate
  with_reducible repeat' first | (intro) | assumption | apply After.ite | apply Block.request_after | apply Block.rack_after | apply Block.nakError_after | apply Block.rnr_after | apply Block.admitTo_after | apply Block.winWrite_after | apply Block.fillAck_after | (refine After.snd (by assumption) ?_) | split

theorem Block.doSend_after {a b : Block} (p : RocePkt) (data : List Byte) (imm : Option (BitVec 32)) (h : After a b) : After a (b.doSend p data imm) := by
  unfold Block.doSend
  with_reducible repeat' first | (intro) | assumption | apply After.ite | apply Block.request_after | apply Block.rack_after | apply Block.nakError_after | apply Block.rnr_after | apply Block.fillAck_after

theorem Block.readPackets_after {a y3 : Block} (q : Qp) (psn0 : Nat) (y2 : Nat) (y4 : MBytes) (y5 : Nat) (h : After a y3) : After a (Block.readPackets q psn0 y2 y3 y4 y5) := by
  induction y2 generalizing y3 q psn0 y4 y5 with
  | zero =>
    simp only [Block.readPackets]
    with_reducible repeat' assumption
  | succ n ih =>
    simp only [Block.readPackets]
    with_reducible repeat' first | assumption | apply After.ite | apply Block.nakError_after | apply Block.roceTx_after | apply ih

theorem Block.readFor_after {a b : Block} (p : RocePkt) (t : RoceTarget) (n : Nat) (q : Qp) (h : After a b) : After a (b.readFor p t n q) := by
  unfold Block.readFor
  with_reducible repeat' first | assumption | apply Block.admitTo_after | apply Block.nakError_after | apply Block.winRead_after | apply Block.readPackets_after | (refine After.snd (by assumption) ?_) | split

theorem Block.doRdmaRead_after {a b : Block} (p : RocePkt) (t : RoceTarget) (len : BitVec 32) (full : Bool) (h : After a b) : After a (b.doRdmaRead p t len full) := by
  unfold Block.doRdmaRead
  with_reducible repeat' first | (intro) | assumption | apply After.ite | apply Block.request_after | apply Block.readFor_after | apply Block.nakError_after

theorem Block.atomicDup_after {a b : Block} (q : Qp) (psn : Nat) (h : After a b) : After a (b.atomicDup q psn) := by
  unfold Block.atomicDup
  with_reducible repeat' first | assumption | apply Block.roceTx_after | apply Block.nakError_after | split

theorem Block.atomicFor_after {a b : Block} (p : RocePkt) (t : RoceTarget) (op : Nat) (v : Nat) (cmp : Nat) (q : Qp) (h : After a b) : After a (b.atomicFor p t op v cmp q) := by
  unfold Block.atomicFor
  extract_lets l0 l1
  clear_value l0
  have k1 : ∀ c0, After a c0 → After a (l1 c0) := by
    subst l1
    with_reducible repeat' first | (intro) | assumption | apply Block.nakError_after
  with_reducible repeat' first | assumption | apply After.ite | apply Block.nakError_after | apply Block.admitTo_after | apply Block.winLocal_after | apply Block.absentRec_after | apply Block.matomic_after | apply Block.roceTx_after | apply Block.onQp_after | (refine After.snd (by assumption) ?_) | (refine After.snd4 (by assumption) ?_) | split

theorem Block.doFetchAndAdd_after {a b : Block} (p : RocePkt) (t : RoceTarget) (v : W64) (full : Bool) (h : After a b) : After a (b.doFetchAndAdd p t v full) := by
  unfold Block.doFetchAndAdd
  with_reducible repeat' first | (intro) | assumption | apply After.ite | apply Block.request_after | apply Block.atomicDup_after | apply Block.nakError_after | apply Block.atomicFor_after

theorem Block.doCompareAndSwap_after {a b : Block} (p : RocePkt) (t : RoceTarget) (v : W64) (cmp : W64) (full : Bool) (h : After a b) : After a (b.doCompareAndSwap p t v cmp full) := by
  unfold Block.doCompareAndSwap
  with_reducible repeat' first | (intro) | assumption | apply After.ite | apply Block.request_after | apply Block.atomicDup_after | apply Block.nakError_after | apply Block.atomicFor_after

theorem Block.qpTake_after {a b : Block} (p : RocePkt) (f : Block → Qp → Block) (h : After a b) (hf : ∀ c0 x1, After a c0 → After a (f c0 x1)) : After a (b.qpTake p f) := by
  unfold Block.qpTake
  with_reducible repeat' first | (intro) | assumption | apply Block.whenB_after | apply Block.notify_after | apply hf | split

theorem Block.doCnp_after {a b : Block} (p : RocePkt) (h : After a b) : After a (b.doCnp p) := by
  unfold Block.doCnp
  with_reducible repeat' first | (intro) | assumption | apply Block.qpTake_after | apply Block.onQp_after | apply Block.inc_after

theorem Block.doCnpGapTimer_after {a b : Block} (i : BitVec 12) (h : After a b) : After a (b.doCnpGapTimer i) := by
  unfold Block.doCnpGapTimer
  with_reducible repeat' first | assumption | apply Block.onQp_after

theorem Block.doRoceAck_after {a b : Block} (p : RocePkt) (h : After a b) : After a (b.doRoceAck p) := by
  unfold Block.doRoceAck
  with_reducible repeat' first | (intro) | assumption | apply Block.qpTake_after | apply Block.onQp_after | apply Block.each_after | apply Block.recAcked_after

theorem Block.doRoceNak_after {a b : Block} (p : RocePkt) (syndrome : BitVec 8) (h : After a b) : After a (b.doRoceNak p syndrome) := by
  unfold Block.doRoceNak
  with_reducible repeat' first | (intro) | assumption | apply After.ite | apply Block.qpTake_after | apply Block.onQp_after | apply Block.report_after | apply Block.qpError_after

theorem Block.resend_after {a b : Block} (q : Qp) (r : Nat × Nat × Bool × Nat × Nat) (h : After a b) : After a (b.resend q r) := by
  unfold Block.resend
  with_reducible repeat' first | assumption | apply After.ite | apply Block.roceTx_after | split

theorem Block.outOfRetries_after {a b : Block} (q : Qp) (cause : Nat) (h : After a b) : After a (b.outOfRetries q cause) := by
  unfold Block.outOfRetries
  with_reducible repeat' first | assumption | apply Block.report_after | apply Block.qpError_after

theorem Block.doRoceAckTimeout_after {a b : Block} (i : BitVec 12) (h : After a b) : After a (b.doRoceAckTimeout i) := by
  unfold Block.doRoceAckTimeout
  with_reducible repeat' first | (intro) | assumption | apply After.ite | apply Block.outOfRetries_after | apply Block.each_after | apply Block.onQp_after | apply Block.resend_after | split

theorem Block.doRoceRnrRetry_after {a b : Block} (i : BitVec 12) (h : After a b) : After a (b.doRoceRnrRetry i) := by
  unfold Block.doRoceRnrRetry
  with_reducible repeat' first | (intro) | assumption | apply After.ite | apply Block.outOfRetries_after | apply Block.each_after | apply Block.onQp_after | apply Block.resend_after | split

/-! `Sys2Proof.Machine.Network` -/

theorem Block.raiseLate_after {a b : Block} (o : Option Issuer) (code : Nat) (h : After a b) : After a (b.raiseLate o code) := by
  unfold Block.raiseLate
  with_reducible repeat' first | assumption | apply Block.raise_after | split

theorem Block.loadGot_after {a b : Block} (p : Nat) (v : Nat) (pois : Bool) (exc : Nat) (h : After a b) : After a (b.loadGot p v pois exc) := by
  unfold Block.loadGot
  with_reducible repeat' first | assumption | apply Block.onSite_after

theorem Block.heldDone_after {a b : Block} (uid : Nat) (h : After a b) : After a (b.heldDone uid) := by
  unfold Block.heldDone
  with_reducible repeat' first | assumption | apply Block.onDm_after

theorem Block.heldWrite_after {a b : Block} (y1 : RelHold) (h : After a b) : After a (b.heldWrite y1) := by
  unfold Block.heldWrite
  with_reducible repeat' first | assumption | apply Block.lsPutWords_after | apply Block.twrite_after | apply Block.raiseLate_after | (refine After.snd (by assumption) ?_) | split

theorem Block.heldLoad_after {a b : Block} (y1 : RelHold) (h : After a b) : After a (b.heldLoad y1) := by
  unfold Block.heldLoad
  with_reducible repeat' first | assumption | apply After.ite | apply Block.tread_after | apply Block.loadGot_after | (refine After.snd (by assumption) ?_) | split

theorem Block.heldAtomic_after {a b : Block} (y1 : RelHold) (h : After a b) : After a (b.heldAtomic y1) := by
  unfold Block.heldAtomic
  with_reducible repeat' first | assumption | apply Block.matomic_after | apply Block.loadGot_after | apply Block.logEffect_after | (refine After.snd4 (by assumption) ?_) | split

theorem Block.heldLocal_after {a b : Block} (y1 : RelHold) (h : After a b) : After a (b.heldLocal y1) := by
  unfold Block.heldLocal
  with_reducible repeat' first | (intro) | assumption | apply After.ite | apply Block.orHold_after | apply Block.heldDone_after | apply Block.heldWrite_after | apply Block.heldLoad_after | apply Block.heldAtomic_after

theorem Block.heldRemote_after {a b : Block} (y1 : RelHold) (h : After a b) : After a (b.heldRemote y1) := by
  unfold Block.heldRemote
  extract_lets l0 l1 l2 l3
  clear_value l0 l1 l3
  have k2 : After a l2 := by
    subst l2
    with_reducible repeat' first | assumption | apply Block.heldDone_after | apply Block.absentRec_after
  with_reducible repeat' first | assumption | apply After.ite | apply Block.loadGot_after | apply Block.raiseLate_after | apply Block.dmSend_after | apply Block.dmAsk_after | split

theorem Block.loseOwner_after {a b : Block} (o : Option Issuer) (h : After a b) : After a (b.loseOwner o) := by
  unfold Block.loseOwner
  with_reducible repeat' first | assumption | apply Block.onCmd_after | split

theorem Block.loseWrite_after {a b : Block} (uid : Nat) (src : Nat) (o : Option Issuer) (h : After a b) : After a (b.loseWrite uid src o) := by
  unfold Block.loseWrite
  extract_lets l0 l1
  have k0 : After a l0 := by
    subst l0
    with_reducible repeat' first | assumption | apply Block.onDm_after
  have k1 : After a l1 := by
    subst l1
    with_reducible repeat' first | assumption | apply Block.onBk_after
  with_reducible repeat' first | assumption | apply Block.loseOwner_after

theorem Block.releaseOne_after {a b : Block} (y1 : RelHold) (h : After a b) : After a (b.releaseOne y1) := by
  unfold Block.releaseOne
  extract_lets l0
  have k0 : After a l0 := by
    subst l0
    with_reducible repeat' first | assumption | apply Block.loseWrite_after
  with_reducible repeat' first | assumption | apply After.ite | apply Block.emit_after | apply Block.loadGot_after | apply Block.heldLocal_after | apply Block.heldRemote_after | split

theorem Block.releaseN_after {a y1 : Block} (y0 : Nat) (h : After a y1) : After a (Block.releaseN y0 y1) := by
  induction y0 generalizing y1 with
  | zero =>
    simp only [Block.releaseN]
    with_reducible repeat' assumption
  | succ n ih =>
    simp only [Block.releaseN]
    with_reducible repeat' first | assumption | apply Block.onDm_after | apply Block.releaseOne_after | apply Block.tryEnd_after | apply ih | split

theorem Block.release_after {a b : Block}  (h : After a b) : After a (b.release) := by
  unfold Block.release
  with_reducible repeat' first | assumption | apply Block.releaseN_after

theorem Block.msgAcked_after {a b : Block} (m : DmMsg) (h : After a b) : After a (b.msgAcked m) := by
  unfold Block.msgAcked
  extract_lets l0
  have k0 : After a l0 := by
    subst l0
    with_reducible repeat' first | assumption | apply Block.recAcked_after | split
  with_reducible repeat' first | assumption | apply Block.heldDone_after | apply Block.omapAcked_after

theorem Block.answer_after {a b : Block} (t : DmTag) (st : Nat) (ms : MBytes) (h : After a b) : After a (b.answer t st ms) := by
  unfold Block.answer
  extract_lets l0 l1 l2
  clear_value l1 l2
  have k0 : After a l0 := by
    subst l0
    with_reducible repeat' first | assumption | apply Block.onDm_after
  with_reducible repeat' first | assumption | apply After.ite | apply Block.loadGot_after | apply Block.raise_after | apply Block.farPut_after | apply Block.emit_after | apply Block.tryEnd_after | apply Block.waitGot_after | apply Block.watchGot_after | split

theorem Block.atomicAnswer_after {a b : Block} (t : DmTag) (st : Nat) (ms : MBytes) (h : After a b) : After a (b.atomicAnswer t st ms) := by
  unfold Block.atomicAnswer
  with_reducible repeat' first | (intro) | assumption | apply After.ite | apply Block.loadGot_after | apply Block.onDm_after | apply Block.answer_after | apply Block.whenB_after | apply Block.logEffect_after | split

theorem Block.msgFailed_after {a b : Block} (m : DmMsg) (h : After a b) : After a (b.msgFailed m) := by
  unfold Block.msgFailed
  extract_lets l0 l1 l2
  have k0 : After a l0 := by
    subst l0
    with_reducible repeat' first | assumption | apply Block.answer_after | split
  have k1 : After a l1 := by
    subst l1
    with_reducible repeat' first | assumption | apply Block.recFailed_after | split
  have k2 : After a l2 := by
    subst l2
    with_reducible repeat' first | assumption | apply Block.omapAcked_after
  with_reducible repeat' first | assumption | apply After.ite | apply Block.loseWrite_after

theorem Block.pathFail_after {a b : Block} (p : SendPath) (h : After a b) : After a (b.pathFail p) := by
  unfold Block.pathFail
  extract_lets l0 l1
  have k0 : After a l0 := by
    subst l0
    with_reducible repeat' first | assumption | apply Block.onDm_after
  have k1 : After a l1 := by
    subst l1
    with_reducible repeat' first | assumption | apply Block.report_after | apply Block.inc_after
  with_reducible repeat' first | (intro) | assumption | apply Block.release_after | apply Block.each_after | apply Block.msgFailed_after

theorem Block.retransmit_after {a b : Block} (p : SendPath) (m : DmMsg) (h : After a b) : After a (b.retransmit p m) := by
  unfold Block.retransmit
  extract_lets l0 l1
  clear_value l0
  have k1 : After a l1 := by
    subst l1
    with_reducible repeat' first | assumption | apply Block.onDm_after
  with_reducible repeat' first | assumption | apply After.ite | apply Block.pathFail_after | apply Block.dmWire_after | apply Block.inc_after

theorem Block.doDamaskRetransmitTimer_after {a b : Block} (path : BitVec 12) (seq : BitVec 32) (h : After a b) : After a (b.doDamaskRetransmitTimer path seq) := by
  unfold Block.doDamaskRetransmitTimer
  with_reducible repeat' first | assumption | apply Block.retransmit_after | split

theorem Block.doPathIdleClose_after {a b : Block} (path : BitVec 12) (h : After a b) : After a (b.doPathIdleClose path) := by
  unfold Block.doPathIdleClose
  with_reducible repeat' first | assumption | apply After.ite | apply Block.dmPump_after | apply Block.onDm_after | split

theorem Block.pathAcked_after {a b : Block} (p : SendPath) (cum : Nat) (sack : Nat) (ece : Bool) (h : After a b) : After a (b.pathAcked p cum sack ece) := by
  unfold Block.pathAcked
  extract_lets l0 l1 l2 l3 l4 l5 l6 l7 l8
  clear_value l0 l1 l2 l3 l4 l5
  have k6 : After a l6 := by
    subst l6
    with_reducible repeat' first | assumption | apply Block.onDm_after
  have k7 : After a l7 := by
    subst l7
    with_reducible repeat' first | (intro) | assumption | apply Block.release_after | apply Block.each_after | apply Block.msgAcked_after
  have k8 : After a l8 := by
    subst l8
    with_reducible repeat' first | (intro) | assumption | apply Block.each_after | apply Block.retransmit_after | split
  with_reducible repeat' first | assumption | apply Block.dmPump_after

theorem Block.dmTake_after {a b : Block} (y1 : DmHdr) (f : Block → Block) (h : After a b) (hf : ∀ c0, After a c0 → After a (f c0)) : After a (b.dmTake y1 f) := by
  unfold Block.dmTake
  with_reducible repeat' first | assumption | apply After.ite | apply Block.inc_after | apply hf

theorem Block.doDmAck_after {a b : Block} (y1 : DmHdr) (sack : W64) (ece : Bool) (h : After a b) : After a (b.doDmAck y1 sack ece) := by
  unfold Block.doDmAck
  with_reducible repeat' first | (intro) | assumption | apply Block.dmTake_after | apply Block.pathAcked_after | split

theorem Block.doDmReset_after {a b : Block} (y1 : DmHdr) (h : After a b) : After a (b.doDmReset y1) := by
  unfold Block.doDmReset
  with_reducible repeat' first | (intro) | assumption | apply Block.dmTake_after | apply Block.pathFail_after | split

theorem Block.onRecv_after {a b : Block} (node : Nat) (path : Nat) (f : RecvPath → RecvPath) (h : After a b) : After a (b.onRecv node path f) := by
  unfold Block.onRecv
  with_reducible repeat' first | assumption | apply Block.onDm_after

theorem Block.sendAck_after {a b : Block} (r : RecvPath) (h : After a b) : After a (b.sendAck r) := by
  unfold Block.sendAck
  with_reducible repeat' first | assumption | apply After.ite | apply Block.txFrame_after | apply Block.inc_after | apply Block.emit_after | apply Block.onRecv_after

theorem Block.doAckDelayTimer_after {a b : Block} (node : BitVec 10) (path : BitVec 12) (h : After a b) : After a (b.doAckDelayTimer node path) := by
  unfold Block.doAckDelayTimer
  with_reducible repeat' first | assumption | apply After.ite | apply Block.sendAck_after | split

theorem Block.sendReset_after {a b : Block} (node : Nat) (path : Nat) (seq : Nat) (h : After a b) : After a (b.sendReset node path seq) := by
  unfold Block.sendReset
  with_reducible repeat' first | assumption | apply After.ite | apply Block.txFrame_after | apply Block.inc_after | apply Block.emit_after

theorem Block.rxWrite_after {a b : Block} (node : Nat) (path : Nat) (m : RxMsg) (h : After a b) : After a (b.rxWrite node path m) := by
  unfold Block.rxWrite
  with_reducible repeat' first | assumption | apply After.ite | apply After.ite2 | apply Block.mwrite_after | apply Block.absentRec_after | apply Block.dmSend_after

theorem Block.rxRead_after {a b : Block} (node : Nat) (m : RxMsg) (h : After a b) : After a (b.rxRead node m) := by
  unfold Block.rxRead
  extract_lets l0 l1 l2 l3 l4 l5
  clear_value l0 l1 l3 l4 l5
  have k2 : ∀ c0 x1 x2, After a c0 → After a (l2 c0 x1 x2) := by
    subst l2
    with_reducible repeat' first | (intro) | assumption | apply Block.dmSend_after
  with_reducible repeat' first | assumption | apply After.ite | apply Block.dmSend_after | apply Block.absentRec_after | apply Block.mread_after

theorem Block.rxAtomic_after {a b : Block} (node : Nat) (m : RxMsg) (h : After a b) : After a (b.rxAtomic node m) := by
  unfold Block.rxAtomic
  extract_lets l0 l1 l2 l3
  clear_value l1 l3
  have k2 : ∀ c0 x1 x2 x3, After a c0 → After a (l2 c0 x1 x2 x3) := by
    subst l2
    with_reducible repeat' first | (intro) | assumption | apply Block.dmSend_after
  with_reducible repeat' first | assumption | apply After.ite | apply Block.dmSend_after | apply Block.absentRec_after | apply Block.matomic_after

theorem Block.rxPerform_after {a b : Block} (node : Nat) (path : Nat) (m : RxMsg) (h : After a b) : After a (b.rxPerform node path m) := by
  unfold Block.rxPerform
  with_reducible repeat' first | assumption | apply After.ite | apply Block.rxWrite_after | apply Block.rxRead_after | apply Block.rxAtomic_after | apply Block.onDm_after | apply Block.sendAck_after | split

theorem Block.rxDone_after {a b : Block} (node : Nat) (path : Nat) (seq : Nat) (h : After a b) : After a (b.rxDone node path seq) := by
  unfold Block.rxDone
  with_reducible repeat' first | assumption | apply Block.onRecv_after

theorem Block.rxNow_after {a b : Block} (node : Nat) (path : Nat) (m : RxMsg) (perf : Block → Block) (h : After a b) (hperf : ∀ c0, After a c0 → After a (perf c0)) : After a (b.rxNow node path m perf) := by
  unfold Block.rxNow
  extract_lets l0
  have k0 : ∀ c0, After a c0 → After a (l0 c0) := by
    subst l0
    with_reducible repeat' first | (intro) | assumption | apply Block.rxDone_after | apply hperf
  with_reducible repeat' first | (intro) | assumption | apply After.ite | apply Block.rxDone_after | apply Block.orHold_after | apply Block.onRecv_after | apply hperf

theorem Block.rxHeldN_after {a y1 : Block} (y0 : Nat) (y2 : Nat) (y3 : Nat) (h : After a y1) : After a (Block.rxHeldN y0 y1 y2 y3) := by
  induction y0 generalizing y1 y2 y3 with
  | zero =>
    simp only [Block.rxHeldN]
    with_reducible repeat' assumption
  | succ n ih =>
    simp only [Block.rxHeldN]
    with_reducible repeat' first | (intro) | assumption | apply Block.rxNow_after | apply Block.rxPerform_after | apply Block.onRecv_after | apply ih | split

theorem Block.rx_after {a b : Block} (y1 : DmHdr) (m : RxMsg) (parts : Nat) (perf : Block → Block) (h : After a b) (hperf : ∀ c0, After a c0 → After a (perf c0)) : After a (b.rx y1 m parts perf) := by
  unfold Block.rx
  with_reducible repeat' first | (intro) | assumption | apply After.ite | apply Block.dmTake_after | apply Block.sendReset_after | apply Block.onRecv_after | apply Block.sendAck_after | apply Block.inc_after | apply Block.rxHeldN_after | apply Block.rxNow_after | apply hperf | split | dsimp only

theorem Block.rxDeliver_after {a b : Block} (node : Nat) (path : Nat) (m : RxMsg) (h : After a b) : After a (b.rxDeliver node path m) := by
  unfold Block.rxDeliver
  with_reducible repeat' first | assumption | apply Block.rxHeldN_after | apply Block.rxDone_after | apply Block.rxPerform_after

theorem Block.rxMem_after {a b : Block} (y1 : DmHdr) (type : Nat) (args : List Nat) (data : MBytes) (h : After a b) : After a (b.rxMem y1 type args data) := by
  unfold Block.rxMem
  with_reducible repeat' first | (intro) | assumption | apply Block.rx_after | apply Block.rxPerform_after

theorem Block.rxOther_after {a b : Block} (y1 : DmHdr) (type : Nat) (f : Block → Block) (parts : Nat) (h : After a b) (hf : ∀ c0, After a c0 → After a (f c0)) : After a (b.rxOther y1 type f parts) := by
  unfold Block.rxOther
  with_reducible repeat' first | (intro) | assumption | apply Block.rx_after | apply hf

theorem Block.doDmOpen_after {a b : Block} (y1 : DmHdr) (h : After a b) : After a (b.doDmOpen y1) := by
  unfold Block.doDmOpen
  with_reducible repeat' first | (intro) | assumption | apply After.ite | apply Block.dmTake_after | apply Block.sendAck_after | apply Block.onDm_after | split

theorem Block.doDmClose_after {a b : Block} (y1 : DmHdr) (h : After a b) : After a (b.doDmClose y1) := by
  unfold Block.doDmClose
  with_reducible repeat' first | assumption | apply Block.rxMem_after

theorem Block.doDmWrite_after {a b : Block} (y1 : DmHdr) (data : MBytes) (h : After a b) : After a (b.doDmWrite y1 data) := by
  unfold Block.doDmWrite
  with_reducible repeat' first | assumption | apply Block.rxMem_after

theorem Block.doDmRead_after {a b : Block} (y1 : DmHdr) (tag : BitVec 32) (len : BitVec 14) (h : After a b) : After a (b.doDmRead y1 tag len) := by
  unfold Block.doDmRead
  with_reducible repeat' first | assumption | apply Block.rxMem_after

theorem Block.doDmAtomic_after {a b : Block} (y1 : DmHdr) (tag : BitVec 32) (cas : Bool) (wide : Bool) (v : W64) (cmp : W64) (h : After a b) : After a (b.doDmAtomic y1 tag cas wide v cmp) := by
  unfold Block.doDmAtomic
  with_reducible repeat' first | assumption | apply Block.rxMem_after

theorem Block.doDmReadResp_after {a b : Block} (y1 : DmHdr) (tag : BitVec 32) (status : BitVec 8) (data : MBytes) (h : After a b) : After a (b.doDmReadResp y1 tag status data) := by
  unfold Block.doDmReadResp
  with_reducible repeat' first | (intro) | assumption | apply Block.rxOther_after | apply Block.answer_after | split

theorem Block.doDmAtomicResp_after {a b : Block} (y1 : DmHdr) (tag : BitVec 32) (status : BitVec 8) (old : W64) (pois : Bool) (h : After a b) : After a (b.doDmAtomicResp y1 tag status old pois) := by
  unfold Block.doDmAtomicResp
  with_reducible repeat' first | (intro) | assumption | apply Block.rxOther_after | apply Block.atomicAnswer_after | split

theorem Block.doDmWriteErr_after {a b : Block} (y1 : DmHdr) (seq : BitVec 32) (status : BitVec 8) (path : BitVec 12) (h : After a b) : After a (b.doDmWriteErr y1 seq status path) := by
  unfold Block.doDmWriteErr
  with_reducible repeat' first | (intro) | assumption | apply Block.rxOther_after | apply Block.raiseLate_after | split

theorem Block.doDmRemoteBag_after {a b : Block} (y1 : DmHdr) (g : BagHdr) (raw : Bool) (parts : List PartItem) (h : After a b) : After a (b.doDmRemoteBag y1 g raw parts) := by
  unfold Block.doDmRemoteBag
  with_reducible repeat' first | (intro) | assumption | apply Block.rxOther_after | apply Block.ownRemoteBag_after

theorem Block.doDmPooledReturn_after {a b : Block} (y1 : DmHdr) (l : LTile) (items : List RetItem) (h : After a b) : After a (b.doDmPooledReturn y1 l items) := by
  unfold Block.doDmPooledReturn
  with_reducible repeat' first | (intro) | assumption | apply Block.rxOther_after | apply Block.ownPooledReturn_after

theorem Block.doDmUpdate_after {a b : Block} (y1 : DmHdr) (g : BagHdr) (cs : List ContribItem) (h : After a b) : After a (b.doDmUpdate y1 g cs) := by
  unfold Block.doDmUpdate
  with_reducible repeat' first | (intro) | assumption | apply Block.rxOther_after | apply Block.ownUpdate_after

theorem Block.doDmUpdateAck_after {a b : Block} (y1 : DmHdr) (l : LTile) (acks : List (BitVec 32 × BitVec 8)) (h : After a b) : After a (b.doDmUpdateAck y1 l acks) := by
  unfold Block.doDmUpdateAck
  with_reducible repeat' first | (intro) | assumption | apply Block.rxOther_after | apply Block.ownUpdateAck_after

theorem Block.doHeartbeat_after {a b : Block} (y1 : DmHdr) (g : GrpHdr) (m : HbMsg) (h : After a b) : After a (b.doHeartbeat y1 g m) := by
  unfold Block.doHeartbeat
  with_reducible repeat' first | (intro) | assumption | apply Block.rxOther_after | apply Block.grpHeartbeat_after

theorem Block.doEpoch_after {a b : Block} (y1 : DmHdr) (g : GrpHdr) (e : EpochFields) (h : After a b) : After a (b.doEpoch y1 g e) := by
  unfold Block.doEpoch
  with_reducible repeat' first | (intro) | assumption | apply Block.rxOther_after | apply Block.grpEpoch_after

theorem Block.doTakeover_after {a b : Block} (y1 : DmHdr) (g : GrpHdr) (l : GrpLead) (h : After a b) : After a (b.doTakeover y1 g l) := by
  unfold Block.doTakeover
  with_reducible repeat' first | (intro) | assumption | apply Block.rxOther_after | apply Block.grpTakeover_after

theorem Block.doService_after {a b : Block} (y1 : DmHdr) (g : GrpHdr) (inSvc : Bool) (cause : BitVec 8) (h : After a b) : After a (b.doService y1 g inSvc cause) := by
  unfold Block.doService
  with_reducible repeat' first | (intro) | assumption | apply Block.rxOther_after | apply Block.grpService_after

theorem Block.doPlacement_after {a b : Block} (y1 : DmHdr) (g : GrpHdr) (at_ : W64) (es : List OmapEntry) (h : After a b) : After a (b.doPlacement y1 g at_ es) := by
  unfold Block.doPlacement
  with_reducible repeat' first | (intro) | assumption | apply Block.rxOther_after | apply Block.grpPlacement_after

theorem Block.doDigestReport_after {a b : Block} (y1 : DmHdr) (g : GrpHdr) (items : List DigestItem) (h : After a b) : After a (b.doDigestReport y1 g items) := by
  unfold Block.doDigestReport
  with_reducible repeat' first | (intro) | assumption | apply Block.rxOther_after | apply Block.grpDigestReport_after

theorem Block.doMaintReq_after {a b : Block} (y1 : DmHdr) (g : GrpHdr) (kind : BitVec 2) (arg : BitVec 12) (h : After a b) : After a (b.doMaintReq y1 g kind arg) := by
  unfold Block.doMaintReq
  with_reducible repeat' first | (intro) | assumption | apply Block.rxOther_after | apply Block.grpMaintReq_after

theorem Block.doMaintGrant_after {a b : Block} (y1 : DmHdr) (g : GrpHdr) (kind : BitVec 2) (arg : BitVec 12) (tick : W64) (h : After a b) : After a (b.doMaintGrant y1 g kind arg tick) := by
  unfold Block.doMaintGrant
  with_reducible repeat' first | (intro) | assumption | apply Block.rxOther_after | apply Block.grpMaintGrant_after

theorem Block.doMaintDone_after {a b : Block} (y1 : DmHdr) (g : GrpHdr) (kind : BitVec 2) (arg : BitVec 12) (unplanned : Bool) (h : After a b) : After a (b.doMaintDone y1 g kind arg unplanned) := by
  unfold Block.doMaintDone
  with_reducible repeat' first | (intro) | assumption | apply Block.rxOther_after | apply Block.grpMaintDone_after

theorem Block.doSnapAt_after {a b : Block} (y1 : DmHdr) (g : GrpHdr) (at_ : W64) (tag : BitVec 16) (h : After a b) : After a (b.doSnapAt y1 g at_ tag) := by
  unfold Block.doSnapAt
  with_reducible repeat' first | (intro) | assumption | apply Block.rxOther_after | apply Block.grpSnapAt_after

/-! `Sys2Proof.Machine.Ports` -/

theorem Block.showLinks_after {a b : Block} (port : Nat) (h : After a b) : After a (b.showLinks port) := by
  unfold Block.showLinks
  with_reducible repeat' first | assumption | apply Block.wr_after

theorem Block.doLinkUp_after {a b : Block} (sub : Fin 64) (h : After a b) : After a (b.doLinkUp sub) := by
  unfold Block.doLinkUp
  with_reducible repeat' first | assumption | apply After.ite | apply Block.showLinks_after | apply Block.wr_after | apply Block.onPorts_after

theorem Block.doLinkDown_after {a b : Block} (sub : Fin 64) (lanes : BitVec 8) (h : After a b) : After a (b.doLinkDown sub lanes) := by
  unfold Block.doLinkDown
  with_reducible repeat' first | assumption | apply Block.showLinks_after | apply Block.wr_after | apply Block.onPorts_after

theorem Block.portOff_after {a b : Block} (port : Nat) (h : After a b) : After a (b.portOff port) := by
  unfold Block.portOff
  with_reducible repeat' first | assumption | apply Block.showLinks_after | apply Block.onPorts_after

theorem Block.doFecDegWindow_after {a b : Block} (sub : Fin 64) (errors : W64) (bitsIn : W64) (uncorr : BitVec 16) (h : After a b) : After a (b.doFecDegWindow sub errors bitsIn uncorr) := by
  unfold Block.doFecDegWindow
  extract_lets l0 l1 l2 l3 l4 l5 l6
  clear_value l0 l1 l2 l3 l4 l5
  have k6 : After a l6 := by
    subst l6
    with_reducible repeat' first | assumption | apply Block.onPorts_after
  with_reducible repeat' first | assumption | apply Block.inc_after | apply Block.wr_after

theorem Block.refuse_after {a b : Block} (sub : Nat) (h : After a b) : After a (b.refuse sub) := by
  unfold Block.refuse
  with_reducible repeat' first | assumption | apply Block.inc_after

theorem Block.answerFrame_after {a b : Block} (sub : Nat) (kind : Nat) (data : List Byte) (h : After a b) : After a (b.answerFrame sub kind data) := by
  unfold Block.answerFrame
  with_reducible repeat' first | assumption | apply Block.txFrame_after | apply Block.emit_after | (refine After.snd (by assumption) ?_) | split

theorem Block.takeInner_after {a b : Block} (sub : Nat) (i : Inner) (h : After a b) : After a (b.takeInner sub i) := by
  unfold Block.takeInner
  with_reducible repeat' first | assumption | apply After.ite | apply Block.refuse_after | apply Block.answerFrame_after | split

theorem Block.doFrameReceive_after {a b : Block} (sub : Fin 64) (f : Frame) (h : After a b) : After a (b.doFrameReceive sub f) := by
  unfold Block.doFrameReceive
  extract_lets l0 l1
  clear_value l0
  have k1 : After a l1 := by
    subst l1
    with_reducible repeat' first | assumption | apply Block.inc_after
  with_reducible repeat' first | assumption | apply After.ite | apply Block.inc_after | apply Block.refuse_after | apply Block.takeInner_after | apply Block.onPorts_after | split

theorem Block.doPfcFrame_after {a b : Block} (sub : Fin 64) (pause : BitVec 8) (resume : BitVec 8) (h : After a b) : After a (b.doPfcFrame sub pause resume) := by
  unfold Block.doPfcFrame
  with_reducible repeat' first | assumption | apply After.ite | apply Block.onPorts_after

theorem Block.msecSel_after {a b : Block} (p : Nat) (k : Nat) (rx : Bool) (an : Nat) (op : Nat) (h : After a b) : After a (b.msecSel p k rx an op) := by
  unfold Block.msecSel
  with_reducible repeat' first | assumption | apply Block.wr_after

theorem Block.unstage_after {a b : Block} (p : Nat) (h : After a b) : After a (b.unstage p) := by
  unfold Block.unstage
  with_reducible repeat' first | assumption | apply Block.clearRegs_after

theorem Block.dropAssoc_after {a b : Block} (sub : Nat) (tx : Bool) (an : Nat) (h : After a b) : After a (b.dropAssoc sub tx an) := by
  unfold Block.dropAssoc
  with_reducible repeat' first | assumption | apply Block.onPorts_after

theorem Block.doMsecInstall_after {a b : Block} (p : Fin 16) (k : Fin 4) (rx : Bool) (an : BitVec 2) (h : After a b) : After a (b.doMsecInstall p k rx an) := by
  unfold Block.doMsecInstall
  extract_lets l0 l1
  clear_value l1
  have k0 : After a l0 := by
    subst l0
    with_reducible repeat' first | assumption | apply Block.msecSel_after
  with_reducible repeat' first | assumption | apply After.ite | apply Block.wr_after | apply Block.unstage_after | apply Block.onPorts_after | apply Block.dropAssoc_after

theorem Block.doMsecDelete_after {a b : Block} (p : Fin 16) (k : Fin 4) (rx : Bool) (an : BitVec 2) (h : After a b) : After a (b.doMsecDelete p k rx an) := by
  unfold Block.doMsecDelete
  with_reducible repeat' first | assumption | apply Block.dropAssoc_after | apply Block.msecSel_after

theorem Block.doMsecActivate_after {a b : Block} (p : Fin 16) (k : Fin 4) (rx : Bool) (an : BitVec 2) (h : After a b) : After a (b.doMsecActivate p k rx an) := by
  unfold Block.doMsecActivate
  extract_lets l0 l1
  clear_value l1
  have k0 : After a l0 := by
    subst l0
    with_reducible repeat' first | assumption | apply Block.msecSel_after
  with_reducible repeat' first | assumption | apply After.ite | apply Block.wr_after | apply Block.onPorts_after

theorem Block.doPtpFrameReceive_after {a b : Block} (sub : Fin 64) (t : ClockTime) (frame : List Byte) (h : After a b) : After a (b.doPtpFrameReceive sub t frame) := by
  unfold Block.doPtpFrameReceive
  with_reducible repeat' first | assumption | apply After.ite | apply Block.mwrite_after | apply Block.addWrap_after

theorem Block.ptpSend_after {a b : Block} (cons : Nat) (size : Nat) (t : ClockTime) (h : After a b) : After a (b.ptpSend cons size t) := by
  unfold Block.ptpSend
  with_reducible repeat' first | assumption | apply After.ite | apply Block.tableWords_after | apply Block.mread_after | apply Block.txFrame_after | apply Block.emit_after | apply Block.mwrite_after | apply Block.addWrap_after

theorem Block.ptpSendN_after {a y1 : Block} (y0 : List ClockTime) (h : After a y1) : After a (Block.ptpSendN y0 y1) := by
  induction y0 generalizing y1 with
  | nil =>
    simp only [Block.ptpSendN]
    with_reducible repeat' assumption
  | cons t l ih =>
    simp only [Block.ptpSendN]
    with_reducible repeat' first | assumption | apply After.ite | apply Block.tableWords_after | apply Block.ptpSend_after | apply ih

theorem Block.doPtpTransmit_after {a b : Block} (prod : BitVec 16) (times : List ClockTime) (h : After a b) : After a (b.doPtpTransmit prod times) := by
  unfold Block.doPtpTransmit
  extract_lets l0
  have k0 : After a l0 := by
    subst l0
    with_reducible repeat' first | assumption | apply Block.wr_after
  with_reducible repeat' first | assumption | apply After.ite | apply Block.ptpSendN_after

theorem Block.doPtpTimeStep_after {a b : Block} (t : ClockTime) (h : After a b) : After a (b.doPtpTimeStep t) := by
  unfold Block.doPtpTimeStep
  extract_lets l0 l1
  clear_value l0
  have k1 : After a l1 := by
    subst l1
    with_reducible repeat' first | assumption | apply After.mk
  with_reducible repeat' first | assumption | apply Block.wr_after

theorem Block.doPpsInEdge_after {a b : Block} (t : ClockTime) (h : After a b) : After a (b.doPpsInEdge t) := by
  unfold Block.doPpsInEdge
  with_reducible repeat' first | assumption | apply Block.wr_after

theorem Block.doPpsOut_after {a b : Block}  (h : After a b) : After a (b.doPpsOut) := by
  unfold Block.doPpsOut
  with_reducible repeat' first | assumption | apply Block.emit_after

end Sys2Proof.Machine
end

