-- ==== Sys2Proof/Laws/AfterModule.lean ====
section
/-! SUPPORT. What resets, power, Lichen, bring-up, the tick and register writes do: one lemma per function, in the terms of `After`. -/

namespace Sys2Proof.Machine
open Reg

/-! `Sys2Proof.Machine.Resets` -/

theorem Block.setRst_after {a b : Block} (r : Option RstRun) (h : After a b) : After a (b.setRst r) := by
  unfold Block.setRst
  with_reducible repeat' first | assumption | apply After.mk

theorem Block.clearSite_after {a b : Block} (p : Nat) (h : After a b) : After a (b.clearSite p) := by
  unfold Block.clearSite
  with_reducible repeat' first | assumption | apply Block.freshSeed_after | apply Block.setSite_after | apply Block.undefMem_after | apply Block.clearRegs_after | apply Block.wr_after | (refine After.snd (by assumption) ?_) | split | dsimp only | apply After.mk

theorem Block.clearPages_after {a b : Block} (l : Nat) (h : After a b) : After a (b.clearPages l) := by
  unfold Block.clearPages
  with_reducible repeat' first | assumption | apply Block.onBk_after

theorem Block.countAbort_after {a b : Block} (soft : Bool) (h : After a b) : After a (b.countAbort soft) := by
  unfold Block.countAbort
  extract_lets l0
  have k0 : After a l0 := by
    subst l0
    with_reducible repeat' first | assumption | apply After.ite | apply Block.inc_after
  with_reducible repeat' first | assumption | apply Block.onFacts_after

theorem Block.abortStep_after {a b : Block} (p : Nat) (h : After a b) : After a (b.abortStep p) := by
  unfold Block.abortStep
  with_reducible repeat' first | assumption | apply After.ite | apply Block.abortRun_after | apply Block.inc_after | apply Block.countAbort_after | split

theorem Block.abortTodo_after {a b : Block} (p : Nat) (r : StepRun) (h : After a b) : After a (b.abortTodo p r) := by
  unfold Block.abortTodo
  with_reducible repeat' first | assumption | apply After.ite | apply Block.inc_after | apply Block.stepFailed_after | apply Block.countAbort_after

theorem Block.abortAll_after {a b : Block} (p : Nat) (h : After a b) : After a (b.abortAll p) := by
  unfold Block.abortAll
  extract_lets l0 l1
  clear_value l1
  have k0 : After a l0 := by
    subst l0
    with_reducible repeat' first | assumption | apply Block.abortStep_after
  with_reducible repeat' first | (intro) | assumption | apply Block.each_after | apply Block.onSite_after | apply Block.abortTodo_after

theorem Block.abortList_after {a b : Block} (p : Nat) (h : After a b) : After a (b.abortList p) := by
  unfold Block.abortList
  extract_lets l0 l1
  clear_value l1
  have k0 : After a l0 := by
    subst l0
    with_reducible repeat' first | assumption | apply Block.abortAll_after
  with_reducible repeat' first | (intro) | assumption | apply After.ite | apply Block.onNextBank_after | apply Block.each_after | apply Block.abortTodo_after

theorem Block.clearCache_after {a b : Block} (r : Nat) (h : After a b) : After a (b.clearCache r) := by
  unfold Block.clearCache
  extract_lets l0 l1
  have k0 : After a l0 := by
    subst l0
    with_reducible repeat' first | assumption | apply Block.wr_after | apply Block.rcFlush_after
  have k1 : After a l1 := by
    subst l1
    with_reducible repeat' first | assumption | apply After.mk
  with_reducible repeat' first | assumption | apply Block.clearRegs_after

theorem Block.clearRegion_after {a b : Block} (r : Nat) (h : After a b) : After a (b.clearRegion r) := by
  unfold Block.clearRegion
  extract_lets l0
  have k0 : After a l0 := by
    subst l0
    with_reducible repeat' first | (intro) | assumption | apply Block.each_after | apply Block.clearCache_after | apply Block.clearPages_after
  with_reducible repeat' first | (intro) | assumption | apply Block.each_after | apply Block.clearSite_after

theorem Block.setAsleep_after {a b : Block} (r : Nat) (v : Bool) (h : After a b) : After a (b.setAsleep r v) := by
  unfold Block.setAsleep
  with_reducible repeat' first | assumption | apply Block.wr_after

theorem Block.forgetSites_after {a b : Block} (r : Nat) (h : After a b) : After a (b.forgetSites r) := by
  unfold Block.forgetSites
  with_reducible repeat' first | assumption | apply After.mk

theorem Block.rstApply_after {a b : Block} (r : RstRun) (h : After a b) : After a (b.rstApply r) := by
  unfold Block.rstApply
  extract_lets l0 l1 l2 l3
  clear_value l1
  have k0 : After a l0 := by
    subst l0
    with_reducible repeat' first | assumption | apply Block.setRst_after
  have k2 : After a l2 := by
    subst l2
    with_reducible repeat' first | (intro) | assumption | apply Block.abortList_after | apply Block.clearRegion_after | apply Block.each_after
  have k3 : After a l3 := by
    subst l3
    with_reducible repeat' first | assumption | apply After.ite | apply Block.forgetSites_after | apply Block.setAsleep_after
  with_reducible repeat' first | assumption | apply After.ite | apply Block.recTile_after | apply Block.clearSite_after | apply Block.clearPages_after | apply Block.abortList_after | apply Block.recRegion_after

theorem Block.rstDue_after {a b : Block}  (h : After a b) : After a (b.rstDue) := by
  unfold Block.rstDue
  with_reducible repeat' first | assumption | apply After.ite | apply Block.rstApply_after | split

theorem Block.wake_after {a b : Block} (r : Nat) (h : After a b) : After a (b.wake r) := by
  unfold Block.wake
  extract_lets l0
  have k0 : After a l0 := by
    subst l0
    with_reducible repeat' first | assumption | apply Block.setRst_after
  with_reducible repeat' first | assumption | apply Block.recRegion_after | apply Block.clearRegion_after

theorem Block.cutSnap_after {a b : Block}  (h : After a b) : After a (b.cutSnap) := by
  unfold Block.cutSnap
  with_reducible repeat' first | assumption | apply After.ite | apply Block.freshSeed_after | apply Block.wr_after | dsimp only | apply After.mk

theorem Block.loadPresetOf_after {a b : Block} (m : Nat) (h : After a b) : After a (b.loadPresetOf m) := by
  unfold Block.loadPresetOf
  with_reducible repeat' first | assumption | apply Block.wr_after

theorem Block.loadPreset_after {a b : Block}  (h : After a b) : After a (b.loadPreset) := by
  unfold Block.loadPreset
  with_reducible repeat' first | (intro) | assumption | apply Block.each_after | apply Block.loadPresetOf_after

theorem Block.applyMaps_after {a b : Block} (chs : List Nat) (pkgs : List Nat) (mig : List Nat) (h : After a b) : After a (b.applyMaps chs pkgs mig) := by
  unfold Block.applyMaps
  extract_lets l0 l1
  clear_value l1
  have k0 : After a l0 := by
    subst l0
    with_reducible repeat' first | (intro) | assumption | apply Block.each_after | apply Block.whenB_after | apply Block.wr_after | apply Block.undefMem_after
  with_reducible repeat' first | (intro) | assumption | apply Block.each_after | apply Block.whenB_after | apply Block.wr_after | apply Block.undefMem_after

theorem Block.discardMerges_after {a b : Block}  (h : After a b) : After a (b.discardMerges) := by
  unfold Block.discardMerges
  with_reducible repeat' first | (intro) | assumption | apply Block.each_after | apply Block.onMoss_after | apply Block.report_after

theorem Block.clearParts_after {a b : Block}  (h : After a b) : After a (b.clearParts) := by
  unfold Block.clearParts
  with_reducible repeat' first | assumption | dsimp only | apply After.mk

theorem Block.clearSites_after {a b : Block}  (h : After a b) : After a (b.clearSites) := by
  unfold Block.clearSites
  with_reducible repeat' first | (intro) | assumption | apply Block.each_after | apply Block.clearSite_after | apply Block.onSite_after

theorem Block.clearModule_after {a b : Block}  (h : After a b) : After a (b.clearModule) := by
  unfold Block.clearModule
  extract_lets l0 l1 l2 l3 l4 l5 l6
  clear_value l0 l1 l2 l4
  have k3 : After a l3 := by
    subst l3
    with_reducible repeat' first | assumption | apply Block.cutSnap_after
  have k5 : After a l5 := by
    subst l5
    with_reducible repeat' first | assumption | apply After.mk
  have k6 : After a l6 := by
    subst l6
    with_reducible repeat' first | assumption | apply Block.clearRegs_after | apply Block.clearParts_after
  with_reducible repeat' first | assumption | apply Block.clearSites_after | apply Block.loadPreset_after | apply Block.applyMaps_after | apply Block.discardMerges_after

theorem Block.stepping_after {a b : Block} (f : Block → Block) (h : After a b) (hf : ∀ c0, After a c0 → After a (f c0)) : After a (b.stepping f) := by
  unfold Block.stepping
  extract_lets l0 l1 l2
  clear_value l1
  have k0 : After a l0 := by
    subst l0
    with_reducible repeat' first | assumption | apply hf
  have k2 : After a l2 := by
    subst l2
    with_reducible repeat' first | (intro) | assumption | apply Block.whenB_after | apply Block.inc_after
  with_reducible repeat' first | (intro) | assumption | apply Block.whenB_after | apply Block.emit_after

theorem Block.recCause_after {a b : Block} (code : Nat) (h : After a b) : After a (b.recCause code) := by
  unfold Block.recCause
  extract_lets l0 l1 l2
  clear_value l0
  have k1 : After a l1 := by
    subst l1
    with_reducible repeat' first | assumption | apply After.mk
  have k2 : After a l2 := by
    subst l2
    with_reducible repeat' first | assumption | apply Block.wr_after
  with_reducible repeat' first | assumption | apply Block.wr_after

theorem Block.beginReset_after {a b : Block} (code : Nat) (flush : Bool) (h : After a b) : After a (b.beginReset code flush) := by
  unfold Block.beginReset
  extract_lets l0 l1 l2
  have k0 : After a l0 := by
    subst l0
    with_reducible repeat' first | assumption | apply After.mk
  have k1 : After a l1 := by
    subst l1
    with_reducible repeat' first | (intro) | assumption | apply After.ite | apply Block.each_after | apply Block.rcFlush_after
  have k2 : After a l2 := by
    subst l2
    with_reducible repeat' first | assumption | apply Block.recCause_after | apply Block.rstEvent_after | apply Block.inc_after | apply Block.wr_after
  with_reducible repeat' first | (intro) | assumption | apply After.ite | apply Block.recCause_after | apply Block.stepping_after | apply Block.clearModule_after

theorem Block.moduleReset_after {a b : Block} (code : Nat) (flush : Bool) (h : After a b) : After a (b.moduleReset code flush) := by
  unfold Block.moduleReset
  with_reducible repeat' first | assumption | apply After.ite | apply Block.beginReset_after

theorem Block.rstCmd_after {a b : Block} (op : Nat) (target : Nat) (flush : Bool) (h : After a b) : After a (b.rstCmd op target flush) := by
  unfold Block.rstCmd
  extract_lets l0 l1 l2 l3
  clear_value l1 l3
  have k0 : After a l0 := by
    subst l0
    with_reducible repeat' first | assumption | apply Block.wr_after
  have k2 : After a l2 := by
    subst l2
    with_reducible repeat' first | assumption | apply Block.wr_after
  with_reducible repeat' first | assumption | apply After.ite | apply Block.wr_after | apply Block.wake_after | apply Block.moduleReset_after | apply Block.rstDue_after | apply Block.setRst_after | apply After.mk

theorem Block.softReset_after {a b : Block}  (h : After a b) : After a (b.softReset) := by
  unfold Block.softReset
  with_reducible repeat' first | assumption | apply After.ite | apply Block.moduleReset_after | split

theorem Block.doTileReset_after {a b : Block} (target : BitVec 9) (h : After a b) : After a (b.doTileReset target) := by
  unfold Block.doTileReset
  with_reducible repeat' first | assumption | apply Block.rstCmd_after

theorem Block.doRegionReset_after {a b : Block} (target : BitVec 9) (h : After a b) : After a (b.doRegionReset target) := by
  unfold Block.doRegionReset
  with_reducible repeat' first | assumption | apply Block.rstCmd_after

theorem Block.doRegionSleep_after {a b : Block} (target : BitVec 9) (h : After a b) : After a (b.doRegionSleep target) := by
  unfold Block.doRegionSleep
  with_reducible repeat' first | assumption | apply Block.rstCmd_after

theorem Block.doRegionWake_after {a b : Block} (target : BitVec 9) (h : After a b) : After a (b.doRegionWake target) := by
  unfold Block.doRegionWake
  with_reducible repeat' first | assumption | apply Block.rstCmd_after

theorem Block.doModuleResetCmd_after {a b : Block} (flush : Bool) (h : After a b) : After a (b.doModuleResetCmd flush) := by
  unfold Block.doModuleResetCmd
  with_reducible repeat' first | assumption | apply Block.rstCmd_after

theorem Block.deliverOne_after {a b : Block} (l : Nat) (q : HeldReq) (h : After a b) : After a (b.deliverOne l q) := by
  unfold Block.deliverOne
  with_reducible repeat' first | assumption | apply After.ite | apply Block.holdReq_after | apply Block.lsWrite_after | apply Block.regPost_after | apply Block.arrive_after | apply Block.perform_after | apply Block.release_after | apply Block.heldLocal_after | apply Block.rxDeliver_after | split

theorem Block.deliverN_after {a y1 : Block} (y0 : List (Nat × HeldReq)) (h : After a y1) : After a (Block.deliverN y0 y1) := by
  induction y0 generalizing y1 with
  | nil => exact h
  | cons x xs ih =>
    unfold Block.deliverN
    have hc := Block.deliverOne_after x.1 x.2 h
    dsimp only
    split
    · exact After.same hc rfl rfl rfl
    · exact ih hc

theorem Block.deliver_after {a b : Block}  (h : After a b) : After a (b.deliver) := by
  unfold Block.deliver
  with_reducible repeat' first | assumption | apply Block.deliverN_after | apply After.mk

theorem Block.doResetReady_after {a b : Block}  (h : After a b) : After a (b.doResetReady) := by
  unfold Block.doResetReady
  extract_lets l0
  have k0 : After a l0 := by
    subst l0
    with_reducible repeat' first | assumption | apply Block.wr_after | apply Block.setRst_after
  with_reducible repeat' first | assumption | apply After.ite | apply Block.setAsleep_after | apply Block.deliver_after | split

theorem Block.doResetPin_after {a b : Block}  (h : After a b) : After a (b.doResetPin) := by
  unfold Block.doResetPin
  with_reducible repeat' first | assumption | apply Block.moduleReset_after

theorem Block.doModuleReset_after {a b : Block} (code : BitVec 4) (h : After a b) : After a (b.doModuleReset code) := by
  unfold Block.doModuleReset
  with_reducible repeat' first | assumption | apply After.ite | apply Block.moduleReset_after

/-! `Sys2Proof.Machine.Power` -/

theorem Block.onPw_after {a b : Block} (f : Power → Power) (h : After a b) : After a (b.onPw f) := by
  unfold Block.onPw
  with_reducible repeat' first | assumption | apply After.mk

theorem Block.owe_after {a b : Block} (r : FaultRec) (h : After a b) : After a (b.owe r) := by
  unfold Block.owe
  with_reducible repeat' first | assumption | apply Block.onPw_after

theorem Block.setGood_after {a b : Block} (v : Bool) (h : After a b) : After a (b.setGood v) := by
  unfold Block.setGood
  with_reducible repeat' first | assumption | apply After.ite | apply Block.emit_after | apply Block.onPw_after

theorem Block.setTrip_after {a b : Block} (v : Bool) (h : After a b) : After a (b.setTrip v) := by
  unfold Block.setTrip
  with_reducible repeat' first | assumption | apply After.ite | apply Block.emit_after | apply Block.onPw_after

theorem Block.loseMemory_after {a b : Block}  (h : After a b) : After a (b.loseMemory) := by
  unfold Block.loseMemory
  extract_lets l0
  have k0 : After a l0 := by
    subst l0
    with_reducible repeat' first | (intro) | assumption | apply Block.each_after | apply Block.undefMem_after
  with_reducible repeat' first | assumption | apply After.mk

theorem Block.mainOff_after {a b : Block} (code : Option Nat) (h : After a b) : After a (b.mainOff code) := by
  unfold Block.mainOff
  extract_lets l0 l1 l2
  have k0 : After a l0 := by
    subst l0
    with_reducible repeat' first | assumption | apply Block.onPw_after | apply Block.setGood_after
  have k1 : After a l1 := by
    subst l1
    with_reducible repeat' first | assumption | apply After.ite | apply Block.rstEvent_after | apply Block.recCause_after | apply Block.beginReset_after | split | apply After.mk
  have k2 : After a l2 := by
    subst l2
    with_reducible repeat' first | (intro) | assumption | apply Block.stepping_after | apply Block.clearModule_after
  with_reducible repeat' first | assumption | apply After.ite | apply Block.loseMemory_after

theorem Block.railsStart_after {a b : Block}  (h : After a b) : After a (b.railsStart) := by
  unfold Block.railsStart
  extract_lets l0 l1
  have k0 : After a l0 := by
    subst l0
    with_reducible repeat' first | assumption | apply Block.onPw_after
  have k1 : After a l1 := by
    subst l1
    with_reducible repeat' first | assumption | apply After.ite | apply Block.rstEvent_after | apply Block.inc_after | apply Block.wr_after | apply Block.recCause_after
  with_reducible repeat' first | assumption | apply Block.wr_after

theorem Block.doPwrEnAssert_after {a b : Block} (inRange : Bool) (h : After a b) : After a (b.doPwrEnAssert inRange) := by
  unfold Block.doPwrEnAssert
  extract_lets l0
  have k0 : After a l0 := by
    subst l0
    with_reducible repeat' first | assumption | apply Block.onPw_after
  with_reducible repeat' first | assumption | apply After.ite | apply Block.railsStart_after

theorem Block.doPwrEnDeassert_after {a b : Block}  (h : After a b) : After a (b.doPwrEnDeassert) := by
  unfold Block.doPwrEnDeassert
  extract_lets l0
  have k0 : After a l0 := by
    subst l0
    with_reducible repeat' first | assumption | apply Block.setTrip_after | apply Block.onPw_after
  with_reducible repeat' first | assumption | apply Block.mainOff_after

theorem Block.doRailsInRegulation_after {a b : Block}  (h : After a b) : After a (b.doRailsInRegulation) := by
  unfold Block.doRailsInRegulation
  with_reducible repeat' first | assumption | apply After.ite | apply Block.wr_after | apply Block.setGood_after

theorem Block.protectOff_after {a b : Block} (code : Nat) (latch : Bool) (r : FaultRec) (h : After a b) : After a (b.protectOff code latch r) := by
  unfold Block.protectOff
  with_reducible repeat' first | assumption | apply After.ite | apply Block.owe_after | apply Block.onPw_after | apply Block.mainOff_after

theorem Block.doOvervoltage_after {a b : Block}  (h : After a b) : After a (b.doOvervoltage) := by
  unfold Block.doOvervoltage
  with_reducible repeat' first | assumption | apply Block.onPw_after | apply Block.protectOff_after

theorem Block.doOvervoltageRecovery_after {a b : Block}  (h : After a b) : After a (b.doOvervoltageRecovery) := by
  unfold Block.doOvervoltageRecovery
  extract_lets l0
  have k0 : After a l0 := by
    subst l0
    with_reducible repeat' first | assumption | apply Block.onPw_after
  with_reducible repeat' first | assumption | apply After.ite | apply Block.railsStart_after

theorem Block.doShort_after {a b : Block}  (h : After a b) : After a (b.doShort) := by
  unfold Block.doShort
  with_reducible repeat' first | assumption | apply Block.protectOff_after

theorem Block.doOvercurrent_after {a b : Block}  (h : After a b) : After a (b.doOvercurrent) := by
  unfold Block.doOvercurrent
  with_reducible repeat' first | assumption | apply Block.protectOff_after

theorem Block.doRailFault_after {a b : Block} (rail : BitVec 8) (h : After a b) : After a (b.doRailFault rail) := by
  unfold Block.doRailFault
  with_reducible repeat' first | assumption | apply Block.protectOff_after

theorem Block.doOpenPair_after {a b : Block}  (h : After a b) : After a (b.doOpenPair) := by
  unfold Block.doOpenPair
  with_reducible repeat' first | (intro) | assumption | apply After.ite | apply Block.report_after | apply Block.owe_after | apply Block.stepping_after | apply Block.wr_after

theorem Block.doOpenPairRecover_after {a b : Block}  (h : After a b) : After a (b.doOpenPairRecover) := by
  unfold Block.doOpenPairRecover
  with_reducible repeat' first | (intro) | assumption | apply Block.stepping_after | apply Block.wr_after

theorem Block.stopSite_after {a b : Block} (p : Nat) (h : After a b) : After a (b.stopSite p) := by
  unfold Block.stopSite
  extract_lets l0
  have k0 : After a l0 := by
    subst l0
    with_reducible repeat' first | assumption | apply Block.onSite_after | apply Block.dropRun_after | apply Block.stopStep_after
  with_reducible repeat' first | assumption | apply Block.wr_after

theorem Block.isolate_after {a b : Block} (d : Nat) (h : After a b) : After a (b.isolate d) := by
  unfold Block.isolate
  extract_lets l0 l1 l2 l3 l4
  clear_value l3
  have k0 : After a l0 := by
    subst l0
    with_reducible repeat' first | (intro) | assumption | apply Block.each_after | apply Block.stopSite_after
  have k1 : After a l1 := by
    subst l1
    with_reducible repeat' first | (intro) | assumption | apply Block.each_after | apply Block.sfLeave_after | apply Block.rcDrop_after
  have k2 : After a l2 := by
    subst l2
    with_reducible repeat' first | (intro) | assumption | apply Block.each_after | apply Block.forgetSites_after
  have k4 : After a l4 := by
    subst l4
    with_reducible repeat' first | assumption | apply After.mk
  with_reducible repeat' first | assumption | apply After.ite | apply Block.moduleFatal_after | apply Block.wr_after

theorem Block.doCDieRailFault_after {a b : Block} (die : Fin 8) (h : After a b) : After a (b.doCDieRailFault die) := by
  unfold Block.doCDieRailFault
  with_reducible repeat' first | assumption | apply After.ite | apply Block.isolate_after | apply Block.report_after

theorem Block.commitHw_after {a b : Block}  (h : After a b) : After a (b.commitHw) := by
  unfold Block.commitHw
  with_reducible repeat' first | assumption | apply Block.onLc_after

theorem Block.doUvWarn_after {a b : Block}  (h : After a b) : After a (b.doUvWarn) := by
  unfold Block.doUvWarn
  extract_lets l0
  have k0 : After a l0 := by
    subst l0
    with_reducible repeat' first | (intro) | assumption | apply Block.stepping_after | apply Block.onPw_after | apply Block.wr_after
  with_reducible repeat' first | assumption | apply After.ite | apply Block.commitHw_after | apply Block.snapTrigger_after | apply Block.report_after | apply Block.inc_after

theorem Block.doUvDwellTimer_after {a b : Block}  (h : After a b) : After a (b.doUvDwellTimer) := by
  unfold Block.doUvDwellTimer
  with_reducible repeat' first | (intro) | assumption | apply After.ite | apply Block.stepping_after | apply Block.wr_after

theorem Block.doRecoveryLevelReached_after {a b : Block} (recovery : Bool) (h : After a b) : After a (b.doRecoveryLevelReached recovery) := by
  unfold Block.doRecoveryLevelReached
  with_reducible repeat' first | assumption | apply Block.onPw_after

theorem Block.doUvRecoverTimer_after {a b : Block}  (h : After a b) : After a (b.doUvRecoverTimer) := by
  unfold Block.doUvRecoverTimer
  extract_lets l0 l1
  clear_value l0
  have k1 : After a l1 := by
    subst l1
    with_reducible repeat' first | (intro) | assumption | apply Block.stepping_after | apply Block.whenB_after | apply Block.wr_after
  with_reducible repeat' first | (intro) | assumption | apply After.ite | apply Block.whenB_after | apply Block.report_after

theorem Block.doUvReset_after {a b : Block}  (h : After a b) : After a (b.doUvReset) := by
  unfold Block.doUvReset
  extract_lets l0 l1
  clear_value l0
  have k1 : After a l1 := by
    subst l1
    with_reducible repeat' first | assumption | apply Block.owe_after | apply Block.moduleReset_after
  with_reducible repeat' first | assumption | apply After.ite | apply Block.wr_after | apply Block.setGood_after

theorem Block.doPwClkWrite_after {a b : Block} (mhz : BitVec 12) (h : After a b) : After a (b.doPwClkWrite mhz) := by
  unfold Block.doPwClkWrite
  extract_lets l0 l1 l2
  have k0 : After a l0 := by
    subst l0
    with_reducible repeat' first | assumption | apply Block.wr_after
  have k1 : After a l1 := by
    subst l1
    with_reducible repeat' first | assumption | apply Block.onLc_after
  have k2 : After a l2 := by
    subst l2
    with_reducible repeat' first | assumption | apply Block.onPw_after
  with_reducible repeat' first | assumption | apply After.ite | apply Block.wr_after | apply Block.lcEvent_after

theorem Block.applyBase_after {a b : Block}  (h : After a b) : After a (b.applyBase) := by
  unfold Block.applyBase
  with_reducible repeat' first | assumption | apply Block.onPw_after | apply Block.wr_after | split

theorem Block.doCapWindow_after {a b : Block} (avg : BitVec 16) (h : After a b) : After a (b.doCapWindow avg) := by
  unfold Block.doCapWindow
  extract_lets l0 l1 l2 l3 l4 l5 l6 l7 l8
  clear_value l1 l2 l3 l4 l5
  have k0 : After a l0 := by
    subst l0
    with_reducible repeat' first | assumption | apply Block.wr_after
  have k6 : After a l6 := by
    subst l6
    with_reducible repeat' first | assumption | apply Block.onPw_after
  have k7 : After a l7 := by
    subst l7
    with_reducible repeat' first | (intro) | assumption | apply After.ite | apply Block.wr_after | apply Block.stepping_after | apply Block.whenB_after
  have k8 : After a l8 := by
    subst l8
    with_reducible repeat' first | (intro) | assumption | apply Block.whenB_after | apply Block.report_after | apply Block.inc_after
  with_reducible repeat' first | (intro) | assumption | apply After.ite | apply Block.whenB_after | apply Block.report_after

theorem Block.showTherm_after {a b : Block}  (h : After a b) : After a (b.showTherm) := by
  unfold Block.showTherm
  extract_lets l0 l1
  clear_value l0
  have k1 : After a l1 := by
    subst l1
    with_reducible repeat' first | (intro) | assumption | apply Block.whenB_after | apply Block.inc_after
  with_reducible repeat' first | assumption | apply Block.wr_after

theorem Block.setDieStep_after {a b : Block} (d : Nat) (v : Nat) (h : After a b) : After a (b.setDieStep d v) := by
  unfold Block.setDieStep
  with_reducible repeat' first | assumption | apply Block.wr_after

theorem Block.doDieTempWarn_after {a b : Block} (die : Fin 8) (t : BitVec 8) (h : After a b) : After a (b.doDieTempWarn die t) := by
  unfold Block.doDieTempWarn
  extract_lets l0 l1 l2
  clear_value l0 l1
  have k2 : After a l2 := by
    subst l2
    with_reducible repeat' first | (intro) | assumption | apply Block.stepping_after | apply Block.showTherm_after | apply Block.setDieStep_after
  with_reducible repeat' first | (intro) | assumption | apply Block.whenB_after | apply Block.report_after

theorem Block.doDieStepRecover_after {a b : Block} (die : Fin 8) (h : After a b) : After a (b.doDieStepRecover die) := by
  unfold Block.doDieStepRecover
  with_reducible repeat' first | (intro) | assumption | apply After.ite | apply Block.stepping_after | apply Block.showTherm_after | apply Block.setDieStep_after

theorem Block.doThermDieTrip_after {a b : Block} (die : Fin 8) (h : After a b) : After a (b.doThermDieTrip die) := by
  unfold Block.doThermDieTrip
  with_reducible repeat' first | assumption | apply After.ite | apply Block.isolate_after | apply Block.report_after | apply Block.setTrip_after

theorem Block.doThermModuleTrip_after {a b : Block} (pt : Fin 2 ⊕ Fin 12) (h : After a b) : After a (b.doThermModuleTrip pt) := by
  unfold Block.doThermModuleTrip
  with_reducible repeat' first | assumption | apply After.ite | apply Block.setTrip_after | apply Block.protectOff_after

theorem Block.doStackOrNDieTempWarn_after {a b : Block} (pt : Fin 2 ⊕ Fin 12) (hot : Bool) (h : After a b) : After a (b.doStackOrNDieTempWarn pt hot) := by
  unfold Block.doStackOrNDieTempWarn
  extract_lets l0 l1 l2 l3
  clear_value l0 l1 l3
  have k2 : After a l2 := by
    subst l2
    with_reducible repeat' first | (intro) | assumption | apply Block.stepping_after | apply Block.showTherm_after | apply Block.onPw_after
  with_reducible repeat' first | (intro) | assumption | apply Block.whenB_after | apply Block.report_after

theorem Block.doCoolantCondition_after {a b : Block} (c : Fin 3) (holds : Bool) (h : After a b) : After a (b.doCoolantCondition c holds) := by
  unfold Block.doCoolantCondition
  extract_lets l0 l1
  clear_value l0
  have k1 : After a l1 := by
    subst l1
    with_reducible repeat' first | (intro) | assumption | apply Block.stepping_after | apply Block.onPw_after | apply Block.whenB_after | apply Block.wr_after
  with_reducible repeat' first | (intro) | assumption | apply Block.whenB_after | apply Block.report_after

theorem Block.doCoolantRecover_after {a b : Block}  (h : After a b) : After a (b.doCoolantRecover) := by
  unfold Block.doCoolantRecover
  with_reducible repeat' first | (intro) | assumption | apply After.ite | apply Block.stepping_after | apply Block.wr_after

/-! `Sys2Proof.Machine.Lichen` -/

theorem Block.commitField_after {a b : Block} (f : Field) (i : Nat) (j : Nat) (h : After a b) : After a (b.commitField f i j) := by
  unfold Block.commitField
  with_reducible repeat' first | assumption | apply Block.onLc_after

theorem Block.commitSw_after {a b : Block}  (h : After a b) : After a (b.commitSw) := by
  unfold Block.commitSw
  with_reducible repeat' first | assumption | apply Block.onLc_after

theorem Block.commitAll_after {a b : Block}  (h : After a b) : After a (b.commitAll) := by
  unfold Block.commitAll
  with_reducible repeat' first | assumption | apply After.ite | apply Block.commitHw_after | apply Block.commitSw_after

theorem Block.doLichenCommit_after {a b : Block}  (h : After a b) : After a (b.doLichenCommit) := by
  unfold Block.doLichenCommit
  with_reducible repeat' first | assumption | apply After.ite | apply Block.commitAll_after

theorem Block.doStoreWriteFail_after {a b : Block}  (h : After a b) : After a (b.doStoreWriteFail) := by
  unfold Block.doStoreWriteFail
  with_reducible repeat' first | assumption | apply After.ite | apply Block.lcEvent_after | apply Block.wr_after

theorem Block.fromStore_after {a b : Block}  (h : After a b) : After a (b.fromStore) := by
  unfold Block.fromStore
  with_reducible repeat' first | assumption | dsimp only | apply After.mk

theorem Block.eraseStore_after {a b : Block}  (h : After a b) : After a (b.eraseStore) := by
  unfold Block.eraseStore
  with_reducible repeat' first | assumption | apply Block.fromStore_after | apply Block.onLc_after

theorem Block.doSensorPoll_after {a b : Block} (s : BitVec 16) (reading : Option W32) (h : After a b) : After a (b.doSensorPoll s reading) := by
  unfold Block.doSensorPoll
  extract_lets l0 l1 l2
  clear_value l0 l1
  have k2 : After a l2 := by
    subst l2
    with_reducible repeat' first | assumption | apply Block.onLc_after
  with_reducible repeat' first | (intro) | assumption | apply After.ite | apply Block.onLc_after | apply Block.whenB_after | apply Block.lcEvent_after | split

theorem Block.setActPend_after {a b : Block} (c : Nat) (v : Bool) (h : After a b) : After a (b.setActPend c v) := by
  unfold Block.setActPend
  with_reducible repeat' first | assumption | apply Block.wr_after

theorem Block.setSlot_after {a b : Block} (c : Nat) (s : Nat) (v : Bool) (h : After a b) : After a (b.setSlot c s v) := by
  unfold Block.setSlot
  with_reducible repeat' first | assumption | apply Block.commitField_after | apply Block.wr_after

theorem Block.setActive_after {a b : Block} (c : Nat) (s : Nat) (h : After a b) : After a (b.setActive c s) := by
  unfold Block.setActive
  with_reducible repeat' first | assumption | apply Block.commitField_after | apply Block.wr_after

theorem Block.dropAct_after {a b : Block} (c : Nat) (h : After a b) : After a (b.dropAct c) := by
  unfold Block.dropAct
  with_reducible repeat' first | assumption | apply Block.setActPend_after | apply Block.onLc_after

theorem Block.fwCommit_after {a b : Block} (c : Nat) (h : After a b) : After a (b.fwCommit c) := by
  unfold Block.fwCommit
  extract_lets l0 l1 l2
  clear_value l0
  have k1 : After a l1 := by
    subst l1
    with_reducible repeat' first | assumption | apply Block.onLc_after | apply Block.dropAct_after
  have k2 : After a l2 := by
    subst l2
    with_reducible repeat' first | assumption | apply Block.inc_after | apply Block.setActive_after
  with_reducible repeat' first | assumption | apply Block.lcEvent_after

theorem Block.fwTakeBack_after {a b : Block} (c : Nat) (h : After a b) : After a (b.fwTakeBack c) := by
  unfold Block.fwTakeBack
  extract_lets l0
  have k0 : After a l0 := by
    subst l0
    with_reducible repeat' first | assumption | apply Block.inc_after | apply Block.dropAct_after
  with_reducible repeat' first | assumption | apply Block.lcEvent_after

theorem Block.irqAll_after {a b : Block} (why : Nat) (h : After a b) : After a (b.irqAll why) := by
  unfold Block.irqAll
  with_reducible repeat' first | (intro) | assumption | apply Block.each_after | apply Block.irq_after

theorem Block.placeRt_after {a b : Block}  (h : After a b) : After a (b.placeRt) := by
  unfold Block.placeRt
  with_reducible repeat' first | assumption | apply Block.mwrite_after

theorem Block.fwBegin_after {a b : Block} (c : Nat) (h : After a b) : After a (b.fwBegin c) := by
  unfold Block.fwBegin
  extract_lets l0
  have k0 : After a l0 := by
    subst l0
    with_reducible repeat' first | assumption | apply Block.onLc_after
  with_reducible repeat' first | assumption | apply After.ite | apply Block.onLc_after | apply Block.irqAll_after | apply Block.placeRt_after | apply Block.wr_after

theorem Block.fwReq_after {a b : Block} (c : Nat) (revert : Bool) (at_ : Nat) (h : After a b) : After a (b.fwReq c revert at_).2 := by
  unfold Block.fwReq
  extract_lets l0 l1 l2 l3
  clear_value l0 l1 l2
  have k3 : After a l3 := by
    subst l3
    with_reducible repeat' first | assumption | apply Block.setActPend_after | apply Block.onLc_after
  with_reducible repeat' first | assumption | apply After.ite | apply After.ite2 | apply Block.wr_after | apply Block.fwBegin_after

theorem Block.doFwActivate_after {a b : Block} (c : BitVec 2) (h : After a b) : After a (b.doFwActivate c) := by
  unfold Block.doFwActivate
  with_reducible repeat' first | assumption | apply Block.fwReq_after | apply Block.wr_after

theorem Block.doFwRevert_after {a b : Block} (c : BitVec 2) (h : After a b) : After a (b.doFwRevert c) := by
  unfold Block.doFwRevert
  with_reducible repeat' first | assumption | apply Block.fwReq_after | apply Block.wr_after

theorem Block.fwBoundary_after {a b : Block}  (h : After a b) : After a (b.fwBoundary) := by
  unfold Block.fwBoundary
  with_reducible repeat' first | (intro) | assumption | apply Block.each_after | apply Block.fwBegin_after

theorem Block.doFwReadyBracken_after {a b : Block}  (h : After a b) : After a (b.doFwReadyBracken) := by
  unfold Block.doFwReadyBracken
  with_reducible repeat' first | assumption | apply After.ite | apply Block.bkResume_after | apply Block.fwCommit_after

theorem Block.doBrackenReadyTimeout_after {a b : Block}  (h : After a b) : After a (b.doBrackenReadyTimeout) := by
  unfold Block.doBrackenReadyTimeout
  with_reducible repeat' first | assumption | apply After.ite | apply Block.bkResume_after | apply Block.fwTakeBack_after

theorem Block.doFwReadyRt_after {a b : Block}  (h : After a b) : After a (b.doFwReadyRt) := by
  unfold Block.doFwReadyRt
  with_reducible repeat' first | assumption | apply After.ite | apply Block.fwCommit_after

theorem Block.doRuntimeReadyTimeout_after {a b : Block}  (h : After a b) : After a (b.doRuntimeReadyTimeout) := by
  unfold Block.doRuntimeReadyTimeout
  with_reducible repeat' first | assumption | apply After.ite | apply Block.fwTakeBack_after | apply Block.irqAll_after

theorem Block.lichenUp_after {a b : Block} (why : Nat) (h : After a b) : After a (b.lichenUp why) := by
  unfold Block.lichenUp
  extract_lets l0 l1
  have k0 : After a l0 := by
    subst l0
    with_reducible repeat' first | assumption | apply Block.wr_after
  have k1 : After a l1 := by
    subst l1
    with_reducible repeat' first | assumption | apply After.ite | apply Block.fwCommit_after
  with_reducible repeat' first | assumption | apply Block.lcEvent_after | apply Block.logOwed_after | apply Block.commitAll_after

theorem Block.doLichenRestart_after {a b : Block}  (h : After a b) : After a (b.doLichenRestart) := by
  unfold Block.doLichenRestart
  with_reducible repeat' first | assumption | apply After.ite | apply Block.lichenUp_after

theorem Block.fwStart_after {a b : Block} (fails : Nat) (h : After a b) : After a (b.fwStart fails) := by
  unfold Block.fwStart
  extract_lets l0 l1 l2
  clear_value l0
  have k1 : After a l1 := by
    subst l1
    with_reducible repeat' first | (intro) | assumption | apply After.ite | apply Block.each_after | apply Block.fwCommit_after
  have k2 : After a l2 := by
    subst l2
    with_reducible repeat' first | assumption | apply Block.wr_after | apply Block.onLc_after
  with_reducible repeat' first | (intro) | assumption | apply After.ite | apply Block.each_after | apply Block.onLc_after | apply Block.inc_after | apply Block.lcEvent_after | apply Block.setActive_after

theorem Block.setIdKey_after {a b : Block} (v : Nat) (h : After a b) : After a (b.setIdKey v) := by
  unfold Block.setIdKey
  extract_lets l0
  have k0 : After a l0 := by
    subst l0
    with_reducible repeat' first | assumption | apply Block.onLc_after | apply Block.wr_after
  with_reducible repeat' first | assumption | apply After.ite | apply Block.lcEvent_after

theorem Block.setLock_after {a b : Block} (v : Bool) (h : After a b) : After a (b.setLock v) := by
  unfold Block.setLock
  with_reducible repeat' first | assumption | apply Block.commitField_after | apply Block.wr_after

theorem Block.lock_after {a b : Block}  (h : After a b) : After a (b.lock) := by
  unfold Block.lock
  extract_lets l0 l1
  have k0 : After a l0 := by
    subst l0
    with_reducible repeat' first | assumption | apply Block.setLock_after
  have k1 : After a l1 := by
    subst l1
    with_reducible repeat' first | assumption | apply After.ite | apply Block.setIdKey_after
  with_reducible repeat' first | (intro) | assumption | apply Block.each_after | apply Block.dropAct_after

theorem Block.erase_after {a b : Block}  (h : After a b) : After a (b.erase) := by
  unfold Block.erase
  extract_lets l0 l1 l2 l3 l4
  clear_value l2
  have k0 : After a l0 := by
    subst l0
    with_reducible repeat' first | assumption | apply Block.onPorts_after
  have k1 : After a l1 := by
    subst l1
    with_reducible repeat' first | assumption | apply After.mk
  have k3 : After a l3 := by
    subst l3
    with_reducible repeat' first | (intro) | assumption | apply Block.each_after | apply Block.qpFail_after | apply After.mk
  have k4 : After a l4 := by
    subst l4
    with_reducible repeat' first | assumption | apply Block.onLc_after
  with_reducible repeat' first | assumption | apply After.ite | apply Block.setIdKey_after

theorem Block.alarmOne_after {a b : Block} (s : Nat) (p : Nat) (h : After a b) : After a (b.alarmOne s p) := by
  unfold Block.alarmOne
  extract_lets l0 l1 l2 l3
  have k0 : After a l0 := by
    subst l0
    with_reducible repeat' first | assumption | apply After.ite | apply Block.wr_after
  have k1 : After a l1 := by
    subst l1
    with_reducible repeat' first | assumption | apply Block.wr_after | apply Block.inc_after
  have k2 : After a l2 := by
    subst l2
    with_reducible repeat' first | (intro) | assumption | apply Block.inc_after | apply Block.whenB_after
  have k3 : After a l3 := by
    subst l3
    with_reducible repeat' first | (intro) | assumption | apply Block.inc_after | apply Block.whenB_after
  with_reducible repeat' first | assumption | apply Block.lcEvent_after

theorem Block.alarms_after {a b : Block} (ss : List Nat) (h : After a b) : After a (b.alarms ss) := by
  unfold Block.alarms
  extract_lets l0 l1 l2
  clear_value l0
  have k1 : After a l1 := by
    subst l1
    with_reducible repeat' first | (intro) | assumption | apply Block.onLc_after | apply Block.each_after | apply Block.alarmOne_after
  have k2 : After a l2 := by
    subst l2
    with_reducible repeat' first | (intro) | assumption | apply Block.whenB_after | apply Block.lock_after
  with_reducible repeat' first | (intro) | assumption | apply After.ite | apply Block.whenB_after | apply Block.erase_after

theorem Block.doTamperAlarm_after {a b : Block} (active : BitVec 5) (h : After a b) : After a (b.doTamperAlarm active) := by
  unfold Block.doTamperAlarm
  with_reducible repeat' first | assumption | apply Block.alarms_after | apply Block.wr_after

theorem Block.doSvTestTrigger_after {a b : Block}  (h : After a b) : After a (b.doSvTestTrigger) := by
  unfold Block.doSvTestTrigger
  with_reducible repeat' first | assumption | apply Block.alarms_after

theorem Block.clearLatch_after {a b : Block} (v : Nat) (h : After a b) : After a (b.clearLatch v) := by
  unfold Block.clearLatch
  with_reducible repeat' first | assumption | apply Block.wr_after

theorem Block.attestStart_after {a b : Block}  (h : After a b) : After a (b.attestStart) := by
  unfold Block.attestStart
  with_reducible repeat' first | assumption | apply After.ite | apply Block.onLc_after | apply Block.wr_after

theorem Block.doReattest_after {a b : Block} (fail : Option (Fin 4)) (h : After a b) : After a (b.doReattest fail) := by
  unfold Block.doReattest
  extract_lets l0 l1 l2
  have k0 : After a l0 := by
    subst l0
    with_reducible repeat' first | assumption | apply After.ite | apply Block.lichenUp_after | apply Block.attestStart_after
  have k1 : After a l1 := by
    subst l1
    with_reducible repeat' first | assumption | apply Block.onLc_after
  have k2 : After a l2 := by
    subst l2
    with_reducible repeat' first | assumption | apply Block.setLock_after
  with_reducible repeat' first | assumption | apply After.ite | apply Block.lcEvent_after | apply Block.setIdKey_after

theorem Block.reply_after {a b : Block} (iface : Nat) (cmd : Nat) (args : List Nat) (h : After a b) : After a (b.reply iface cmd args) := by
  unfold Block.reply
  with_reducible repeat' first | assumption | apply Block.emit_after

theorem Block.mgmt_after {a b : Block} (f : Block → Block) (h : After a b) (hf : ∀ c0, After a c0 → After a (f c0)) : After a (b.mgmt f) := by
  unfold Block.mgmt
  with_reducible repeat' first | assumption | apply After.ite | apply hf

theorem Block.replyFree_after {a b : Block} (iface : Nat) (cmd : Nat) (h : After a b) : After a (b.replyFree iface cmd) := by
  unfold Block.replyFree
  with_reducible repeat' first | assumption | apply Block.draw_after | apply Block.reply_after

theorem Block.doSetEndpointId_after {a b : Block} (eid : BitVec 8) (h : After a b) : After a (b.doSetEndpointId eid) := by
  unfold Block.doSetEndpointId
  with_reducible repeat' first | (intro) | assumption | apply After.ite | apply Block.mgmt_after | apply Block.reply_after | apply Block.onLc_after

theorem Block.doGetEndpointId_after {a b : Block}  (h : After a b) : After a (b.doGetEndpointId) := by
  unfold Block.doGetEndpointId
  with_reducible repeat' first | (intro) | assumption | apply Block.mgmt_after | apply Block.reply_after

theorem Block.doGetMctpVersionSupport_after {a b : Block}  (h : After a b) : After a (b.doGetMctpVersionSupport) := by
  unfold Block.doGetMctpVersionSupport
  with_reducible repeat' first | (intro) | assumption | apply Block.mgmt_after | apply Block.replyFree_after

theorem Block.doGetMessageTypeSupport_after {a b : Block}  (h : After a b) : After a (b.doGetMessageTypeSupport) := by
  unfold Block.doGetMessageTypeSupport
  with_reducible repeat' first | (intro) | assumption | apply Block.mgmt_after | apply Block.reply_after

theorem Block.doPldmBaseCommand_after {a b : Block} (cmd : BitVec 8) (arg : BitVec 8) (h : After a b) : After a (b.doPldmBaseCommand cmd arg) := by
  unfold Block.doPldmBaseCommand
  with_reducible repeat' first | (intro) | assumption | apply After.ite | apply Block.mgmt_after | apply Block.reply_after | apply Block.onLc_after | apply Block.replyFree_after

theorem Block.doPldmSensorRead_after {a b : Block} (s : PldmSensor) (h : After a b) : After a (b.doPldmSensorRead s) := by
  unfold Block.doPldmSensorRead
  with_reducible repeat' first | (intro) | assumption | apply After.ite | apply Block.mgmt_after | apply Block.reply_after | split

theorem Block.doPldmFirmwareTransfer_after {a b : Block} (x : FwItem) (h : After a b) : After a (b.doPldmFirmwareTransfer x) := by
  unfold Block.doPldmFirmwareTransfer
  with_reducible repeat' first | (intro) | assumption | apply After.ite | apply Block.mgmt_after | apply Block.reply_after | apply Block.setSlot_after | apply Block.onLc_after | apply Block.commitField_after | apply Block.wr_after | apply Block.lcEvent_after | apply Block.each_after | apply Block.mwrite_after | split

theorem Block.doActivateFirmware_after {a b : Block} (c : Fin 4) (h : After a b) : After a (b.doActivateFirmware c) := by
  unfold Block.doActivateFirmware
  with_reducible repeat' first | (intro) | assumption | apply Block.mgmt_after | apply Block.fwReq_after | apply Block.reply_after

theorem Block.setPolicy_after {a b : Block} (v : Nat) (h : After a b) : After a (b.setPolicy v) := by
  unfold Block.setPolicy
  with_reducible repeat' first | (intro) | assumption | apply Block.each_after | apply Block.commitField_after | apply Block.wr_after

theorem Block.doSvPolicyWrite_after {a b : Block} (sid : BitVec 16) (v : BitVec 12) (h : After a b) : After a (b.doSvPolicyWrite sid v) := by
  unfold Block.doSvPolicyWrite
  with_reducible repeat' first | (intro) | assumption | apply After.ite | apply Block.mgmt_after | apply Block.reply_after | apply Block.setPolicy_after

theorem Block.spdmReq_after {a b : Block} (n : Nat) (cmd : Nat) (f : Block → Block) (h : After a b) (hf : ∀ c0, After a c0 → After a (f c0)) : After a (b.spdmReq n cmd f) := by
  unfold Block.spdmReq
  with_reducible repeat' first | (intro) | assumption | apply After.ite | apply Block.mgmt_after | apply Block.reply_after | apply hf

theorem Block.spdmSig_after {a b : Block} (cmd : Nat) (f : Block → Block) (h : After a b) (hf : ∀ c0, After a c0 → After a (f c0)) : After a (b.spdmSig cmd f) := by
  unfold Block.spdmSig
  with_reducible repeat' first | assumption | apply After.ite | apply Block.reply_after | apply hf

theorem Block.doGetVersion_after {a b : Block}  (h : After a b) : After a (b.doGetVersion) := by
  unfold Block.doGetVersion
  with_reducible repeat' first | (intro) | assumption | apply Block.mgmt_after | apply Block.reply_after | apply Block.onLc_after

theorem Block.doGetCapabilities_after {a b : Block}  (h : After a b) : After a (b.doGetCapabilities) := by
  unfold Block.doGetCapabilities
  with_reducible repeat' first | (intro) | assumption | apply Block.spdmReq_after | apply Block.replyFree_after | apply Block.onLc_after

theorem Block.doNegotiateAlgorithms_after {a b : Block}  (h : After a b) : After a (b.doNegotiateAlgorithms) := by
  unfold Block.doNegotiateAlgorithms
  with_reducible repeat' first | (intro) | assumption | apply Block.spdmReq_after | apply Block.replyFree_after | apply Block.onLc_after

theorem Block.doGetDigests_after {a b : Block}  (h : After a b) : After a (b.doGetDigests) := by
  unfold Block.doGetDigests
  with_reducible repeat' first | (intro) | assumption | apply Block.spdmReq_after | apply Block.replyFree_after

theorem Block.doGetCertificate_after {a b : Block} (slot : BitVec 4) (h : After a b) : After a (b.doGetCertificate slot) := by
  unfold Block.doGetCertificate
  with_reducible repeat' first | (intro) | assumption | apply After.ite | apply Block.spdmReq_after | apply Block.replyFree_after | apply Block.reply_after

theorem Block.doChallenge_after {a b : Block} (slot : BitVec 4) (h : After a b) : After a (b.doChallenge slot) := by
  unfold Block.doChallenge
  with_reducible repeat' first | (intro) | assumption | apply After.ite | apply Block.spdmReq_after | apply Block.spdmSig_after | apply Block.replyFree_after | apply Block.reply_after

theorem Block.doGetMeasurements_after {a b : Block} (ix : BitVec 8) (signed : Bool) (h : After a b) : After a (b.doGetMeasurements ix signed) := by
  unfold Block.doGetMeasurements
  extract_lets l0
  have k0 : ∀ c0, After a c0 → After a (l0 c0) := by
    subst l0
    with_reducible repeat' first | (intro) | assumption | apply Block.reply_after | split | dsimp only
  with_reducible repeat' first | (intro) | assumption | apply After.ite | apply Block.spdmReq_after | apply Block.spdmSig_after | apply k0

theorem Block.doKeyExchange_after {a b : Block}  (h : After a b) : After a (b.doKeyExchange) := by
  unfold Block.doKeyExchange
  with_reducible repeat' first | (intro) | assumption | apply Block.spdmReq_after | apply Block.spdmSig_after | apply Block.reply_after | apply Block.onLc_after

theorem Block.doFinish_after {a b : Block} (sid : BitVec 16) (ok : Bool) (h : After a b) : After a (b.doFinish sid ok) := by
  unfold Block.doFinish
  with_reducible repeat' first | (intro) | assumption | apply After.ite | apply Block.spdmReq_after | apply Block.reply_after | apply Block.onLc_after

theorem Block.doEndSession_after {a b : Block} (sid : BitVec 16) (h : After a b) : After a (b.doEndSession sid) := by
  unfold Block.doEndSession
  with_reducible repeat' first | (intro) | assumption | apply After.ite | apply Block.spdmReq_after | apply Block.reply_after | apply Block.onLc_after

theorem Block.doI3cDynamicAddress_after {a b : Block} (y1 : BitVec 7) (h : After a b) : After a (b.doI3cDynamicAddress y1) := by
  unfold Block.doI3cDynamicAddress
  with_reducible repeat' first | (intro) | assumption | apply Block.mgmt_after | apply Block.reply_after | apply Block.onLc_after

theorem Block.doMgmtNeighbourSolicitation_after {a b : Block} (target : Option (BitVec 128)) (h : After a b) : After a (b.doMgmtNeighbourSolicitation target) := by
  unfold Block.doMgmtNeighbourSolicitation
  with_reducible repeat' first | (intro) | assumption | apply After.ite | apply Block.mgmt_after | apply Block.reply_after | split

/-! `Sys2Proof.Machine.Bringup` -/

theorem Block.vaultCheck_after {a b : Block} (ss : List Nat) (h : After a b) : After a (b.vaultCheck ss) := by
  unfold Block.vaultCheck
  extract_lets l0
  have k0 : After a l0 := by
    subst l0
    with_reducible repeat' first | assumption | apply Block.wr_after
  with_reducible repeat' first | assumption | apply After.ite | apply Block.wr_after | apply Block.alarms_after

theorem Block.logLost_after {a b : Block}  (h : After a b) : After a (b.logLost) := by
  unfold Block.logLost
  with_reducible repeat' first | (intro) | assumption | apply Block.each_after | apply Block.onLc_after | apply Block.lcEvent_after

theorem Block.doInputPowerPresent_after {a b : Block} (mesh : Bool) (lid : Bool) (h : After a b) : After a (b.doInputPowerPresent mesh lid) := by
  unfold Block.doInputPowerPresent
  extract_lets l0 l1 l2 l3
  have k0 : After a l0 := by
    subst l0
    with_reducible repeat' first | assumption | apply Block.onPw_after
  have k1 : After a l1 := by
    subst l1
    with_reducible repeat' first | assumption | apply Block.wr_after
  have k2 : After a l2 := by
    subst l2
    with_reducible repeat' first | assumption | apply Block.rstEvent_after | apply Block.logLost_after | apply Block.logOwed_after
  have k3 : After a l3 := by
    subst l3
    with_reducible repeat' first | assumption | apply Block.vaultCheck_after
  with_reducible repeat' first | assumption | apply After.ite | apply Block.attestStart_after

theorem Block.doPowerRemoval_after {a b : Block}  (h : After a b) : After a (b.doPowerRemoval) := by
  unfold Block.doPowerRemoval
  extract_lets l0 l1 l2
  clear_value l0
  have k1 : After a l1 := by
    subst l1
    with_reducible repeat' first | assumption | apply Block.lcEvent_after | apply Block.wr_after
  have k2 : After a l2 := by
    subst l2
    with_reducible repeat' first | (intro) | assumption | apply Block.stepping_after | apply Block.setTrip_after | apply Block.setGood_after | apply Block.loseMemory_after | apply Block.clearModule_after | apply Block.fromStore_after | apply Block.clearRegs_after
  with_reducible repeat' first | assumption | apply After.ite | apply After.mk

theorem Block.onMrst_after {a b : Block} (f : ModRst → ModRst) (h : After a b) : After a (b.onMrst f) := by
  unfold Block.onMrst
  with_reducible repeat' first | assumption | apply After.mk

theorem Block.stepDone_after {a b : Block} (k : Nat) (h : After a b) : After a (b.stepDone k) := by
  unfold Block.stepDone
  extract_lets l0
  have k0 : After a l0 := by
    subst l0
    with_reducible repeat' first | assumption | apply Block.onMrst_after
  with_reducible repeat' first | assumption | apply Block.wr_after

theorem Block.zeroMem_after {a b : Block} (dom : Nat) (h : After a b) : After a (b.zeroMem dom) := by
  exact h.mem (fun k => Mem.wf_undef k _ _)

theorem Block.doPllsLocked_after {a b : Block}  (h : After a b) : After a (b.doPllsLocked) := by
  unfold Block.doPllsLocked
  with_reducible repeat' first | assumption | apply After.ite | apply Block.wr_after | apply Block.onMrst_after

theorem Block.restoreL_after {a b : Block}  (h : After a b) : After a (b.restoreL) := by
  unfold Block.restoreL
  extract_lets l0
  have k0 : After a l0 := by
    subst l0
    with_reducible repeat' first | (intro) | assumption | apply Block.whenB_after | apply Block.commitSw_after
  with_reducible repeat' first | assumption | apply Block.wr_after | apply Block.loadPreset_after

theorem Block.stackUp_after {a b : Block} (m : Nat) (h : After a b) : After a (b.stackUp m) := by
  unfold Block.stackUp
  extract_lets l0
  have k0 : After a l0 := by
    subst l0
    with_reducible repeat' first | assumption | apply Block.wr_after
  with_reducible repeat' first | assumption | apply Block.wr_after

theorem Block.peatUp_after {a b : Block}  (h : After a b) : After a (b.peatUp) := by
  unfold Block.peatUp
  with_reducible repeat' first | (intro) | assumption | apply Block.each_after | apply Block.wr_after

theorem Block.doRestoreEnd_after {a b : Block}  (h : After a b) : After a (b.doRestoreEnd) := by
  unfold Block.doRestoreEnd
  extract_lets l0 l1
  have k0 : After a l0 := by
    subst l0
    with_reducible repeat' first | (intro) | assumption | apply Block.whenB_after | apply Block.restoreL_after | apply Block.wr_after
  have k1 : After a l1 := by
    subst l1
    with_reducible repeat' first | (intro) | assumption | apply Block.whenB_after | apply Block.restoreL_after | apply Block.each_after | apply Block.stackUp_after | apply Block.moduleFatal_after
  with_reducible repeat' first | assumption | apply After.ite | apply Block.wr_after | apply Block.peatUp_after

theorem Block.doMemoryBringupEnd_after {a b : Block} (m : Fin 12) (noSpare : BitVec 16) (rows : BitVec 16) (fail : BitVec 32) (h : After a b) : After a (b.doMemoryBringupEnd m noSpare rows fail) := by
  unfold Block.doMemoryBringupEnd
  extract_lets l0 l1 l2 l3 l4 l5 l6 l7 l8
  clear_value l0 l3 l4 l7
  have k1 : After a l1 := by
    subst l1
    with_reducible repeat' first | (intro) | assumption | apply Block.each_after | apply Block.wr_after
  have k2 : After a l2 := by
    subst l2
    with_reducible repeat' first | (intro) | assumption | apply Block.wr_after | apply Block.whenB_after | apply Block.inc_after
  have k5 : After a l5 := by
    subst l5
    with_reducible repeat' first | assumption | apply Block.wr_after | apply Block.inc_after
  have k6 : After a l6 := by
    subst l6
    with_reducible repeat' first | assumption | apply Block.wr_after | apply Block.stackUp_after | apply Block.commitAll_after
  have k8 : After a l8 := by
    subst l8
    with_reducible repeat' first | assumption | apply After.ite | apply After.mk
  with_reducible repeat' first | assumption | apply After.ite | apply Block.stepDone_after | apply Block.zeroMem_after

theorem Block.doPeatBringupEnd_after {a b : Block} (fail : BitVec 16) (h : After a b) : After a (b.doPeatBringupEnd fail) := by
  unfold Block.doPeatBringupEnd
  extract_lets l0 l1
  have k0 : After a l0 := by
    subst l0
    with_reducible repeat' first | (intro) | assumption | apply Block.each_after | apply Block.inc_after | apply Block.wr_after
  have k1 : After a l1 := by
    subst l1
    with_reducible repeat' first | (intro) | assumption | apply Block.each_after | apply Block.wr_after | apply Block.commitAll_after
  with_reducible repeat' first | assumption | apply After.ite | apply Block.stepDone_after | apply Block.zeroMem_after | apply Block.peatUp_after

theorem Block.siteFound_after {a b : Block} (p : Nat) (x : SiteFault) (h : After a b) : After a (b.siteFound p x).2 := by
  unfold Block.siteFound
  with_reducible repeat' first | (intro) | assumption | apply After.ite2 | apply Block.whenB_after | apply Block.wr_after | apply Block.inc_after | split

theorem Block.moveTile_after {a b : Block} (l : Nat) (h : After a b) : After a (b.moveTile l) := by
  unfold Block.moveTile
  with_reducible repeat' first | assumption | apply Block.wr_after | split

theorem Block.doTileBringupEnd_after {a b : Block} (found : List (SiteIx × SiteFault)) (h : After a b) : After a (b.doTileBringupEnd found) := by
  unfold Block.doTileBringupEnd
  with_reducible repeat' first | (intro) | assumption | apply After.ite | apply Block.siteFound_after | apply Block.commitAll_after | apply Block.each_after | apply Block.moveTile_after | apply Block.stepDone_after | apply Block.zeroMem_after | apply Block.clearSite_after | apply After.foldl2

theorem Block.doCacheBringupEnd_after {a b : Block}  (h : After a b) : After a (b.doCacheBringupEnd) := by
  unfold Block.doCacheBringupEnd
  with_reducible repeat' first | assumption | apply After.ite | apply Block.stepDone_after | apply After.mk

theorem Block.payOwed_after {a b : Block}  (h : After a b) : After a (b.payOwed) := by
  unfold Block.payOwed
  with_reducible repeat' first | (intro) | assumption | apply Block.each_after | apply Block.onPw_after | apply Block.lcEvent_after | apply Block.report_after

theorem Block.start_after {a b : Block} (attest : Bool) (fails : Nat) (h : After a b) : After a (b.start attest fails) := by
  unfold Block.start
  extract_lets l0 l1
  have k0 : After a l0 := by
    subst l0
    with_reducible repeat' first | assumption | apply Block.fwStart_after | apply Block.payOwed_after | apply Block.onMrst_after
  have k1 : After a l1 := by
    subst l1
    with_reducible repeat' first | assumption | apply Block.irqAll_after
  with_reducible repeat' first | assumption | apply After.ite | apply Block.attestStart_after

theorem Block.doBringupRelease_after {a b : Block} (ms : BitVec 16) (fails : BitVec 4) (h : After a b) : After a (b.doBringupRelease ms fails) := by
  unfold Block.doBringupRelease
  extract_lets l0
  have k0 : After a l0 := by
    subst l0
    with_reducible repeat' first | assumption | apply Block.wr_after
  with_reducible repeat' first | assumption | apply After.ite | apply Block.start_after

theorem Block.doModuleResetRelease_after {a b : Block} (fails : BitVec 4) (h : After a b) : After a (b.doModuleResetRelease fails) := by
  unfold Block.doModuleResetRelease
  with_reducible repeat' first | assumption | apply After.ite | apply Block.start_after

theorem Block.doSnTrigGo_after {a b : Block}  (h : After a b) : After a (b.doSnTrigGo) := by
  unfold Block.doSnTrigGo
  with_reducible repeat' first | assumption | apply Block.snapTrigger_after

theorem Block.doSnapIn_after {a b : Block} (masked : Bool) (h : After a b) : After a (b.doSnapIn masked) := by
  unfold Block.doSnapIn
  with_reducible repeat' first | assumption | apply After.ite | apply Block.snapTrigger_after

theorem Block.doSnapshotCopyEnd_after {a b : Block}  (h : After a b) : After a (b.doSnapshotCopyEnd) := by
  unfold Block.doSnapshotCopyEnd
  with_reducible repeat' first | assumption | apply After.ite | apply Block.wr_after

theorem Block.doSnapshotArm_after {a b : Block}  (h : After a b) : After a (b.doSnapshotArm) := by
  unfold Block.doSnapshotArm
  with_reducible repeat' first | assumption | apply After.ite | apply Block.wr_after

theorem Block.doTapEnable_after {a b : Block} (sid : BitVec 16) (h : After a b) : After a (b.doTapEnable sid) := by
  unfold Block.doTapEnable
  with_reducible repeat' first | (intro) | assumption | apply After.ite | apply Block.mgmt_after | apply Block.reply_after | apply Block.moduleReset_after | apply Block.wr_after

theorem Block.doTapDisable_after {a b : Block}  (h : After a b) : After a (b.doTapDisable) := by
  unfold Block.doTapDisable
  extract_lets l0
  have k0 : After a l0 := by
    subst l0
    with_reducible repeat' first | assumption | apply Block.onMrst_after | apply Block.wr_after
  with_reducible repeat' first | assumption | apply After.ite | apply Block.wr_after

theorem Block.tapIr_after {a b : Block} (ir : Nat) (h : After a b) : After a (b.tapIr ir) := by
  unfold Block.tapIr
  with_reducible repeat' first | assumption | split | dsimp only | apply After.mk

theorem Block.tapOn_after {a b : Block} (f : Block → Block) (h : After a b) (hf : ∀ c0, After a c0 → After a (f c0)) : After a (b.tapOn f) := by
  unfold Block.tapOn
  with_reducible repeat' first | assumption | apply After.ite | apply hf

theorem Block.doBypass_after {a b : Block}  (h : After a b) : After a (b.doBypass) := by
  unfold Block.doBypass
  with_reducible repeat' first | (intro) | assumption | apply Block.tapOn_after | apply Block.tapIr_after

theorem Block.doIdcode_after {a b : Block}  (h : After a b) : After a (b.doIdcode) := by
  unfold Block.doIdcode
  with_reducible repeat' first | (intro) | assumption | apply Block.tapOn_after | apply Block.reply_after | apply Block.tapIr_after

theorem Block.doSamplePreload_after {a b : Block} (pins : BitVec 17) (load : BitVec 17) (h : After a b) : After a (b.doSamplePreload pins load) := by
  unfold Block.doSamplePreload
  with_reducible repeat' first | (intro) | assumption | apply Block.tapOn_after | apply Block.tapIr_after | apply Block.reply_after | dsimp only | apply After.mk

theorem Block.doExtest_after {a b : Block}  (h : After a b) : After a (b.doExtest) := by
  unfold Block.doExtest
  with_reducible repeat' first | (intro) | assumption | apply After.ite | apply Block.tapOn_after | apply Block.tapIr_after | apply Block.each_after | apply Block.emit_after

theorem Block.doInstrNet_after {a b : Block}  (h : After a b) : After a (b.doInstrNet) := by
  unfold Block.doInstrNet
  with_reducible repeat' first | (intro) | assumption | apply Block.tapOn_after | apply Block.tapIr_after

/-! `Sys2Proof.Machine.Tick` -/

theorem Block.onTick_after {a b : Block} (f : TickSt → TickSt) (h : After a b) : After a (b.onTick f) := by
  unfold Block.onTick
  with_reducible repeat' first | assumption | apply After.mk

theorem Block.lose_after {a b : Block}  (h : After a b) : After a (b.lose) := by
  unfold Block.lose
  extract_lets l0
  have k0 : After a l0 := by
    subst l0
    with_reducible repeat' first | assumption | apply Block.wr_after
  with_reducible repeat' first | assumption | apply After.ite | apply Block.toState_after | apply Block.onTick_after

theorem Block.doReferenceLost_after {a b : Block}  (h : After a b) : After a (b.doReferenceLost) := by
  unfold Block.doReferenceLost
  with_reducible repeat' first | assumption | apply Block.lose_after | apply Block.onTick_after

theorem Block.regain_after {a b : Block} (d : Nat) (h : After a b) : After a (b.regain d) := by
  unfold Block.regain
  extract_lets l0
  have k0 : After a l0 := by
    subst l0
    with_reducible repeat' first | assumption | apply Block.wr_after
  with_reducible repeat' first | assumption | apply After.ite | apply Block.toState_after

theorem Block.servo_after {a b : Block} (was : Bool) (h : After a b) : After a (b.servo was) := by
  unfold Block.servo
  with_reducible repeat' first | assumption | apply After.ite | apply Block.lose_after | apply Block.toState_after | apply Block.wr_after

theorem Block.doReferenceRegained_after {a b : Block} (d : W64) (h : After a b) : After a (b.doReferenceRegained d) := by
  unfold Block.doReferenceRegained
  extract_lets l0
  have k0 : After a l0 := by
    subst l0
    with_reducible repeat' first | assumption | apply Block.onTick_after
  with_reducible repeat' first | assumption | apply After.ite | apply Block.regain_after

theorem Block.doClockLocked_after {a b : Block} (d : W64) (h : After a b) : After a (b.doClockLocked d) := by
  unfold Block.doClockLocked
  with_reducible repeat' first | assumption | apply After.ite | apply Block.toState_after

theorem Block.doHoldoverExpire_after {a b : Block}  (h : After a b) : After a (b.doHoldoverExpire) := by
  unfold Block.doHoldoverExpire
  with_reducible repeat' first | assumption | apply After.ite | apply Block.toState_after

theorem Block.align_after {a b : Block} (ns : Nat) (h : After a b) : After a (b.align ns) := by
  unfold Block.align
  extract_lets l0 l1
  clear_value l0
  have k1 : After a l1 := by
    subst l1
    with_reducible repeat' first | assumption | apply Block.wr_after
  with_reducible repeat' first | assumption | apply After.ite | apply Block.doHoldoverExpire_after | apply Block.onTick_after | apply Block.toState_after | apply Block.regain_after

theorem Block.periodApply_after {a b : Block}  (h : After a b) : After a (b.periodApply) := by
  unfold Block.periodApply
  extract_lets l0 l1 l2
  clear_value l0 l1
  have k2 : After a l2 := by
    subst l2
    with_reducible repeat' first | assumption | apply Block.wr_after
  with_reducible repeat' first | assumption | apply After.ite | apply Block.wr_after | apply Block.loadEpoch_after

theorem Block.overrun_after {a b : Block} (n : Nat) (h : After a b) : After a (b.overrun n) := by
  unfold Block.overrun
  with_reducible repeat' first | assumption | apply After.ite | apply Block.onFacts_after | apply Block.inc_after

theorem Block.reissue_after {a b : Block} (l : Nat) (r : StepRun) (h : After a b) : After a (b.reissue l r) := by
  unfold Block.reissue
  with_reducible repeat' first | assumption | apply Block.again_after | split

theorem Block.runAtBoundary_after {a b : Block} (p : Nat) (bar : Bar) (h : After a b) : After a (b.runAtBoundary p bar) := by
  unfold Block.runAtBoundary
  with_reducible repeat' first | assumption | apply After.ite | apply Block.overrun_after | apply Block.abortStep_after | apply Block.inc_after | apply Block.onSite_after | apply Block.stopStep_after | apply Block.replayCut_after | apply Block.countAbort_after | apply Block.reissue_after | apply Block.dropRun_after | split

theorem Block.todoAtBoundary_after {a b : Block} (p : Nat) (bar : Bar) (h : After a b) : After a (b.todoAtBoundary p bar) := by
  unfold Block.todoAtBoundary
  with_reducible repeat' first | (intro) | assumption | apply After.ite2 | apply Block.endTodo_after | apply Block.overrun_after | apply Block.abortTodo_after | apply Block.inc_after | apply Block.reissue_after | apply Block.countAbort_after | apply Block.onSite_after | apply After.foldl2 | split

theorem Block.overruns_after {a b : Block}  (h : After a b) : After a (b.overruns) := by
  unfold Block.overruns
  extract_lets l0 l1
  clear_value l0
  have k1 : After a l1 := by
    subst l1
    with_reducible repeat' first | (intro) | assumption | apply Block.each_after | apply Block.todoAtBoundary_after | apply Block.runAtBoundary_after | apply Block.onSite_after | apply Block.overrun_after
  with_reducible repeat' first | (intro) | assumption | apply Block.whenB_after | apply Block.inc_after

theorem Block.copyMem_after {a b : Block} (p : Nat) (q : Nat) (h : After a b) : After a (b.copyMem p q) := by
  exact h.mem (fun k => Mem.wf_copyStore k _ _)

theorem Block.copySite_after {a b : Block} (p : Nat) (q : Nat) (h : After a b) : After a (b.copySite p q) := by
  unfold Block.copySite
  extract_lets l0 l1 l2 l3 l4 l5 l6 l7
  clear_value l0 l3
  have k1 : After a l1 := by
    subst l1
    with_reducible repeat' first | assumption | apply Block.inc_after
  have k2 : After a l2 := by
    subst l2
    with_reducible repeat' first | assumption | apply Block.clearSite_after
  have k4 : After a l4 := by
    subst l4
    with_reducible repeat' first | assumption | apply Block.onSite_after
  have k5 : After a l5 := by
    subst l5
    with_reducible repeat' first | (intro) | assumption | apply Block.each_after | apply Block.wr_after
  have k6 : After a l6 := by
    subst l6
    with_reducible repeat' first | (intro) | assumption | apply Block.wr_after | apply Block.whenB_after
  have k7 : After a l7 := by
    subst l7
    with_reducible repeat' first | assumption | apply Block.copyMem_after
  with_reducible repeat' first | assumption | apply Block.onBk_after

theorem Block.gateSite_after {a b : Block} (r : Retire) (h : After a b) : After a (b.gateSite r) := by
  unfold Block.gateSite
  extract_lets l0 l1
  clear_value l0
  have k1 : After a l1 := by
    subst l1
    with_reducible repeat' first | assumption | apply Block.onSite_after | apply Block.wr_after
  with_reducible repeat' first | assumption | apply After.mk

theorem Block.oldSite_after {a b : Block} (r : Retire) (h : After a b) : After a (b.oldSite r) := by
  unfold Block.oldSite
  with_reducible repeat' first | assumption | apply Block.gateSite_after | apply Block.wr_after

theorem Block.retireEnd_after {a b : Block} (r : Retire) (h : After a b) : After a (b.retireEnd r) := by
  unfold Block.retireEnd
  with_reducible repeat' first | assumption | apply Block.wr_after | apply After.mk

theorem Block.retireRec_after {a b : Block} (r : Retire) (cause : Nat) (h : After a b) : After a (b.retireRec r cause) := by
  unfold Block.retireRec
  extract_lets l0
  have k0 : After a l0 := by
    subst l0
    with_reducible repeat' first | assumption | apply Block.report_after
  with_reducible repeat' first | (intro) | assumption | apply Block.whenB_after | apply Block.maintUnplanned_after

theorem Block.retireApply_after {a b : Block} (r : Retire) (h : After a b) : After a (b.retireApply r) := by
  unfold Block.retireApply
  extract_lets l0 l1 l2
  clear_value l0
  have k1 : After a l1 := by
    subst l1
    with_reducible repeat' first | (intro) | assumption | apply Block.each_after | apply Block.missingStep_after
  have k2 : After a l2 := by
    subst l2
    with_reducible repeat' first | assumption | apply Block.wr_after | apply Block.gateSite_after | apply Block.clearPages_after
  with_reducible repeat' first | assumption | apply Block.oldSite_after | apply Block.copySite_after | apply Block.wr_after | apply Block.retireRec_after | apply Block.retireEnd_after | split | apply After.mk

theorem Block.doTlRetireGo_after {a b : Block} (ltile : BitVec 9) (site : BitVec 5) (cause : BitVec 4) (h : After a b) : After a (b.doTlRetireGo ltile site cause) := by
  unfold Block.doTlRetireGo
  extract_lets l0
  have k0 : After a l0 := by
    subst l0
    with_reducible repeat' first | assumption | apply Block.wr_after
  with_reducible repeat' first | assumption | apply Block.retireReq_after

theorem Block.doRetirementCopyEnd_after {a b : Block} (region : Fin 32) (h : After a b) : After a (b.doRetirementCopyEnd region) := by
  unfold Block.doRetirementCopyEnd
  with_reducible repeat' first | assumption | apply After.ite | apply Block.deliver_after | apply Block.onSite_after | apply Block.retireEnd_after | apply Block.nextStep_after | apply Block.rstDue_after | split

theorem Block.flip_after {a b : Block} (l : Nat) (h : After a b) : After a (b.flip l).2 := by
  unfold Block.flip
  extract_lets l0 l1 l2 l3 l4 l5 l6 l7 l8 l9 l10
  clear_value l0 l1 l3 l4 l5 l8 l9 l10
  have k2 : After a l2 := by
    subst l2
    with_reducible repeat' first | assumption | apply Block.wr_after
  have k6 : After a l6 := by
    subst l6
    with_reducible repeat' first | assumption | apply Block.onSite_after
  have k7 : After a l7 := by
    subst l7
    with_reducible repeat' first | (intro) | assumption | apply Block.each_after | apply Block.missingStep_after
  with_reducible repeat' first | (intro) | assumption | apply After.ite2 | apply Block.each_after | apply Block.missingStep_after | apply Block.onBk_after

theorem Block.flips_after {a b : Block}  (h : After a b) : After a (b.flips) := by
  unfold Block.flips
  with_reducible repeat' first | (intro) | assumption | apply After.ite | apply Block.flip_after | apply Block.onFacts_after | apply Block.wr_after | apply Block.report_after | apply Block.onBk_after | apply Block.each_after | apply Block.nextStep_after | apply After.foldl2 | split

theorem Block.doTransientWindowClear_after {a b : Block}  (h : After a b) : After a (b.doTransientWindowClear) := by
  unfold Block.doTransientWindowClear
  with_reducible repeat' first | assumption | apply After.ite | apply Block.clearRegs_after

theorem Block.tickSnaps_after {a b : Block}  (h : After a b) : After a (b.tickSnaps) := by
  unfold Block.tickSnaps
  extract_lets l0 l1
  clear_value l0
  have k1 : After a l1 := by
    subst l1
    with_reducible repeat' first | assumption | apply After.ite | apply Block.wr_after | apply Block.snapTrigger_after
  with_reducible repeat' first | assumption | apply After.ite | apply Block.wr_after | apply Block.snapTrigger_after

theorem Block.boundary_after {a b : Block} (prev : Nat) (ended : Option Nat) (h : After a b) : After a (b.boundary prev ended) := by
  unfold Block.boundary
  extract_lets l0 l1 l2 l3 l4 l5 l6 l7 l8
  clear_value l2
  have k0 : After a l0 := by
    subst l0
    with_reducible repeat' first | assumption | apply Block.rstDue_after | apply Block.overruns_after | apply Block.tickSnaps_after
  have k1 : After a l1 := by
    subst l1
    with_reducible repeat' first | assumption | apply Block.classify_after | split
  have k3 : After a l3 := by
    subst l3
    with_reducible repeat' first | assumption | apply Block.onTick_after
  have k4 : After a l4 := by
    subst l4
    with_reducible repeat' first | assumption | apply Block.doTransientWindowClear_after
  have k5 : After a l5 := by
    subst l5
    with_reducible repeat' first | (intro) | assumption | apply Block.each_after | apply Block.retireApply_after
  have k6 : After a l6 := by
    subst l6
    with_reducible repeat' first | assumption | apply Block.flips_after
  have k7 : After a l7 := by
    subst l7
    with_reducible repeat' first | assumption | apply Block.onBk_after
  have k8 : After a l8 := by
    subst l8
    with_reducible repeat' first | assumption | apply Block.digestPass_after | apply Block.switchDiscard_after | apply Block.omapApply_after | apply Block.heartbeats_after
  with_reducible repeat' first | assumption | apply Block.fwBoundary_after | apply Block.applyBase_after | apply Block.softReset_after

theorem Block.stopTick_after {a b : Block}  (h : After a b) : After a (b.stopTick) := by
  unfold Block.stopTick
  extract_lets l0
  have k0 : After a l0 := by
    subst l0
    with_reducible repeat' first | assumption | apply Block.onTick_after | apply Block.toState_after
  with_reducible repeat' first | assumption | apply Block.softReset_after | apply Block.rstDue_after

theorem Block.begin_after {a b : Block} (n : Nat) (ns : Nat) (h : After a b) : After a (b.begin n ns) := by
  unfold Block.begin
  with_reducible repeat' first | assumption | apply Block.onTick_after | apply Block.wr_after | apply Block.periodApply_after | apply Block.digestLatch_after

theorem Block.doTickBoundary_after {a b : Block} (ns : W64) (h : After a b) : After a (b.doTickBoundary ns) := by
  unfold Block.doTickBoundary
  extract_lets l0 l1 l2 l3 l4
  clear_value l0 l1 l2
  have k3 : After a l3 := by
    subst l3
    with_reducible repeat' first | assumption | apply Block.align_after | apply Block.begin_after
  have k4 : After a l4 := by
    subst l4
    with_reducible repeat' first | assumption | apply Block.boundary_after
  with_reducible repeat' first | assumption | apply After.ite | apply Block.stopTick_after

theorem Block.doResyncBoundary_after {a b : Block} (m : W64) (ns : W64) (h : After a b) : After a (b.doResyncBoundary m ns) := by
  unfold Block.doResyncBoundary
  extract_lets l0 l1 l2 l3 l4 l5 l6
  clear_value l0 l5
  have k1 : After a l1 := by
    subst l1
    with_reducible repeat' first | assumption | apply Block.begin_after
  have k2 : After a l2 := by
    subst l2
    with_reducible repeat' first | (intro) | assumption | apply Block.whenB_after | apply Block.wr_after
  have k3 : After a l3 := by
    subst l3
    with_reducible repeat' first | assumption | apply Block.report_after
  have k4 : After a l4 := by
    subst l4
    with_reducible repeat' first | assumption | apply Block.wr_after
  have k6 : After a l6 := by
    subst l6
    with_reducible repeat' first | assumption | apply Block.wr_after | apply Block.boundary_after
  with_reducible repeat' first | assumption | apply After.ite | apply Block.stopTick_after

theorem Block.doTickEnable_after {a b : Block}  (h : After a b) : After a (b.doTickEnable) := by
  unfold Block.doTickEnable
  extract_lets l0 l1 l2
  have k0 : After a l0 := by
    subst l0
    with_reducible repeat' first | assumption | apply Block.onTick_after | apply Block.wr_after
  have k1 : After a l1 := by
    subst l1
    with_reducible repeat' first | assumption | apply Block.onTick_after | apply Block.loadEpoch_after
  have k2 : After a l2 := by
    subst l2
    with_reducible repeat' first | assumption | apply Block.wr_after
  with_reducible repeat' first | assumption | apply After.ite | apply Block.toState_after

theorem Block.doTickDisable_after {a b : Block}  (h : After a b) : After a (b.doTickDisable) := by
  unfold Block.doTickDisable
  extract_lets l0
  have k0 : After a l0 := by
    subst l0
    with_reducible repeat' first | assumption | apply Block.wr_after
  with_reducible repeat' first | assumption | apply After.ite | apply Block.stopTick_after | apply Block.onTick_after

theorem Block.doEpochLoad_after {a b : Block}  (h : After a b) : After a (b.doEpochLoad) := by
  unfold Block.doEpochLoad
  with_reducible repeat' first | assumption | apply Block.epochLoad_after

theorem Block.doTkPeriodAtWrite_after {a b : Block} (v : W64) (h : After a b) : After a (b.doTkPeriodAtWrite v) := by
  unfold Block.doTkPeriodAtWrite
  with_reducible repeat' first | assumption | apply Block.writePeriodAt_after

theorem Block.doAbortDrainEnd_after {a b : Block} (l : LTile) (h : After a b) : After a (b.doAbortDrainEnd l) := by
  unfold Block.doAbortDrainEnd
  with_reducible repeat' first | assumption | apply After.ite | apply Block.nextStep_after | apply Block.drainOver_after

/-! `Sys2Proof.Machine.Registers` -/

theorem Block.rejectReg_after {a b : Block} (r : RegAt) (h : After a b) : After a (b.rejectReg r) := by
  unfold Block.rejectReg
  with_reducible repeat' first | assumption | apply Block.cfgErr_after | split

theorem Block.holdField_after {a b : Block} (f : Field) (i : Nat) (j : Nat) (h : After a b) : After a (b.holdField f i j) := by
  unfold Block.holdField
  with_reducible repeat' first | assumption | apply After.ite | apply Block.onLc_after

theorem Block.writeOne_after {a b : Block} (r : RegAt) (f : Field) (j : Nat) (v : Nat) (h : After a b) : After a (b.writeOne r f j v) := by
  unfold Block.writeOne
  extract_lets l0 l1
  clear_value l0
  have k1 : After a l1 := by
    subst l1
    with_reducible repeat' first | assumption | apply Block.writeField_after
  with_reducible repeat' first | assumption | apply After.ite | apply Block.holdField_after

theorem Block.writePlain_after {a b : Block} (r : RegAt) (v : Nat) (h : After a b) : After a (b.writePlain r v) := by
  unfold Block.writePlain
  with_reducible repeat' first | (intro) | assumption | apply Block.each_after | apply Block.writeOne_after

theorem Block.writeTkCtrl_after {a b : Block} (r : RegAt) (v : Nat) (h : After a b) : After a (b.writeTkCtrl r v) := by
  unfold Block.writeTkCtrl
  extract_lets l0 l1 l2 l3
  clear_value l0 l1
  have k2 : After a l2 := by
    subst l2
    with_reducible repeat' first | assumption | apply Block.wr_after | apply Block.writePlain_after
  have k3 : After a l3 := by
    subst l3
    with_reducible repeat' first | assumption | apply After.ite | apply Block.doTickEnable_after | apply Block.doTickDisable_after
  with_reducible repeat' first | assumption | apply After.ite | apply Block.doEpochLoad_after

theorem Block.doPresetRegisterWrite_after {a b : Block} (m : Fin 12) (preset : BitVec 4) (expert : Bool) (share : BitVec 7) (depth : BitVec 8) (h : After a b) : After a (b.doPresetRegisterWrite m preset expert share depth) := by
  unfold Block.doPresetRegisterWrite
  extract_lets l0 l1 l2 l3
  clear_value l0 l1 l2
  have k3 : After a l3 := by
    subst l3
    with_reducible repeat' first | assumption | apply Block.showMs_after | apply Block.holdField_after | apply Block.loadPresetOf_after | apply Block.wr_after
  with_reducible repeat' first | assumption | apply After.ite | apply Block.cfgErr_after | apply Block.showMs_after | apply Block.loadPresetOf_after | apply Block.wr_after | apply Block.lcEvent_after

theorem Block.writeMs_after {a b : Block} (r : RegAt) (v : Nat) (h : After a b) : After a (b.writeMs r v) := by
  unfold Block.writeMs
  extract_lets l0
  have k0 : After a l0 := by
    subst l0
    with_reducible repeat' first | assumption | apply Block.writePlain_after
  with_reducible repeat' first | assumption | apply After.ite | apply Block.doPresetRegisterWrite_after | apply Block.doMsTdirInval_after | split

theorem Block.writeMem_after {a b : Block} (r : RegAt) (v : Nat) (h : After a b) : After a (b.writeMem r v) := by
  unfold Block.writeMem
  with_reducible repeat' first | assumption | apply After.ite | apply Block.doMemMapoutGo_after | apply Block.doMemPprGo_after | apply Block.writePlain_after | split

theorem Block.writeRc_after {a b : Block} (r : RegAt) (v : Nat) (h : After a b) : After a (b.writeRc r v) := by
  unfold Block.writeRc
  with_reducible repeat' first | assumption | apply After.ite | apply Block.doLockMaskWrite_after | apply Block.doRcPreloadGo_after | apply Block.writePlain_after | split

theorem Block.writeXl_after {a b : Block} (r : RegAt) (v : Nat) (h : After a b) : After a (b.writeXl r v) := by
  unfold Block.writeXl
  extract_lets l0
  have k0 : After a l0 := by
    subst l0
    with_reducible repeat' first | assumption | apply Block.writePlain_after
  with_reducible repeat' first | assumption | apply After.ite | apply Block.doXlInvalGo_after | apply Block.doXlWinvalGo_after | apply Block.doXlTagSetGo_after

theorem Block.queueOp_after {a b : Block} (q : BitVec 10) (op : Nat) (skip : BitVec 32) (h : After a b) : After a (b.queueOp q op skip) := by
  unfold Block.queueOp
  with_reducible repeat' first | assumption | apply After.ite | apply Block.doQueueEnable_after | apply Block.doQueueDisable_after | apply Block.doQueuePark_after | apply Block.doQueueResume_after | apply Block.cfgErr_after

theorem Block.writeBk_after {a b : Block} (r : RegAt) (v : Nat) (h : After a b) : After a (b.writeBk r v) := by
  unfold Block.writeBk
  extract_lets l0 l1 l2 l3
  clear_value l0 l1
  have k2 : After a l2 := by
    subst l2
    with_reducible repeat' first | assumption | apply Block.wr_after | apply Block.writePlain_after
  have k3 : After a l3 := by
    subst l3
    with_reducible repeat' first | assumption | apply Block.writePlain_after
  with_reducible repeat' first | assumption | apply After.ite | apply Block.doBrackenEnable_after | apply Block.doBrackenDisable_after | apply Block.queueOp_after | apply Block.doWorkDoorbell_after | split

theorem Block.writeDmp_after {a b : Block} (r : RegAt) (v : Nat) (h : After a b) : After a (b.writeDmp r v) := by
  unfold Block.writeDmp
  extract_lets l0 l1 l2 l3
  clear_value l1 l2 l3
  have k0 : After a l0 := by
    subst l0
    with_reducible repeat' first | assumption | apply Block.writePlain_after
  with_reducible repeat' first | (intro) | assumption | apply After.ite | apply Block.whenB_after | apply Block.portOff_after | apply Block.onPorts_after | apply Block.doMsecInstall_after | apply Block.doMsecDelete_after | apply Block.doMsecActivate_after | apply Block.each_after | apply Block.wr_after | split

theorem Block.freeTimes_after {a b : Block} (y1 : Nat) (h : After a b) : After a (b.freeTimes y1).2 := by
  induction y1 generalizing b with
  | zero =>
    simp only [Block.freeTimes]
    with_reducible repeat' assumption
  | succ n ih =>
    simp only [Block.freeTimes]
    with_reducible repeat' first | assumption | apply Block.draw_after | apply ih

theorem Block.writeDm_after {a b : Block} (r : RegAt) (v : Nat) (h : After a b) : After a (b.writeDm r v) := by
  unfold Block.writeDm
  extract_lets l0 l1 l2
  clear_value l0 l1
  have k2 : After a l2 := by
    subst l2
    with_reducible repeat' first | assumption | apply Block.writePlain_after
  with_reducible repeat' first | assumption | apply After.ite | apply Block.doPtpTimeStep_after | apply Block.doQpEnable_after | apply Block.doQpDisable_after | apply Block.servo_after | apply Block.freeTimes_after | apply Block.doPtpTransmit_after

theorem Block.writeRole_after {a b : Block} (r : RegAt) (v : Nat) (h : After a b) : After a (b.writeRole r v) := by
  unfold Block.writeRole
  with_reducible repeat' first | assumption | apply After.ite | apply Block.writePlain_after | apply Block.doDeputyWrite_after | apply Block.rejectReg_after

theorem Block.writeGrp_after {a b : Block} (r : RegAt) (v : Nat) (h : After a b) : After a (b.writeGrp r v) := by
  unfold Block.writeGrp
  extract_lets l0
  have k0 : After a l0 := by
    subst l0
    with_reducible repeat' first | assumption | apply After.ite | apply Block.writePlain_after | apply Block.doMaintGo_after
  with_reducible repeat' first | assumption | apply After.ite | apply Block.writeRole_after | apply Block.wr_after | apply Block.writePlain_after | apply Block.doSvcCmdGo_after | apply Block.doOmapSend_after | apply Block.doMaintDoneCmd_after

theorem Block.writeFlt_after {a b : Block} (r : RegAt) (v : Nat) (h : After a b) : After a (b.writeFlt r v) := by
  unfold Block.writeFlt
  extract_lets l0
  have k0 : After a l0 := by
    subst l0
    with_reducible repeat' first | assumption | apply Block.writePlain_after
  with_reducible repeat' first | assumption | apply After.ite | apply Block.doOverflowClear_after | apply Block.doContextClear_after | apply Block.doSwrecGo_after

theorem Block.writeCap_after {a b : Block} (r : RegAt) (v : Nat) (h : After a b) : After a (b.writeCap r v) := by
  unfold Block.writeCap
  extract_lets l0 l1 l2
  clear_value l0
  have k1 : After a l1 := by
    subst l1
    with_reducible repeat' first | assumption | apply Block.writePlain_after
  have k2 : After a l2 := by
    subst l2
    with_reducible repeat' first | assumption | apply After.ite | apply Block.wr_after
  with_reducible repeat' first | assumption | apply After.ite | apply Block.onPw_after

theorem Block.writePw_after {a b : Block} (r : RegAt) (v : Nat) (h : After a b) : After a (b.writePw r v) := by
  unfold Block.writePw
  with_reducible repeat' first | assumption | apply After.ite | apply Block.writeCap_after | apply Block.doPwClkWrite_after | apply Block.writeOne_after | apply Block.rstCmd_after | apply Block.writePlain_after

theorem Block.writeLc_after {a b : Block} (r : RegAt) (v : Nat) (h : After a b) : After a (b.writeLc r v) := by
  unfold Block.writeLc
  extract_lets l0 l1
  have k0 : After a l0 := by
    subst l0
    with_reducible repeat' first | assumption | apply Block.writePlain_after
  have k1 : After a l1 := by
    subst l1
    with_reducible repeat' first | assumption | apply After.ite | apply Block.doFwReadyBracken_after
  with_reducible repeat' first | assumption | apply After.ite | apply Block.doFwActivate_after | apply Block.doFwRevert_after | apply Block.cfgErr_after | apply Block.doFwReadyRt_after

theorem Block.writeSv_after {a b : Block} (lichen : Bool) (r : RegAt) (v : Nat) (h : After a b) : After a (b.writeSv lichen r v) := by
  unfold Block.writeSv
  extract_lets l0
  have k0 : After a l0 := by
    subst l0
    with_reducible repeat' first | assumption | apply After.ite | apply Block.doSvTestTrigger_after
  with_reducible repeat' first | assumption | apply After.ite | apply Block.setPolicy_after | apply Block.clearLatch_after | apply Block.attestStart_after | apply Block.writePlain_after

theorem Block.writeSn_after {a b : Block} (lichen : Bool) (r : RegAt) (v : Nat) (h : After a b) : After a (b.writeSn lichen r v) := by
  unfold Block.writeSn
  with_reducible repeat' first | assumption | apply After.ite | apply Block.doSnTrigGo_after | apply Block.doSnGrpGo_after | apply Block.rejectReg_after | apply Block.doTapDisable_after | apply Block.moduleReset_after | apply Block.wr_after | apply Block.writePlain_after

theorem Block.writeTile_after {a b : Block} (lichen : Bool) (r : RegAt) (v : Nat) (h : After a b) : After a (b.writeTile lichen r v) := by
  unfold Block.writeTile
  with_reducible repeat' first | assumption | apply After.ite | apply Block.writePeriod_after | apply Block.doTkPeriodAtWrite_after | apply Block.writeTkCtrl_after | apply Block.writePlain_after | apply Block.doTlRetireGo_after | apply Block.doTlSemSignal_after | apply Block.commitField_after | apply Block.rejectReg_after | split

theorem Block.writeReg_after {a b : Block} (lichen : Bool) (r : RegAt) (v : Nat) (h : After a b) : After a (b.writeReg lichen r v) := by
  unfold Block.writeReg
  with_reducible repeat' first | assumption | apply After.ite | apply Block.rejectReg_after | apply Block.writeTile_after | apply Block.writePlain_after | apply Block.writeRc_after | apply Block.writeMs_after | apply Block.writeMem_after | apply Block.writeXl_after | apply Block.writeBk_after | apply Block.writeDmp_after | apply Block.writeDm_after | apply Block.writeGrp_after | apply Block.writeFlt_after | apply Block.writePw_after | apply Block.writeLc_after | apply Block.writeSv_after | apply Block.writeSn_after | split

theorem Block.regWrite_after {a b : Block} (lichen : Bool) (ctx : Nat) (off : Nat) (n : Nat) (v : Nat) (h : After a b) : After a (b.regWrite lichen ctx off n v) := by
  unfold Block.regWrite
  with_reducible repeat' first | assumption | apply After.ite | apply Block.unmapped_after | apply Block.writeReg_after | split

theorem Block.drainOnce_after {a b : Block}  (h : After a b) : After a (b.drainOnce) := by
  unfold Block.drainOnce
  with_reducible repeat' first | (intro) | assumption | apply Block.deliver_after | apply Block.each_after | apply Block.regWrite_after | apply After.mk

theorem Block.drainN_after {a y1 : Block} (y0 : Nat) (h : After a y1) : After a (Block.drainN y0 y1) := by
  induction y0 generalizing y1 with
  | zero =>
    simp only [Block.drainN]
    with_reducible repeat' assumption
  | succ n ih =>
    simp only [Block.drainN]
    with_reducible repeat' first | assumption | apply After.ite | apply Block.drainOnce_after | apply ih

theorem Block.drainRegs_after {a b : Block}  (h : After a b) : After a (b.drainRegs) := by
  unfold Block.drainRegs
  with_reducible repeat' first | assumption | apply Block.drainN_after

theorem Block.doRegisterWrite_after {a b : Block} (lichen : Bool) (ctx : BitVec 12) (off : BitVec 29) (v : W64) (h : After a b) : After a (b.doRegisterWrite lichen ctx off v) := by
  unfold Block.doRegisterWrite
  with_reducible repeat' first | (intro) | assumption | apply After.ite | apply Block.regWrite_after | apply Block.orHold_after

theorem Block.doRcRead_after {a b : Block} (src : Nat) (ctx : BitVec 12) (off : BitVec 29) (h : After a b) : After a (b.doRcRead src ctx off) := by
  unfold Block.doRcRead
  with_reducible repeat' first | (intro) | assumption | apply Block.orHold_after | apply Block.regRead_after | apply Block.emit_after

theorem Block.doUnmappedRegisterAccess_after {a b : Block} (src : Nat) (ctx : BitVec 12) (off : BitVec 32) (n : Fin 129) (write : Bool) (h : After a b) : After a (b.doUnmappedRegisterAccess src ctx off n write) := by
  unfold Block.doUnmappedRegisterAccess
  with_reducible repeat' first | assumption | apply After.ite | apply Block.regWrite_after | apply Block.regRead_after | apply Block.emit_after

end Sys2Proof.Machine
end

