-- ==== Sys2Proof/Laws/Tile.lean ====
section
/-! SUPPORT. What the shared operations of a tile do: fetching and issuing at a tile that is ready, moving on to the next
instruction, and what such a step leaves alone. -/

namespace Sys2Proof
open Machine Machine.Reg

theorem RegsBut.refl (ks : List Nat) (a : Block) : RegsBut ks a a := fun _ _ _ _ => rfl
theorem SitesBut.refl (ps : List Nat) (a : Block) : SitesBut ps a a := fun _ _ => rfl
theorem Only.refl (a : Block) (ks ps : List Nat) : Only a a ks ps := ⟨RegsBut.refl _ _, SitesBut.refl _ _, rfl⟩

/-- A write of a listed field is within the frame. -/
theorem Only.wr {a b : Block} {ks ps : List Nat} (h : Only a b ks ps) (f : Field) (v i j : Nat) (hk : f.key i j ∈ ks) :
    Only a (b.wr f v i j) ks ps :=
  ⟨fun g k l n => (Block.rd_wr_ne b v (fun e => n (e ▸ hk))).trans (h.1 g k l n), h.2.1, h.2.2⟩

/-- A change of a listed site is within the frame. -/
theorem Only.setSite {a b : Block} {ks ps : List Nat} (h : Only a b ks ps) (p : Nat) (x : Site) (hp : p ∈ ps) :
    Only a (b.setSite p x) ks ps :=
  ⟨h.1, fun q n => (Block.site_setSite_ne b x (by rintro rfl; exact n hp)).trans (h.2.1 q n), h.2.2⟩

theorem Only.onSite {a b : Block} {ks ps : List Nat} (h : Only a b ks ps) (p : Nat) (f : Site → Site) (hp : p ∈ ps) :
    Only a (b.onSite p f) ks ps := h.setSite p _ hp

theorem Only.trans {a b c : Block} {ks ps : List Nat} (h : Only a b ks ps) (k : Only b c ks ps) : Only a c ks ps := by
  refine ⟨fun f i j n => (k.1 f i j n).trans (h.1 f i j n), fun q n => (k.2.1 q n).trans (h.2.1 q n), ?_⟩
  have e1 : { c with regs := b.regs, sites := b.sites } = b := k.2.2
  have e2 : { b with regs := a.regs, sites := a.sites } = a := h.2.2
  show { c with regs := a.regs, sites := a.sites } = a
  rw [← e2, ← e1]

/-- Memory is within no frame of this kind: it stays as it is. -/
theorem Only.mem {a b : Block} {ks ps : List Nat} (h : Only a b ks ps) : b.mem = a.mem := by
  have e : { b with regs := a.regs, sites := a.sites } = a := h.2.2
  rw [← e]

/-- A tile that is ready fetches. -/
theorem Ready.fetch {a : Block} {l p : Nat} (h : Ready a l p) : a.fetch l = (some p, a) := by
  have hs := h.step
  unfold Block.fetch
  simp only [h.served, h.site, h.running, h.noLoad, h.notEnding, h.notStopped, h.notSwapping, h.notCopying, h.inRange,
    h.loaded, h.valid, h.assigned, Bool.not_true, Bool.false_eq_true, if_false, ne_eq, not_true_eq_false, Option.isSome_none, false_or,
    or_false]
  cases hr : (a.site p).run with
  | none => simp [hr] at hs
  | some r => simp

/-- A tile that is ready issues a legal instruction whose registers no engine owes. -/
theorem Ready.issue {a : Block} {l p : Nat} (h : Ready a l p) {rs : List Nat} (hf : Free a p rs) (f : Nat → Block → Block) :
    a.issue l true rs f = f p a := by
  have hn : a.stalled p rs = false := by
    simp only [Block.stalled, List.any_eq_false, NSet.mem]
    intro r hr
    simpa using hf r hr
  simp [Block.issue, h.fetch, hn]

/-- A tile that is ready raises ILLEGAL_INSTR for an illegal instruction. -/
theorem Ready.illegal {a : Block} {l p : Nat} (h : Ready a l p) (rs : List Nat) (f : Nat → Block → Block) :
    a.issue l false rs f = a.raisePc p xIllegal 0 := by
  simp [Block.issue, h.fetch]

/-- Changing a site and moving on completes an instruction. -/
theorem completes_advance (a : Block) (p : Nat) (g : Site → Site) : Completes a ((a.onSite p g).advance p) p [] g := by
  unfold Completes Block.advance
  have hp : (a.onSite p g).pcOf p = a.pcOf p := rfl
  rw [hp]
  split
  · refine ⟨by simp [Block.onSite], by assumption, ?_⟩
    exact ((Only.refl a _ _).onSite p g (by simp)).onSite p _ (by simp)
  · refine ⟨by simp [Block.onSite], by simp [Block.pcOf, Block.rd_wr_self]; rfl, ?_⟩
    exact ((Only.refl a _ _).onSite p g (by simp)).wr _ _ _ _ (by simp)

/-- Moving on alone completes an instruction that changes nothing else. -/
theorem completes_advance_id (a : Block) (p : Nat) : Completes a (a.advance p) p [] id := by
  unfold Completes Block.advance
  split
  · refine ⟨by simp [Block.onSite], by assumption, ?_⟩
    exact (Only.refl a _ _).onSite p _ (by simp)
  · refine ⟨by simp, by simp [Block.pcOf, Block.rd_wr_self]; rfl, ?_⟩
    exact (Only.refl a _ _).wr _ _ _ _ (by simp)

@[simp] theorem regQ_advance (b : Block) (p : Nat) : (b.advance p).regQ = b.regQ := by
  unfold Block.advance; split <;> rfl

@[simp] theorem regQ_setSreg (b : Block) (p n v : Nat) : (b.setSreg p n v).regQ = b.regQ := by
  simp [Block.setSreg]

/-- With no register write owed before and none made, a command's result stands as it is. -/
theorem runs_of {s : State} {i : Instr} {b : Block} {P : Block → Prop} (h : exec i s = .next { s with m := b.drainRegs })
    (hq : b.regQ = []) (hp : P b) : Runs i s P := by
  refine ⟨_, h, rfl, ?_⟩
  rwa [Block.drainRegs_nil _ hq]

/-- An instruction of the scalar unit at a tile that is ready. -/
theorem Ready.runs {s : State} {i : Instr} {l p : Nat} (h : Ready s.m l p) {legal : Bool} {rs : List Nat}
    {f : Nat → Block → Block} {P : Block → Prop} (e : exec i s = s.run (fun b => b.issue l legal rs f)) (hl : legal = true)
    (hf : Free s.m p rs) (hq : (f p s.m).regQ = []) (hp : P (f p s.m)) : Runs i s P := by
  subst hl
  refine runs_of (b := f p s.m) ?_ hq hp
  rw [e]; unfold State.run; dsimp only; rw [h.issue hf]

/-- An exception at a tile that is ready. -/
theorem Ready.raises {s : State} {i : Instr} {l p : Nat} (h : Ready s.m l p) {legal : Bool} {rs : List Nat}
    {f : Nat → Block → Block} {code va : Nat} (e : exec i s = s.run (fun b => b.issue l legal rs f)) (hl : legal = true)
    (hf : Free s.m p rs) (hp : f p s.m = s.m.raisePc p code va) : Raises i s p code va := by
  subst hl
  unfold Raises
  rw [e]; unfold State.run; dsimp only; rw [h.issue hf, hp]

/-- An illegal instruction at a tile that is ready. -/
theorem Ready.illegals {s : State} {i : Instr} {l p : Nat} (h : Ready s.m l p) {legal : Bool} {rs : List Nat}
    {f : Nat → Block → Block} (e : exec i s = s.run (fun b => b.issue l legal rs f)) (hl : legal = false) :
    Raises i s p xIllegal 0 := by
  subst hl
  unfold Raises
  rw [e]; unfold State.run; dsimp only; rw [h.illegal]

end Sys2Proof
end

