-- ==== Sys2Proof/WellFormed.lean ====
section
/-! DEFINITION. WellFormed.lean: which commands describe something that can happen: the bounds the spec states on operands
whose types are wider. The machine gives every command a meaning, well-formed or not. -/

namespace Sys2Proof

/-- Bytes that an operation of memory reaches: at least one, all in one line of 128 bytes (R384). -/
def MemOp.bytes (op : MemOp) : Nat :=
  match op with
  | .read n => n
  | .write data => data.length
  | .fetchAdd wide _ => if wide then 8 else 4
  | .cas wide _ _ => if wide then 8 else 4
  | .fence => 1

/-- Does an access of `n` bytes at offset `off` stay within one line? -/
def inLine (off n : Nat) : Bool := decide (1 ≤ n) && decide (off % 128 + n ≤ 128)

/-- A memory request is one line's, and an atomic is aligned to its width (R143, R384). -/
def MemOp.wf (op : MemOp) (off : Nat) : Bool :=
  inLine off op.bytes &&
    (match op with
     | .read _ => true
     | .write _ => true
     | .fetchAdd _ _ => off % op.bytes == 0
     | .cas _ _ _ => off % op.bytes == 0
     | .fence => true)

/-- Bytes read from another module for a ring entry: an entry has 64 (R446). -/
def farWf (far : Option (List Byte)) : Bool := far.all (fun bs => bs.length == 64)

/-- The bounds on operands (R319, R353, R488, R490, R508, R509, R523, R657). -/
def Instr.wf (i : Instr) : Bool :=
  match i with
  | .unmappedRegisterAccess _ _ off n _ => inLine off.toNat n
  | .memoryRequest _ _ pa op _ _ => op.wf pa.toNat
  | .lockWindowAccess _ _ _ w op => op.wf w.toNat
  | .regionCacheAccess _ _ _ off w n _ _ => inLine off.toNat ((w.map (·.length)).getD n)
  | .ringEntryFetch _ far => farWf far
  | .staleEntryReread _ far => farWf far
  | .dmWrite _ data => decide (1 ≤ data.length) && decide (data.length ≤ 8256)
  | .dmRead _ _ len => decide (1 ≤ len.toNat) && decide (len.toNat ≤ 8192)
  | .dmReadResp _ _ _ data => decide (data.length ≤ 8192)
  | .dmRemoteBag _ _ _ parts => decide (1 ≤ parts.length) && decide (parts.length ≤ 255)
  | .dmUpdate _ _ cs => decide (1 ≤ cs.length) && decide (cs.length ≤ 255)
  | .ptpFrameReceive _ t frame => decide (t.ns.toNat < 1000000000) && decide (frame.length ≤ 224)
  | .ptpTransmit _ times => times.all (fun t => decide (t.ns.toNat < 1000000000))
  | .ptpTimeStep t => decide (t.ns.toNat < 1000000000)
  | .ppsInEdge t => decide (t.ns.toNat < 1000000000)
  | .placement _ _ _ es => decide (es.length ≤ 1024)
  | _ => true

end Sys2Proof
end

