-- ==== Sys2Proof/Tests/Slice0.lean ====
section
/-! SUPPORT. Tests/Slice0.lean: for every statement with hypotheses a state and operands that meet them (`witness_<Name>`),
an ill-formed command for every check of WellFormed, and values of the spec's worked examples (`test_<what>`). -/

open Sys2Proof Sys2Proof.Machine Sys2Proof.Machine.Reg

set_option maxRecDepth 4000

namespace Sys2Proof.Tests

/-- The module a command leaves. -/
def after (c : Instr) (a : Block) : Block :=
  match exec c ⟨[], a⟩ with
  | .next t => t.m
  | _ => a

/-- The step of the tile under test: its tick and its position in its list. -/
def aStep : StepRun := ⟨⟨0,5,3,false,false,false,0,1000,7,0x100,4,0⟩,3,false,none,false⟩

/-- A module whose logical tile 0 runs a step and may issue its next instruction, its instruction page 0 loaded. -/
def rdy : Block :=
  ((State.reset.m.wr TL_STATUS.RUN 1 0).wr TL_IMEM_PAGE.VALID 1 0 0).onSite 0 (fun x => { x with run := some aStep })

/-- The same with values in the scalar registers. -/
def rdyS (vs : List (Nat × Nat)) : Block := rdy.onSite 0 (fun x => vs.foldl (fun y v => y.setS v.1 v.2) x)

/-- What `Ready` asks of a state, as one decidable proposition. -/
abbrev ReadyD (a : Block) (l p : Nat) : Prop :=
  (a.served l = true ∧ a.siteOf l = p ∧ a.rd TL_STATUS.RUN p = 1 ∧ (a.site p).run.isSome = true ∧
    (a.site p).pend.isNone = true ∧ (a.site p).ending = false ∧ (a.site p).stopped = false) ∧
  ((a.site p).swapWait = false ∧ (a.site p).copying = false ∧ (a.site p).pcOver = false ∧
    a.on TL_IMEM_PAGE.LOADING p (a.pcOf p / 512) = false ∧ a.on TL_IMEM_PAGE.VALID p (a.pcOf p / 512) = true ∧
    wordAssigned (SMap.get 0 (a.site p).imem (a.pcOf p)) = true ∧ a.regQ.isEmpty = true)

theorem ready_of {a : Block} {l p : Nat} (h : ReadyD a l p) : Ready a l p :=
  have ⟨⟨a1, a2, a3, a4, a5, a6, a7⟩, b1, b2, b3, b4, b5, b6, b7⟩ := h
  ⟨a1, a2, a3, a4, by simpa using a5, a6, a7, b1, b2, b3, b4, b5, b6, by simpa using b7⟩

theorem ready_rdy : Ready rdy 0 0 := ready_of (by decide)

theorem test_add : ((after (.scArith 0 ⟨3, 1, 2, 0, 0⟩) (rdyS [(1, 7), (2, 2^64-1)])).site 0).s 3 = 6 := by decide

theorem key_id (f : Field) (i j : Nat) : f.key i j / 2 ^ 40 = f.id := by unfold Field.key; omega

/-- A field no write has touched reads its reset value. -/
theorem rd_untouched {b : Block} {f : Field} (h : ∀ x ∈ b.regs, x.1 / 2 ^ 40 ≠ f.id) (i j : Nat) : b.rd f i j = f.resetAt i j := by
  have : ∀ m : SMap Nat, (∀ x ∈ m, x.1 / 2 ^ 40 ≠ f.id) → SMap.get (f.resetAt i j) m (f.key i j) = f.resetAt i j := by
    intro m
    induction m with
    | nil => exact fun _ => rfl
    | cons x m ih =>
      intro hm
      have hx : x.1 ≠ f.key i j := fun he => hm x List.mem_cons_self (he ▸ key_id f i j)
      simp [SMap.get, hx, ih (fun y hy => hm y (List.mem_cons_of_mem _ hy))]
  exact this _ h

theorem on_untouched {b : Block} {f : Field} (h : ∀ x ∈ b.regs, x.1 / 2 ^ 40 ≠ f.id) (i j : Nat) : b.on f i j = (f.resetAt i j == 1) := by
  simp [Block.on, rd_untouched h]

theorem free_of {a : Block} {p : Nat} {rs : List Nat} (h : (a.site p).pendReg = []) : Free a p rs :=
  fun _ _ => by simp [h]

/-- `rdy` with translation on: virtual page 0x10 of its step's context is the first page of the tile's own local store. -/
def rdyM : Block :=
  (rdy.wr XL_CTRL.ENABLE 1).onSite 0 (fun x => { x.setS 1 0x10008 with
    tlb := [⟨0, 0x10, 12, 0x0200_0000_0000 / 4096, true, true, false, true⟩] })

/-- The tile under test in a module whose HBM is written with zeros throughout. -/
def zeroM : Block := { rdyM with mem := ⟨[], [], []⟩ }

/-- A load of the tile under test whose value has returned. -/
def aLoad (kind : Nat) (poison : Bool) : PendLoad := ⟨kind, 3, 0x80, poison, 0, 0x100, true, 1, true⟩

def loaded (kind : Nat) (poison : Bool) : Block := rdy.onSite 0 (fun x => { x with pend := some (aLoad kind poison) })

theorem witness_EveryCommandCompletes :
    ({ State.reset with pending := [.msTdirInval] } : State).pending = Instr.msTdirInval :: [] := by decide

theorem witness_StepRunsTheFrontCommand : State.reset.pending = [] := by decide

theorem reset_canonical : memCanonical State.reset := by unfold memCanonical; decide

theorem witness_MemoryStaysCanonical : memCanonical State.reset ∧ step State.reset = .next State.reset := ⟨reset_canonical, rfl⟩

theorem witness_HistoryIsKept : step State.reset = .next State.reset := rfl

theorem witness_ScalarArithmetic :
    (Ready rdy 0 0 ∧ (⟨31, 30, 29, 15, 0⟩ : FmtR).fn.toNat < 16 ∧ Free rdy 0 [31, 30, 29]) ∧
    ((⟨31, 30, 15, 0x80000000⟩ : FmtI).fn.toNat < 16 ∧ Free rdy 0 [31, 30] ∧ (⟨31, 0, 0, 5⟩ : FmtI).fn = 0 ∧ Free rdy 0 [31]) ∧
    (onlySd ⟨31, 0, 0, 0, 0⟩ = true ∧ (rdy.site 0).run = some aStep) ∧
    (31 < 32 ∧ 0 < 32 ∧ (31 : Nat) ≠ 0 ∧ (0 : Nat) ≠ 31) ∧
    ((⟨15, 15, 0, 3, 0⟩ : FmtR).fn.toNat < 4 ∧ (⟨15, 15, 0, 3, 0⟩ : FmtR).sd.toNat < 16 ∧ (⟨15, 15, 0, 0, 0⟩ : FmtR).sa.toNat < 16) :=
  have f {rs} : Free rdy 0 rs := free_of (by decide)
  ⟨⟨ready_rdy, by decide, f⟩, ⟨by decide, f, by decide, f⟩, ⟨by decide, by decide⟩, by decide, by decide⟩

/-- Branches at index 0 and at 8,191: not taken, taken in range, taken out of range; jumps to 8,191 and past it. -/
theorem witness_BranchesAndJumps :
    (Ready rdy 0 0 ∧ rdy.pcOf 0 ≤ 8191 ∧ Free rdy 0 [1, 2] ∧ (⟨0, 0, 6, 0, 8191⟩ : FmtB).cond.toNat < 7) ∧
    (brTaken 0 (rdy.sreg 0 1) (rdy.sreg 0 2) = true ∧ brTaken 1 (rdy.sreg 0 1) (rdy.sreg 0 2) = false) ∧
    (((8191 : Nat) : Int) = rdy.pcOf 0 + (8191 : BitVec 32).toInt ∧ (rdy.pcOf 0 : Int) + (-1 : BitVec 32).toInt < 0 ∧
      8191 < (rdy.pcOf 0 : Int) + (8192 : BitVec 32).toInt) ∧
    ((rdyS [(1, 8191)]).sreg 0 1).toNat ≤ 8191 ∧ 8191 < ((rdyS [(1, 8192)]).sreg 0 1).toNat ∧ Ready (rdyS [(1, 8192)]) 0 0 ∧
    Ready (rdyS [(1, 8191)]) 0 0 :=
  ⟨⟨ready_rdy, by decide, free_of (by decide), by decide⟩, by decide, by decide, by decide, by decide, ready_of (by decide),
    ready_of (by decide)⟩

/-- Loads at the last bytes of the local store, of a poisoned word too; returned values; a load through page 0x10; stores; a
`sc.cas` through page 0x10. -/
theorem witness_LocalStoreAccesses :
    (rdy.ea 0 ⟨1, 0, 7, 0x2FFFF8⟩ = 0x2FFFF8 ∧ (rdy.mem.word (lsKey 0 0x2FFFF8 / 16)).dev = 0 ∧
      rdy.lineHeld 0 (rdy.ownPa 0 0x2FFFF8) 8 = [] ∧ rdy.relWaits 0 (rdy.ctxOf 0) 2 (rdy.ownPa 0 0x2FFFF8) 8 = []) ∧
    (({ rdy with mem := rdy.mem.setWord (lsKey 0 0x20 / 16) ⟨0, 0xFFFF⟩ } : Block).mem.word (lsKey 0 0x20 / 16)).dev = 0xFFFF ∧
    (rdy.ea 0 ⟨15, 0, 0, 0x2FFFE0⟩ = 0x2FFFE0 ∧ (∀ k < 2, (rdy.mem.word (lsKey 0 0x2FFFE0 / 16 + k)).dev = 0) ∧
      rdy.lineHeld 0 (rdy.ownPa 0 0x2FFFE0) 32 = [] ∧ rdy.relWaits 0 (rdy.ctxOf 0) 0 (rdy.ownPa 0 0x2FFFE0) 32 = []) ∧
    (∀ kind < 3, ∀ poison, ((loaded kind poison).site 0).pend = some (aLoad kind poison) ∧ (loaded kind poison).siteOf 0 = 0 ∧
      (loaded kind poison).regQ = []) ∧
    (Ready rdyM 0 0 ∧ rdyM.ea 0 ⟨1, 0, 11, 0x10008⟩ = 0x10008 ∧
      (rdyM.vread 0 (rdyM.ctxOf 0) (rdyM.clsOf 0) 0 0x10008 8 (.load 0)).1.exc = 0 ∧
      (rdyM.vread 0 (rdyM.ctxOf 0) (rdyM.clsOf 0) 0 0x10008 8 (.load 0)).2.regQ = []) ∧
    (rdyM.sreg 0 1).toNat = 0x10008 ∧ (rdyM.site 0).replay = none ∧
    ((rdyM.tileXl 0 (rdyM.ctxOf 0) 0x10008 true).1.cause = 0 ∧
      nodeOf (rdyM.tileXl 0 (rdyM.ctxOf 0) 0x10008 true).1.pa = (rdyM.tileXl 0 (rdyM.ctxOf 0) 0x10008 true).2.rd XL_NODE.SELF ∧
      (rdyM.tileXl 0 (rdyM.ctxOf 0) 0x10008 true).2.relWaits 0 (rdyM.ctxOf 0) 2
        (rdyM.tileXl 0 (rdyM.ctxOf 0) 0x10008 true).1.pa 8 = [] ∧
      (rdyM.tileXl 0 (rdyM.ctxOf 0) 0x10008 true).2.heldTile (offOf (rdyM.tileXl 0 (rdyM.ctxOf 0) 0x10008 true).1.pa) = none) ∧
    (∀ op < 2, ((rdyM.tileXl 0 (rdyM.ctxOf 0) 0x10008 true).2.matomic (rdyM.ctxOf 0) 0x0200_0000_0008 8 op 0 0).2.2.1 = .ok) :=
  ⟨by decide, by decide, by decide, by decide, ⟨ready_of (by decide), by decide⟩, by decide, by decide, by decide, by decide⟩

/-- An exception is taken with none held and with one held; misaligned addresses and addresses past the local store. -/
theorem witness_ScalarExceptions :
    (Ready rdy 0 0 ∧ Free rdy 0 [1, 0, 0] ∧ rdy.ea 0 ⟨1, 0, 3, 4⟩ % 2 ^ 3 ≠ 0 ∧
      0x300000 < rdy.ea 0 ⟨1, 0, 0, 0x300000⟩ + 2 ^ 0 ∧ rdy.ea 0 ⟨15, 0, 0, 16⟩ % 32 ≠ 0) ∧
    (Ready (rdyS [(1, 4)]) 0 0 ∧ ((rdyS [(1, 4)]).sreg 0 1).toNat % (4 + 4 * (1 % 2)) ≠ 0) ∧
    (xSem < 2 ^ 8 ∧ rdy.rd TL_EXC.VALID 0 = 0 ∧ (rdy.wr TL_EXC.VALID 1 0).rd TL_EXC.VALID 0 = 1) :=
  ⟨⟨ready_rdy, free_of (by decide), by decide⟩, ⟨ready_of (by decide), by decide⟩, by decide⟩

/-- A tensor descriptor of `n` elements of format `fmt` at byte `base` of the local store (R97). -/
def desc (base fmt n : Nat) : Nat := base + fmt * 2 ^ 48 + 1 * 2 ^ 55 + n * 2 ^ 64

/-- The tile under test with one descriptor: 32 elements of INT8 at byte 0x100, and the seed of its step read. -/
def rdyD : Block := rdy.onSite 0 (fun x => { x.setD 0 (desc 0x100 8 32) with
  run := some { aStep with spilled := true, seed := some (7, 0) } })

/-- A format T instruction on descriptor 0 with MOD `md` and tile registers 0, `tb`, `tc`. -/
def insT (md : BitVec 16) (tb tc : BitVec 3) : FmtT := ⟨0, 0, 0, 0, tb, tc, md, false, 0, false, 0, 0⟩

theorem roomFor_of {a : Block} {p : Nat} {i : EngIns}
    (h : (a.site p).queue = [] ∧ (a.site p).flight = [] ∧ (a.site p).runs = []) : RoomFor a p i :=
  ⟨by simp [h.1], by simp [h.2.1], by simp [h.2.2], by simp [Block.scoreStall, h.1, h.2.1]⟩

/-- The operation, its MOD and its register fields, of each DMA, Twill, Frond and Moss instruction, and its check. -/
def formsT : List (EngOp × Nat × FmtT × (FmtT → Bool) × (EngIns → Bool)) :=
  let a := fun t => tLegal t true false false false false false
  let b := fun t => tLegal t true true false false false false
  let any := fun _ => true
  [(.dmaCp, 2, insT 2 0 0, fun t => b t && modOf t 0 2 != 3 && modOf t 2 14 == 0, cpOk),
   (.dmaFill, 2, insT 2 0 0, fun t => a t && modOf t 0 2 != 3 && modOf t 2 14 == 0, fun i => descPlain i.da && !dKind i.da),
   (.dmaCmpl, 2, insT 0 0 0, fun t => a t && t.md == 0, cmplOk),
   (.twlLd, 3, insT 0 0 0, fun t => a t && t.md == 0, ldOk),
   (.twlLdm, 3, insT 0x3FF 0 0, fun t => a t && modOf t 0 4 != 0 && modOf t 10 6 == 0 && (modOf t 9 1 == 1 || modOf t 4 5 == 0), ldOk),
   (.twlMm, 3, insT 0x1403 0 0, fun t => tLegal t true false false false false true && modOf t 14 2 == 0 &&
     (modOf t 13 1 == 0 || modOf t 9 4 == 8 || modOf t 9 4 == 9), mmOk),
   (.mssUpd, 5, insT 0 0 0, fun t => a t && t.md == 0, fun i => mssDaOk i.da),
   (.mssBag, 5, insT 0 0 0, fun t => b t && t.md == 0, mssOk),
   (.mssRaw, 5, insT 0 0 0, fun t => b t && t.md == 0, mssOk),
   (.frdEw, 4, insT 0 0 0, fun t => tLegal t true (!opcUnary (modOf t 0 6)) true false false false && opcKnown (modOf t 0 6) &&
     modOf t 7 9 == 0, ewOk),
   (.frdChn, 4, insT 0 0 0, fun t => tLegal t true true true false false false, chnOk),
   (.frdCvt, 4, insT 0 0 0, fun t => tLegal t true (modOf t 9 1 == 1) true false false false && modOf t 10 6 == 0, cvtOk),
   (.frdRed, 4, insT 0x40E 0 0, fun t => tLegal t false false false true false true && modOf t 0 2 != 3 && modOf t 4 7 ≤ 64 &&
     modOf t 11 5 == 0, any),
   (.frdTopk, 4, insT 0x81C0 1 2, fun t => tLegal t false false false true true true && 1 ≤ modOf t 0 7 && modOf t 0 7 ≤ 64 &&
     modOf t 9 7 ≤ 64 && t.ta != t.tb && t.ta != t.tc && t.tb != t.tc, any),
   (.frdPerm, 4, insT 1 0 1, fun t => tLegal t false false false true true true && modOf t 1 15 == 0 && t.tc != t.tb, any),
   (.frdShf, 4, insT 0x204 0 0, fun t => tLegal t false false false true false true && modOf t 0 3 < 6 && modOf t 10 6 == 0 &&
     (modOf t 0 3 == 0 || modOf t 0 3 == 4 || modOf t 3 6 == 0) && (modOf t 0 3 != 5 || modOf t 9 1 == 0), any),
   (.frdPack, 4, insT 7 0 0, fun t => packLegal t false, any),
   (.frdUnpk, 4, insT 0x19 0 0, fun t => packLegal t true, any)]

/-- An instruction of the DMA engine, waiting in its queue or in flight and done. -/
def aFill (done : Bool) : EngIns :=
  { rdyD.capIns 0 .dmaFill 2 (insT 0 0 0) [] 0 with done := done }

def rdyQ (q f : List EngIns) : Block := rdyD.onSite 0 (fun x => { x with queue := q, flight := f })

theorem witness_EngineInstructions :
    (Ready rdyD 0 0 ∧ rdyD.seedOf 0 ≠ .waiting ∧ rdyD.loadRuns 0 = false ∧
      (∀ i, (rdyD.site 0).passWrites i = false) ∧ rdyD.imageReady 0 (rdyD.capIns 0 .dmaCmpl 2 (insT 0 0 0) [] 0) = true) ∧
    (∀ i : EngIns, RoomFor rdyD 0 i) ∧
    (∀ x ∈ formsT, x.2.2.2.1 x.2.2.1 = true ∧ x.2.2.2.2 (rdyD.capIns 0 x.1 x.2.1 x.2.2.1 [] 0) = true) ∧
    ((rdyQ [aFill false] []).served 0 = true ∧ (rdyQ [aFill false] []).engLive 0 = true ∧
      ((rdyQ [aFill false] []).site 0).head 2 = some (aFill false) ∧ (aFill false).waitSem = none ∧ ((rdyQ [aFill false] []).site 0).runs = [] ∧
      (rdyQ [aFill false] []).canStart 0 (aFill false) = true) ∧
    ((((rdyQ [] [aFill true]).site 0).flight.filter (fun i => i.eng == 2 &&
        (i.done || ((rdyQ [] [aFill true]).site 0).runs.any (fun r => r.ins.id == i.id && !r.dead))))[0]? = some (aFill true) ∧
      ((rdyQ [] [aFill true]).site 0).runs = [] ∧
      (rdyQ [] [aFill true]).engLive 0 = true ∧ (rdyQ [] [aFill true]).mayComplete 0 (aFill true) = true) :=
  ⟨⟨ready_of (by decide), by decide, by decide, fun _ => rfl, by decide⟩, fun _ => roomFor_of (by decide), by decide, by decide, by decide⟩

/-- A retirement copy into the site of tile 0 runs. -/
def copyingB : Block := { rdy with retires := [⟨0, 0, some 16, 0, 1, 0, false, true⟩] }

theorem witness_SemaphoresAndStepEnd :
    (Ready rdy 0 0 ∧ Idle rdy 0 ∧ rdy.tileOf 0 = 0 ∧ rdy.sem 0 (31 % 32) ≤ 255 ∧ rdy.sem 0 31 < 255 ∧
      (rdy.sreg 0 0).toNat = 0 ∧ rdy.sem 0 31 + 255 ≤ 255) ∧
    (Ready (rdy.wr TL_SEM.COUNT 255 0 31) 0 0 ∧ 255 ≤ (rdy.wr TL_SEM.COUNT 255 0 31).sem 0 31 ∧ Idle (rdy.wr TL_SEM.COUNT 255 0 31) 0 ∧
      (rdy.wr TL_SEM.COUNT 255 0 31).sem 0 31 ≤ 255) ∧
    (Ready (rdyS [(1, 511)]) 0 0 ∧ Idle (rdyS [(1, 511)]) 0 ∧ ((rdyS [(1, 511)]).sreg 0 1).toNat = (511 : LTile).val ∧
      (511 : LTile) ≠ 0 ∧ (rdyS [(1, 511)]).served 511 = true ∧ ((rdyS [(1, 511)]).site 0).replay = none) ∧
    ((rdy.site 0).queue = [] ∧ 31 < 32 ∧ (0 ≤ rdy.sem 0 31 + 255 ∧ rdy.sem 0 31 + 255 ≤ 255 + 0) ∧
      255 + 0 < rdy.sem 0 31 + 256 ∧ rdy.sem 0 31 + 0 < 1) ∧
    (rdy.held 0 = false ∧ copyingB.held 0 = true ∧ copyingB.served 0 = true ∧ copyingB.regQ = []) ∧
    (({ rdy with sigs := [⟨1, 0, 31, 255, 7⟩] } : Block).sigs.find? (fun x => x.src == 1 && x.dst == 0) = some ⟨1, 0, 31, 255, 7⟩ ∧
      (30 : BitVec 5).toNat ≠ 31 ∧ (rdy.site 0).semNow = []) ∧
    (Ready (rdyQ [] [aFill true]) 0 0 ∧ (rdyQ [] [aFill true]).quiet 0 = false) ∧
    (rdy.quiet 0 = true ∧ (rdy.site 0).run = some aStep ∧ aStep.d.pack = false ∧ (rdy.site 0).replay = none) :=
  ⟨⟨ready_rdy, by unfold Idle; decide, by decide⟩, ⟨ready_of (by decide), by decide, by unfold Idle; decide, by decide⟩,
    ⟨ready_of (by decide), by unfold Idle; decide, by decide⟩, by decide, by decide, by decide, ⟨ready_of (by decide), by decide⟩, by decide⟩

/-- A wait for a word of the tile's local store to be equal to `thr`, its read out or back. -/
def aWait (thr : Nat) (reading : Bool) : WaitRun :=
  ⟨0x10008, 1, thr, 0, true, 3, 9, some 5, reading, 0, some 0x0200_0000_0008, 0, none, 0⟩

def waiting (thr : Nat) (reading : Bool) : Block := rdyM.onSite 0 (fun x => { x with wait := some (aWait thr reading) })

/-- A watched address on the tile's page translates to this module, behind no held write. -/
abbrev NearD (b : Block) : Prop :=
  (b.tileXl 0 (b.ctxOf 0) 0x10008 false).1.cause = 0 ∧
  nodeOf (b.tileXl 0 (b.ctxOf 0) 0x10008 false).1.pa = (b.tileXl 0 (b.ctxOf 0) 0x10008 false).2.rd XL_NODE.SELF ∧
  (b.tileXl 0 (b.ctxOf 0) 0x10008 false).2.lineHeld 0 (b.tileXl 0 (b.ctxOf 0) 0x10008 false).1.pa 8 = [] ∧
  (b.tileXl 0 (b.ctxOf 0) 0x10008 false).2.regQ = [] ∧ ((b.tileXl 0 (b.ctxOf 0) 0x10008 false).2.site 0).ending = false

theorem witness_MemoryWaits :
    (Ready rdyM 0 0 ∧ Free rdyM 0 [3, 1, 0, 0] ∧ (∀ i, RoomFor rdyM 0 i) ∧
      NearD ((launch rdyM 0 (rdyM.capIns 0 .wtMem 1 noT [0x10008, 0, 0, 1, 1, 9] 3)).onSite 0 (fun x => { x with
        wait := some ⟨0x10008, 1, 0, 0, true, 3, 9, none, false, 0, none, 0, none, 0⟩ }))) ∧
    (∀ thr < 2, (waiting thr true).siteOf 0 = 0 ∧ (waiting thr true).regQ = [] ∧ ((waiting thr true).site 0).wait = some (aWait thr true) ∧
      ((waiting thr true).site 0).ending = false ∧ ((waiting thr true).site 0).waitOld = [] ∧
      (waiting thr true).heldAt 0x0200_0000_0008 = false ∧
      ((waiting thr true).mread ((waiting thr true).ctxOf 0) 0x0200_0000_0008 8).1.tagFail = false ∧
      ((waiting thr true).mread ((waiting thr true).ctxOf 0) 0x0200_0000_0008 8).1.pois = false ∧
      ((waiting thr true).mread ((waiting thr true).ctxOf 0) 0x0200_0000_0008 8).2.regQ = [] ∧
      ((waiting thr true).mread ((waiting thr true).ctxOf 0) 0x0200_0000_0008 8).2.sites = (waiting thr true).sites ∧
      waitMet 1 (leNat ((waiting thr true).mread ((waiting thr true).ctxOf 0) 0x0200_0000_0008 8).1.bytes) thr 0 = (thr == 0)) ∧
    (NearD (waiting 1 false) ∧ (aWait 1 false).reading = false ∧ (aWait 1 false).last = some 5 ∧ (aWait 1 false).timeout ≠ 0) :=
  ⟨⟨ready_of (by decide), free_of (by decide), fun _ => roomFor_of (by decide), by decide⟩, by decide, by decide⟩

/-- The tile under test beside the command of its step. -/
def rdyC : Block := { rdyD with bk := { rdyD.bk with cmds := [⟨7, 3, 0, 5, 0, 1, 0, 1, 1, 0, 0, false, 0, 1, 0, 0, false, false, false, none, false, 0, 0,
  none, false⟩] } }

theorem witness_EngineInstructions_dma :
    (let i := rdyD.capIns 0 .dmaCp 2 (insT 2 0 0) [] 0
     i.dmaChunks = [(0, 32, 0)] ∧ wholeWords i.da i.db 0 32 0 = true ∧ 32 * dBits i.da / 128 = 2 ∧
      rdyD.ownHeld 0 (dBase i.da) 32 = [] ∧ rdyD.relWaits 0 (rdyD.ctxOf 0) 2 (rdyD.ownPa 0 (dBase i.db)) 32 = []) ∧
    (let i := rdyD.capIns 0 .dmaFill 2 (insT 2 0 0) [] 0
     i.dmaChunks = [(0, 32, 0)] ∧ dSpace i.da = 0 ∧ dBase i.da % 16 = 0 ∧ 32 * dBits i.da % 128 = 0) ∧
    (rdyC.imageReady 0 (rdyC.capIns 0 .dmaCmpl 2 (insT 0 0 0) [] 0) = true ∧ (rdyC.site 0).replay = none ∧
      ∃ r c, (rdyC.site 0).run = some r ∧ r.d.pack = false ∧ rdyC.cmd r.d.cmdTag = some c ∧ c.issued = false) :=
  ⟨by decide, by decide, by decide, by decide, _, _, rfl, by decide, rfl, by decide⟩

/-- The tile under test with a valid plane of INT8 weights on each side. -/
def rdyP : Block := rdyD.onSite 0 (fun x => { x with
  plane0 := { Plane.empty with valid := true, fmt := 8 }, plane1 := { Plane.empty with valid := true, fmt := 8 } })

theorem witness_TwillArray_starts :
    (∀ x ∈ [(EngOp.twlLd, (0 : BitVec 16)), (EngOp.twlLdm, 0x3FF)],
      let i := rdyD.capIns 0 x.1 3 (insT x.2 0 0) [] 0
      let a := launch rdyD 0 i
      let b := (a.readPlane 0 i.da i.dax).2.2.2
      b.regQ = [] ∧ b.sites = a.sites ∧ b.regs = a.regs ∧ b.mcasts = rdyD.mcasts) ∧
    (let i := rdyP.capIns 0 .twlMm 3 (insT 0x1403 0 0) [] 0
     let a := (launch rdyP 0 i).onSite 0 (fun x => { x with planeSel := 1 - x.planeSel })
     let r := a.mmRead 0 i 1 1
     mmOk i = true ∧ mmRows i.da = 1 ∧ mmK i.da = 32 ∧ dMx i.da = false ∧ (rdyP.site 0).planeSel = 0 ∧ (rdyP.site 0).shadow.valid = true ∧
      (rdyP.site 0).shadow.pois = false ∧ twClass 8 (dFmt i.da) = some (64, 1, true) ∧
      r.2.2.regQ = [] ∧ r.2.2.sites = a.sites ∧ (∀ x ∈ r.1, ∀ e ∈ x, e.2 = false) ∧ (∀ e ∈ r.2.1, e.2 = false) ∧
      r.2.2.accPois 0 0 1 = false) :=
  ⟨by decide, by decide⟩

/-- A plane that loads. -/
def loadingSite (f : List EngIns) : Block := rdyD.onSite 0 (fun x => { x with
  flight := f, plane1 := { Plane.empty with loading := 1 } })

def aLd : EngIns := rdyD.capIns 0 .twlLd 3 (insT 0 0 0) [] 0

def aMcast (rows : Nat) (cut rse : Bool) : Mcast :=
  ⟨0, 1, 1, 0, 0, 31, rse, 8, false, false, false, Arr.zero, Arr.zero, rows, cut⟩

def aPass : PassRun :=
  ⟨rdyD.capIns 0 .twlMm 3 (insT 0x1400 0 0) [] 0, 0, 1, false, false, 1, [0], [], [], false, 0, 1, 0, 0, false, Arr.zero, .ne⟩

def stoppedB : Block := rdy.onSite 0 (fun x => { x with
  stopped := true, replay := some ⟨0, 0, 0, 0, false⟩, start := some ⟨Arr.zero, Arr.zero, [0, 255], 0⟩ })

def aSample (spare : Nat) : Sample := ⟨spare, 0, 0, 0, 0, 0, 0, none⟩

theorem witness_TwillArray :
    (((loadingSite [aLd]).site 0).flight.find? (fun i => i.op == .twlLd && !i.done) = some aLd ∧ (loadingSite [aLd]).siteOf 0 = 0 ∧
      ((loadingSite [aLd]).site 0).swapWait = false ∧ ((loadingSite [aLd]).site 0).shadow.loading = 1 ∧ (loadingSite [aLd]).regQ = []) ∧
    (∀ rows ∈ [0, 1, 62, 63], ∀ cut rse, let b := { loadingSite [] with mcasts := [aMcast rows cut rse] }
      b.mcasts.find? (fun m => m.l == 0 && m.srcTile == 1) = some (aMcast rows cut rse) ∧ b.served 0 = true ∧ b.held 0 = false ∧
      (b.site 0).shadow.loading = 1 ∧ (b.site 0).shadow.overlap = false ∧ (b.site 0).queue = [] ∧ (b.site 0).semNow = [] ∧
      b.sem 0 31 < 255) ∧
    (let b := rdyD.onSite 0 (fun x => { x with passes := [aPass] })
     (b.site 0).passes = aPass :: [] ∧ aPass.dead = false ∧ aPass.check = false ∧ aPass.int = false ∧ b.sampled 0 aPass = none ∧
      (b.site 0).replay = none ∧ b.regQ = []) ∧
    ((stoppedB.site 0).run = some aStep ∧ (stoppedB.site 0).replay = some ⟨0, 0, 0, 0, false⟩ ∧
      (stoppedB.site 0).start = some ⟨Arr.zero, Arr.zero, [0, 255], 0⟩ ∧ (stoppedB.site 0).stopped = true ∧
      (stoppedB.site 0).noReplay = false) ∧
    (let b := { (rdy.wr TL_SITE.STATE 1 0 16) with samples := [aSample 16] }
     b.samples.find? (fun x => x.site == 0) = some (aSample 16) ∧ b.rd TL_SITE.STATE 0 (aSample 16).spare = 1 ∧ (aSample 16).due = none) :=
  ⟨by decide, by decide, by decide, by decide, by decide⟩

/-- The tile under test with a row of 64 INT32 words of tile register 1 in descriptor 0, and the record of a chain of one
multiply-add of A, B and C at byte 0 of its local store. -/
def rdyR : Block :=
  { rdyD.onSite 0 (fun x => x.setD 0 (1 + 10 * 2 ^ 48 + 2 * 2 ^ 53 + 2 ^ 55 + 64 * 2 ^ 64)) with
    mem := rdyD.mem.storeBs (lsKey 0 0) ([17, 0, 3 + 2 ^ 9 + 2 * 2 ^ 12].flatMap (leBytes 8) ++ List.replicate 104 0) }

/-- No word of the tile under test carries the poison mark, so every condition on its marks holds. -/
theorem clean_rdy (t r c : Nat) : (rdyR.site 0).tpoisAt t r c = false := by
  have : (rdyR.site 0).tpois = [] := by decide
  simp [Site.tpoisAt, this, NSet.mem]

theorem witness_FrondOperations :
    (Ready rdyR 0 0 ∧ rdyR.seedOf 0 ≠ .waiting ∧ (∀ i, RoomFor rdyR 0 i)) ∧
    (∀ d ∈ (rdyR.capIns 0 .frdEw 4 (insT 3 0 0) [] 0).d, dSpace d = 2 ∧ dFmt d = 10 ∧ dNdim d = 1 ∧ dMx d = false ∧ dSize d 0 = 64) ∧
    ewOk (rdyR.capIns 0 .frdEw 4 (insT 3 0 0) [] 0) = true ∧ cvtOk (rdyR.capIns 0 .frdCvt 4 (insT 0 0 0) [] 0) = true ∧
    (let i := rdyR.capIns 0 .frdChn 4 (insT 0 0 0) [] 0
     let a := launch rdyR 0 i
     let r := a.lsBytes 0 0 128
     chnOk i = true ∧ r.1.pois = false ∧ r.2.regQ = [] ∧ r.2.sites = a.sites ∧
      chnParse ((List.range 16).map (fun k => leNat ((r.1.bytes.drop (8 * k)).take 8))) = some (true, 0, [⟨3, 0, 1, 2, 0, 0⟩]) ∧
      chnFits i true [⟨3, 0, 1, 2, 0, 0⟩] = true) ∧
    (0 % 16 = 0 ∧ 0x2FFFF0 % 16 = 0 ∧ 0x2FFFF0 + 16 * 1 ≤ 0x300000 ∧ rdyR.ownHeld 0 0x2FFFF0 16 = [] ∧
      rdyR.relWaits 0 (rdyR.ctxOf 0) 2 (rdyR.ownPa 0 0x2FFFF0) 16 = [] ∧ rdyR.tileOf 0 = 0) :=
  ⟨⟨ready_of (by decide), by decide, fun _ => roomFor_of (by decide)⟩, by decide, by decide, by decide, by decide, by decide⟩

/-- The directory entry of a sharded table of 4,096 rows of 2 elements with updates on, its records at 0x10000 of stack 0. -/
def anEntry : List Nat := [1 + 1 * 2 + 2 * 2 ^ 8 + 1 * 2 ^ 16, 4096, 0x10000, 1, 0, 0, 0, 0x3F80 * 2 ^ 32 + 2 ^ 48]

/-- The same of a table of peat, which `mss.raw` reads. -/
def rawEntry : List Nat := [1 + 2 * 2 + 2 * 2 ^ 8 + 1 * 2 ^ 16, 4096, 2 ^ 40, 1, 0, 2 ^ 40, 0, 0]

/-- The tile under test with a block of one group of one row at byte 0x100, in a usable context, its module owning row 0, and
the directory entries `es` cached. -/
def mossB (es : List (Nat × List Nat)) : Block :=
  let b := ((zeroM.wr GRP_OMAP.VALID 1 0 0).wr GRP_OMAP.NODE 7 0 0).wr XL_NODE.SELF 7
  { b.onSite 0 (fun x => { ((x.setD 0 (desc 0x100 8 96)).setD 1 (desc 0x400 0 4)).setD 2 (desc 0x400 8 32 + 2 ^ 55 + 2 ^ 80) with
      mss := { x.mss with cache := es } }) with
    cctx := [⟨0, true, false, 0⟩], mem := b.mem.storeBs (lsKey 0 0x100) (leBytes 8 (2 ^ 32)) }

/-- A group read by the issue unit of the tile under test: what `MossStarts` asks of it. -/
abbrev ReadsD (a : Block) (i : EngIns) (n : Nat) : Prop :=
  let c := a.ctxEntry 0
  let m := c.2.mssSlot 0 i
  let h := m.lsBytes 0 (dBase i.da) 32
  let x := h.2.lsBytes 0 (dBase i.da + 32) n
  (c.1.isSome = true ∧ c.2.sites = a.sites ∧ (a.site 0).mss.miss = none ∧ SMap.get 0 (a.site 0).mss.read i.id = 0) ∧
  (h.1.pois = false ∧ h.2.regQ = [] ∧ h.2.sites = m.sites ∧ h.1.bytes = leBytes 8 (2 ^ 32) ++ List.replicate 24 0) ∧
  (x.1.pois = false ∧ x.2.regQ = [] ∧ x.2.sites = h.2.sites ∧ x.1.bytes = List.replicate n 0 ∧ a.ctxOf 0 = 0)

/-- A Moss instruction on descriptors 0 and `db`. -/
def insM (db : BitVec 4) : FmtT := ⟨0, db, 0, 0, 0, 0, 0, false, 0, false, 0, 0⟩

theorem witness_MossBags_starts :
    (Ready (mossB []) 0 0 ∧ ∀ i, RoomFor (mossB []) 0 i) ∧
    (∀ x ∈ [(EngOp.mssBag, (1 : BitVec 4), anEntry), (EngOp.mssRaw, 2, rawEntry)],
      let i := (mossB []).capIns 0 x.1 5 (insM x.2.1) [] 0
      tLegal (insM x.2.1) true true false false false false = true ∧ mssOk i = true ∧ ReadsD (launch (mossB []) 0 i) i 32 ∧
      (launch (mossB []) 0 i).held64 0 0 = none ∧ (launch (mossB [(0, x.2.2)]) 0 i).held64 0 0 = some x.2.2 ∧
      (mossB []).entGood x.2.2 = true ∧ bagOk (x.1 == .mssRaw) i.db x.2.2 (2 ^ 32) 0 0 [0, 0, 0, 0] = true ∧
      ((mossB []).partsOf (x.1 == .mssRaw) x.2.2 [(0, 0)]).length = 1) ∧
    (let i := (mossB [(0, anEntry)]).capIns 0 .mssUpd 5 (insM 0) [] 0
     let a := launch (mossB [(0, anEntry)]) 0 i
     let r := a.rowGroups 0 (dBase i.da + 32) 64 1
     mssDaOk i.da = true ∧ ReadsD a i 64 ∧ a.held64 0 0 = some anEntry ∧ eClass anEntry = 1 ∧ eUpd anEntry = true ∧
      r.1.map (·.1) = [0] ∧ r.2.1 = none ∧ r.2.2.1 = true ∧ (a.site 0).log = [] ∧ (a.site 0).noReplay = false) :=
  ⟨⟨ready_of (by decide), fun _ => roomFor_of (by decide)⟩, by decide, by decide⟩

theorem witness_MossBags_parts :
    (let b := mossB []
     b.moss.nextTag < 2 ^ 32 ∧ b.rd XL_NODE.SELF = 7 ∧ b.ownerOfRow 0 = 7 ∧ eClass anEntry = 1 ∧ eClass rawEntry = 2 ∧
      eClass [1 + 2 ^ 24, 4096] = 0 ∧ eRclk [1 + 2 ^ 24, 4096] = false ∧ 8 ≤ 256 / eStride rawEntry) ∧
    (let i := (mossB []).capIns 0 .mssUpd 5 (insM 0) [] 0
     let b := (((mossB []).wr MS_UPD_CTRL.ACCEPT 1).wr MS_BSLOT.OWNED 1 0 0)
     let b := { b with mem := b.mem.storeBs 0 (anEntry.flatMap (leBytes 8)) }
     let a := b.onMss 0 (fun u => { u with groups := [⟨i.id, 0, [(0, none)]⟩], seq := 1 })
     let r := a.contribute 7 0 0 0 ⟨0, 0, 0, 0, [0, 0], false⟩
     (b.site 0).mss.seq = 0 ∧ (b.site 0).mss.groups = [] ∧ r.1 = 0 ∧ r.2.sites = a.sites) := by decide

/-- A part of one row at an engine, of a table whose records have one sector, as entry `ent`. -/
def aPart (reads : List RowRead) : MPart := ⟨11, 0, 7, none, false, 0, 5, 1, 0, [0x10203], [(0, 0)], reads, none⟩

def aBag (sent : Bool) (tags : List Nat) : MssBag := ⟨0, 0, [], false, 0, 0, 0, tags.map (fun t => ⟨t, 1, [0], sent, sent, none, []⟩)⟩

theorem witness_MossBags :
    (let b := { zeroM with moss := { zeroM.moss with waiting := [aPart []] } }
     b.moss.waiting.find? (fun q => q.eng == 11) = some (aPart []) ∧ (aPart []).owner = false ∧ (aPart []).from_ = none ∧
      (b.moss.active.filter (fun x => x.eng == 11)).length < 4096 ∧ 0 + (aPart []).rows.length ≤ 16384 ∧ b.regQ = []) ∧
    (let b := { zeroM with moss := { zeroM.moss with active := [aPart [⟨0, false, 0, []⟩]] } }
     let q := aPart [⟨0, false, 0, []⟩]
     let r := b.engRead 11 q.ctx (b.recAddr q.ent q.tick 11 0) (eStride q.ent) false
     b.partAt 11 0 = some q ∧ q.reads[0]? = some ⟨0, false, 0, []⟩ ∧ r.1.find = 0 ∧ r.2.regQ = []) ∧
    (let q := aPart [⟨1, true, 0, [0]⟩]
     ({ zeroM with moss := { zeroM.moss with active := [q] } } : Block).partAt 11 0 = some q ∧ (∀ r ∈ q.reads, r.done = true) ∧ q.from_ = none) ∧
    (let b := zeroM.onMss 0 (fun u => { u with miss := some 1 })
     b.siteOf 0 = 0 ∧ (b.site 0).mss.miss = some 1 ∧ (b.dirRead 1).2.1 = true) ∧
    (let b := { zeroM with moss := { zeroM.moss with rets := [⟨0, 7, 0, 1, []⟩] } }
     b.moss.rets.find? (fun r => r.l == 0 && r.tag == 7) = some ⟨0, 7, 0, 1, []⟩ ∧ b.served 0 = true ∧
      (b.wr TL_LMAP.VALID 0 0 0).served 0 = false ∧ (b.wr TL_LMAP.VALID 0 0 0).moss.rets = b.moss.rets) ∧
    (let b := zeroM.onMss 0 (fun u => { u with bags := [aBag true [7]], groups := [⟨0, 0, [(9, none)]⟩] })
     (∃ g ∈ (b.site 0).mss.bags, ∃ q ∈ g.parts, q.tag = 7 ∧ q.remote = true ∧ q.sent = true ∧ q.st = none) ∧
     (∃ g ∈ (b.site 0).mss.groups, ∃ c ∈ g.contribs, c = (9, none)) ∧ (b.site 0).mss.packs = []) ∧
    (let b := zeroM.onMss 0 (fun u => { u with bags := [aBag false [7, 8]] })
     (b.site 0).mss.bags.find? (fun g => g.parts.any (fun q => q.tag == 7 && q.st.isNone)) = some (aBag false [7, 8]) ∧ (0 : Nat) ≠ 7 ∧
      (∃ q ∈ (aBag false [7, 8]).parts, q.tag ≠ 7 ∧ q.st = none)) ∧
    ((zeroM.site 0).mss.bags.find? (fun g => g.parts.any (fun q => q.tag == 7 && q.st.isNone)) = none) := by decide

/-- A module that owns bucket 0 and accepts updates to table 0, its tick `now`. -/
def mergeB (now : Nat) (ps : SMap Nat) (es : List MEntry) : Block :=
  let b := ((zeroM.wr MS_UPD_CTRL.ACCEPT 1).wr MS_BSLOT.OWNED 1 0 0).wr TK_COUNT.COUNT now
  { b with mem := b.mem.storeBs 0 (anEntry.flatMap (leBytes 8)), moss := { b.moss with passAt := ps, merge := es } }

def anItem : ContribItem := ⟨0, 0, 0, 5, [0, 0], false⟩

def aMerge (window : Nat) : MEntry := ⟨0, 0, 0, window, anEntry, [⟨1, 2, 3, [0, 0], false⟩], false⟩

theorem witness_MossMerges :
    ([⟨1, 2, 3, [0], false⟩, ⟨1, 2, 4, [0], false⟩] : List Contrib).Perm [⟨1, 2, 4, [0], false⟩, ⟨1, 2, 3, [0], false⟩] ∧
    (let b := mergeB 1 [] []
     (b.dirRead 0).2.1 = true ∧ (b.dirRead 0).2.2.regs = b.regs ∧ (b.dirRead 0).2.2.moss = b.moss ∧
      (b.contribute 4 5 0xFFF 1 anItem).1 = 0 ∧ b.moss.merge = [] ∧ b.now + 1 < 3) ∧
    ((mergeB 1 [] [aMerge 1]).contribute 4 5 0xFFF 1 anItem).1 = 0 ∧
    (SMap.get 0 (mergeB 1 [(0, 2)] []).moss.passAt 0 = (mergeB 1 [(0, 2)] []).now + 1 ∧ 0 + 1 = (mergeB 1 [(0, 2)] []).now) ∧
    ((mergeB 1 [] []).wr MS_UPD_CTRL.ACCEPT 0).on MS_UPD_CTRL.ACCEPT = false ∧
    (let b := mergeB 1 [] [aMerge 0]
     b.regQ = [] ∧ b.moss.merge.filter (fun x => x.eng == 0 && decide (x.window + 1 ≤ 1)) = [aMerge 0] ∧
      (b.dirRead 0).2.2.regQ = [] ∧ (b.dirRead 0).2.2.on MS_BSLOT.OWNED 0 0 = true ∧
      SMap.get 0 b.moss.flips (b.recAddr anEntry 0 0 0) = 0 ∧ (b.wr MS_BSLOT.OWNED 0 0 0).on MS_BSLOT.OWNED 0 0 = false) ∧
    (let b := { mergeB 1 [] [] with moss := { (mergeB 1 [] []).moss with flips := [(0x10000, 2)] } }
     SMap.get 0 b.moss.flips (b.recAddr anEntry 0 0 0) = 2 ∧ 1 < 2 + 1) :=
  ⟨List.Perm.swap _ _ _, by decide, by decide, by decide, by decide, by decide, by decide⟩

theorem witness_SymbolErrors : 2 ^ 128 - 1 < 2 ^ 128 ∧ 17 < 18 ∧ 0 < 255 ∧ 255 < 256 := by decide

/-- Granule 0 carries context 5. -/
def taggedB : Block := { zeroM with tags := [(0, 5)] }

/-- Damask on, node 1's table entry valid. -/
def nodes (b : Block) : Block := { (b.wr DM_CTRL.ENABLE 1).wr DM_NTAB.BASE 1 with mem := b.mem.storeBs (2 ^ 15 + 32) (leBytes 8 1 ++ leBytes 8 0 ++ leBytes 8 0 ++ leBytes 8 (7 * 2 ^ 56)) }

set_option maxRecDepth 20000 in
theorem witness_MemoryRequests :
    (zeroM.regQ = [] ∧ coreOf 512 = none ∧ zeroM.place (12 * 2 ^ 36 - 16) = .hbm 11 (2 ^ 36 - 16) ∧ zeroM.rd MEM_STATUS.STATE 11 ≠ 3 ∧
      (12 * 2 ^ 36 - 16) % 16 = 0 ∧ zeroM.rc = [] ∧ zeroM.sf = []) ∧
    (tagPasses (zeroM.tagAt 0) 5 = true ∧ (zeroM.mem.word 0).dev = 0) ∧ tagPasses (taggedB.tagAt 0) 6 = false ∧
    tagPasses (taggedB.tagAt 0) 5 = true ∧
    (coreOf 513 = some 0 ∧ coreOf 520 = some 7 ∧ (nodes zeroM).openWrites 520 none = [] ∧
      nodeOf (2 ^ 46) ≠ (nodes zeroM).rd XL_NODE.SELF ∧
      ((nodes zeroM).dmRead (nodeOf (2 ^ 46)) 0 520 0 0 128 (.core 7 (2 ^ 46))).1 = true ∧
      ((nodes zeroM).dmWrite (nodeOf (2 ^ 46)) 0 520 1 0 0 [(1, false)] none none).1 = true) :=
  ⟨by decide, by decide, by decide, by decide, by decide, by decide, by decide, by decide, by decide, by decide⟩

theorem witness_AbsentAddresses :
    rdy.regQ = [] ∧ rdy.place (12 * 2 ^ 36) = .absent ∧ rdy.place (0x0200_0000_0000 + 0x30_0000) = .absent ∧
    (∀ k < 16, rdy.place (2 ^ 46 - 16 + k) = .absent) ∧ coreOf 512 = none ∧ coreOf 513 = some 0 ∧
    nodeOf (2 ^ 46 - 16) = rdy.rd XL_NODE.SELF := by decide

/-- A word with two symbols changed, with one, and in its poisoned form. -/
def wordB (w : Cw) : Block := { zeroM.wr MEM_CTRL.SCRUB_EN 1 0 with mem := zeroM.mem.setWord 0 w }

theorem witness_MemoryMaintenance :
    ((wordB ⟨0, 0⟩).memLive 0 = true ∧ (wordB ⟨0, 0⟩).on MEM_CTRL.SCRUB_EN ((wordB ⟨0, 0⟩).locOf 0).1 = true ∧
      (checkWord ((wordB ⟨0, 0⟩).correcting 0) ((wordB ⟨0, 0⟩).getWord 0)).1 = .clean ∧
      (checkWord ((wordB ⟨0, 0xFFFF⟩).correcting 0) ((wordB ⟨0, 0xFFFF⟩).getWord 0)).1 = .poison ∧
      (checkWord ((wordB ((Cw.clean 0).upset 1)).correcting 0) ((wordB ((Cw.clean 0).upset 1)).getWord 0)).1 = .corrected ∧
      (checkWord ((wordB ((Cw.clean 0).upset 257)).correcting 0) ((wordB ((Cw.clean 0).upset 257)).getWord 0)).1 = .uncorrectable) ∧
    (let b := zeroM.wr MEM_STATUS.STATE 1 11
     b.rd MEM_STATUS.STATE 11 = 1 ∧ b.chOut 11 < 4 ∧ bit (b.rd MEM_CHMAP.EFFECTIVE 11) 31 = false ∧ zeroM.rd MEM_STATUS.STATE 11 ≠ 1 ∧
      4 ≤ (b.wr MEM_CHMAP.EFFECTIVE (2 ^ 31 + 7) 11).chOut 11 ∧ bit ((b.wr MEM_CHMAP.EFFECTIVE (2 ^ 31) 11).rd MEM_CHMAP.EFFECTIVE 11) 31 = true) ∧
    (let b := zeroM.wr MEM_STATUS.STATE 2 11
     b.rd MEM_STATUS.STATE 11 = 2 ∧ ∀ k < 16, (b.getWord (11 * 2 ^ 36 + b.rd MEM_STATUS.MIG_PROGRESS 11 * 256 + 16 * k)).dev = 0 ∧
      (b.wr MEM_STATUS.MIG_PROGRESS (b.granules 11 - 1) 11).rd MEM_STATUS.MIG_PROGRESS 11 + 1 = b.granules 11) ∧
    bit (zeroM.rd MEM_PKGMAP.EFFECTIVE (12 + 15 / 4)) (15 % 4) = false ∧
    (zeroM.rd MEM_STATUS.STATE 11 = 0 ∧ zeroM.on MEM_PPR_STATUS.BUSY 11 = false ∧ (zeroM.wr MEM_PPR_STATUS.BUSY 1 11).on MEM_PPR_STATUS.BUSY 11 = true) :=
  ⟨by decide, by decide, by decide, by decide, by decide⟩

def aLine (ln : Nat) : RcLine := ⟨31, ln, 0, .shared, List.replicate 8 ⟨0, 0⟩, 0xFFF, false⟩

theorem witness_RegionCaches :
    (let b := { zeroM with rc := [aLine 0] }
     b.regQ = [] ∧ b.cacheable 127 false = true ∧ b.portBlocked 31 2 0 = false ∧ (∀ y ∈ b.rcSet 31 0, y.bad = false) ∧
      b.rcFind 31 (127 / 128) = some (aLine 0) ∧ tagPasses (aLine 0).tag 5 = true) ∧
    (zeroM.rcFind 31 0 = none ∧ (zeroM.rcWay 31 0).isSome = true ∧ zeroM.misses.filter (fun x => x.region == 31 && sliceOf x.line == sliceOf 0) = []) ∧
    (let x : RcMiss := ⟨31, 0, 2, false, 127, [(0, false)], 5⟩
     let b := { zeroM with misses := [x] }
     b.misses = [x] ∧ b.portBlocked 31 2 0 = true ∧ b.portBlocked 31 3 0 = false ∧ zeroM.rcFind 31 0 = none ∧
      tagPasses (zeroM.tagAt (x.line * 128)) x.ctx = true) ∧
    (let b := zeroM.wr RC_PRELOAD_CNT.COUNT 1 31
     b.on RC_STATUS.PRELOAD_BUSY 31 = false ∧ b.linesOk 0 (b.rd RC_PRELOAD_CNT.COUNT 31) = true ∧
      (b.wr RC_STATUS.PRELOAD_BUSY 1 31).on RC_STATUS.PRELOAD_BUSY 31 = true ∧ b.linesOk (12 * 2 ^ 29) 1 = false) :=
  ⟨by decide, by decide, by decide, by decide⟩

/-- A locked line and a preload, of the region cache clauses beside those above. -/
theorem witness_RegionCaches_locked :
    (let b := { zeroM.wr RC_CTRL.LOCK_MASK 1 31 with rc := [{ aLine 0 with st := .locked }], pre := [⟨31, 1, 0, 2⟩] }
     b.lockedAt 31 0 = some { aLine 0 with st := .locked } ∧ 0 % 16 = 0 ∧ NSet.mem b.isolated (31 / 4) = false ∧
      b.pre.find? (fun x => x.region == 31) = some ⟨31, 1, 0, 2⟩) := by decide

theorem witness_Translations :
    (canonical 0x10008 = true ∧ rdyM.on XL_CTRL.ENABLE = true ∧ rdyM.inval = none ∧ rdyM.regQ = [] ∧
      (rdyM.site 0).tlb.find? (fun e => e.hits 0 0x10008) =
        some ⟨0, 0x10, 12, 0x0200_0000_0000 / 4096, true, true, false, true⟩ ∧
      (⟨0, 0x10, 12, 0x0200_0000_0000 / 4096, true, true, false, true⟩ : TlbE).cause true = 0 ∧
      nodeOf ((⟨0, 0x10, 12, 0x0200_0000_0000 / 4096, true, true, false, true⟩ : TlbE).pa 0x10008) = rdyM.rd XL_NODE.SELF) ∧
    (let b := { zeroM with cctx := [⟨0, true, false, 0⟩], wcache := [⟨0, 0, 0, 0x1000⟩], mem := zeroM.mem.storeBs 0x1080 (leBytes 8 0xC7) }
     let r := (b.inc XL_WALK_CNT.WALKS).tableWords (0x1000 + 8 * bits 0x10008 12 9) 1
     b.on XL_CTRL.ENABLE = true ∧ b.stlb = [] ∧
      b.wcache.find? (fun w => w.ctx == 0 && w.level == 0 && w.prefix_ == 0x10008 / 2 ^ 21 % 2 ^ 36) = some ⟨0, 0, 0, 0x1000⟩ ∧
      r.1 = [0xC7] ∧ r.2.1 = false ∧ r.2.2.regQ = [] ∧ nodeOf ((bits 0xC7 10 44 * 4096 + 0x10008 % 4096) % 2 ^ 56) = r.2.2.rd XL_NODE.SELF) ∧
    (canonical (2 ^ 47) = false ∧ canonical (2 ^ 47 - 1) = true ∧ rdy.on XL_CTRL.ENABLE = false) ∧
    (3 ≤ 3 ∧ bit 0 0 = false ∧ bit 5 0 = true ∧ bit 5 2 = true ∧ bit 5 1 = false ∧ pteCause 0xC7 0 true = 0 ∧ pteCause 1 3 true = 0) :=
  ⟨⟨by decide, by decide, by decide, by decide, by decide, by decide, by decide⟩, by decide, by decide, by decide⟩

/-- An invalidation of everything that has still to reach, and to hear from, the listed sites. -/
def invalB (arrive report : NSet) : Block :=
  { rdyM.wr XL_INVAL_STATUS.BUSY 1 with inval := some ⟨0, 0, 0, 0, arrive, report, []⟩ }

theorem witness_Invalidation :
    ((invalB [0] [0]).regQ = [] ∧ (invalB [0] [0]).on XL_INVAL_STATUS.BUSY = true ∧ rdyM.on XL_INVAL_STATUS.BUSY = false ∧
      (2 : BitVec 2) ≠ 3 ∧ (1 : BitVec 20) ≠ 0) ∧
    ((invalB [0, 575] [0, 575]).inval = some ⟨0, 0, 0, 0, [0, 575], [0, 575], []⟩ ∧ NSet.mem [0, 575] 575 = true) ∧
    (NSet.mem [0] 575 = false ∧ (invalB [0] [575]).drained 575 [] = true) ∧ (invalB [] []).drained 576 [] = true := by decide

theorem witness_TagsAndWindows :
    (zeroM.regQ = [] ∧ zeroM.on XL_TAG_STATUS.BUSY = false ∧ (1 : BitVec 20) ≠ 0 ∧ ∀ k < 1, zeroM.granulePresent (0 + k) = true) ∧
    zeroM.granulePresent (2 ^ 25 - 1) = false ∧
    ({ zeroM with tagSet := some (0, 1, 5) } : Block).tagSet = some (0, 1, 5) ∧
    (zeroM.on XL_WINVAL_STATUS.BUSY = false ∧ (zeroM.wr XL_WINVAL_STATUS.BUSY 1).on XL_WINVAL_STATUS.BUSY = true ∧
      zeroM.heldQ.any (fun x => x.2.isStore) = false ∧
      ({ zeroM with heldQ := [(0, .store 0 0 0 [])] } : Block).heldQ.any (fun x => x.2.isStore) = true) := by decide

/-- A module in an alignment state at a tick, its tick block enabled. -/
def tickB (st now : Nat) : Block := ((Block.reset.wr TK_STATUS.STATE st).wr TK_COUNT.COUNT now).wr TK_CTRL.ENABLE 1

theorem witness_AlignmentStates :
    (∀ st < 7, (tickB st 0).rd TK_STATUS.STATE = st ∧ (tickB st 0).regQ = [] ∧ (tickB st 0).tick.fatal = false ∧ (tickB st 0).rst = none ∧
      (tickB st 0).mrst.pending = none) ∧
    ((tickB 0 0).on DM_PTP_CTRL.SERVO_LOCKED = false ∧ ((tickB 0 0).wr DM_PTP_CTRL.SERVO_LOCKED 1).on DM_PTP_CTRL.SERVO_LOCKED = true) := by
  decide

theorem site_fresh (p : Nat) : Block.reset.site p = Site.fresh := rfl

/-- At reset the group block is off and nothing waits for a boundary; so also with the alignment state of a running module. -/
theorem quiet_tickB (st now : Nat) (h1 : (tickB st now).rd SN_AT.AT_TICK = 0 ∧ (tickB st now).rd SN_GRP_CMD.PEND = 0)
    (h2 : (tickB st now).rd TK_PERIOD_AT.AT_TICK = 0) (h3 : (tickB st now).on GRP_CTRL.ENABLE = false) : Quiet (tickB st now) :=
  ⟨fun _ => ⟨rfl, rfl, rfl⟩, fun _ => ⟨rfl, rfl⟩, rfl, ⟨rfl, rfl⟩, rfl, h1, h2, ⟨h3, rfl⟩, rfl, rfl, rfl⟩

theorem site_lt (st now : Nat) (l : Nat) (h : (tickB st now).rd TL_LMAP.SITE 0 l = l % 16) : (tickB st now).siteOf l = l / 16 * 18 + l % 16 := by
  simp [Block.siteOf, h]

theorem tickB_sites (st : Nat) (h : st = 2 ∨ st = 6) (l : Nat) :
    (tickB st 9).rd TL_LMAP.SITE 0 l = l % 16 := by
  rcases h with rfl | rfl <;> exact rd_untouched (by decide) 0 l

theorem witness_TickBoundaries :
    (2 < 0 + 3 ∧ (1 : W64).toNat < (tickB 2 0).rd TK_COUNT.COUNT + 2 ∧ (tickB 2 0).rd TK_COUNT.COUNT + 2 ≤ (2 : W64).toNat ∧
      (tickB 2 0).on GRP_CTRL.ENABLE = false ∧ ((tickB 2 0).wr GRP_CTRL.ENABLE 1).on GRP_CTRL.ENABLE = true ∧
      ((tickB 2 0).wr GRP_ROLE.ROLE 3).rd GRP_ROLE.ROLE = 3) ∧
    (({ tickB 3 9 with tick := { (tickB 3 9).tick with stopping := true } } : Block).tick.stopping = true ∧
      (tickB 3 9).rd TK_STATUS.STATE = 3 ∧ (tickB 3 9).rd TK_CTRL.SOURCE = 0 ∧ (tickB 3 9).tick.stepped = false) ∧
    (let a := (tickB 2 9).wr TK_PERIOD_AT.AT_TICK 9
     a.rd TK_PERIOD_AT.AT_TICK ≠ 0 ∧ a.rd TK_PERIOD_AT.AT_TICK ≤ a.rd TK_COUNT.COUNT ∧ (tickB 2 8).rd TK_COUNT.COUNT < 9) ∧
    (∀ st, st = 2 ∨ st = 6 → Quiet (tickB st 9) ∧ (tickB st 9).tick.fatal = false ∧ (tickB st 9).rd TK_STATUS.STATE = st ∧
      (∀ l < 512, (tickB st 9).rd TL_LMAP.SITE 0 l < 18) ∧
      (∀ l < 512, ∀ k < 512, (tickB st 9).siteOf l = (tickB st 9).siteOf k → l = k)) ∧ (tickB 6 9).rd TK_COUNT.COUNT < (10 : W64).toNat := by
  refine ⟨by decide, by decide, by decide, fun st h => ?_, by decide⟩
  have hs := tickB_sites st h
  refine ⟨?_, ?_, ?_, fun l _ => by rw [hs l]; omega, fun l _ k _ he => ?_⟩
  · rcases h with rfl | rfl <;> exact quiet_tickB _ _ (by decide) (by decide) (by decide)
  · rcases h with rfl | rfl <;> decide
  · rcases h with rfl | rfl <;> decide
  · rw [site_lt _ _ l (hs l), site_lt _ _ k (hs k)] at he
    omega

theorem witness_StepsAtBoundary :
    ((rdy.site 0).run = some aStep ∧ aStep.d.pack = false ∧ aStep.d.soft = false) ∧
    (let r := { aStep with d := { aStep.d with soft := true } }
     let a := (rdy.onSite 575 (fun x => { x with run := some r })).wr TK_CTRL.SOFT_SPILL_EN 1
     (a.site 575).run = some r ∧ r.d.soft = true ∧ r.spilled = false ∧ a.on TK_CTRL.SOFT_SPILL_EN = true) ∧
    (let b := Block.reset.onSite 0 (fun x => { x with draining := true })
     b.regQ = [] ∧ b.served 0 = true ∧ (b.site (b.siteOf 0)).draining = true ∧ (b.site (b.siteOf 0)).run = none ∧
      (b.site (b.siteOf 0)).copying = false ∧ (b.site (b.siteOf 0)).todo = []) ∧
    (let b := Block.reset.onSite 0 (fun x => { x with draining := true, todo := [aStep] })
     (b.site (b.siteOf 0)).todo = aStep :: [] ∧ b.isTerm aStep.d.ctx = false ∧ aStep.d.swap = false) := by decide

theorem witness_Plans :
    (Block.reset.regQ = [] ∧ ({ Block.reset with tick := { Block.reset.tick with fatal := true } } : Block).tick.fatal = true ∧
      Block.reset.tick.fatal = false ∧ Block.reset.on BK_CTRL.ENABLE = false) ∧
    (let b := (tickB 2 9).wr BK_CTRL.ENABLE 1
     b.on BK_CTRL.ENABLE = true ∧ b.bk.closedTick < 10 ∧ ({ b with bk := { b.bk with closedTick := 10 } } : Block).bk.closedTick = 10 ∧
      b.bk.cmds = [] ∧ b.bk.segs = [] ∧ b.bk.steps = [] ∧ (b.wr FLT_TP_CTRL.EN 0).on FLT_TP_CTRL.EN = false) ∧
    (let b := { zeroM with bk := { zeroM.bk with loads := [⟨0, 15, 1, 0⟩] } }
     b.bk.loads = [⟨0, 15, 1, 0⟩] ∧ b.siteOf 0 < 576 ∧ b.nextBank (b.siteOf 0) = PlanBank.empty) ∧
    (let b := { zeroM with bk := { zeroM.bk with seedReads := [⟨0, (zeroM.site 0).bank0.tick, 31, 5, 8⟩] } }
     b.bk.seedReads.find? (fun q => q.site == 0 && q.index == 31) = some ⟨0, (zeroM.site 0).bank0.tick, 31, 5, 8⟩ ∧
      (b.mread 5 8 8).1.tagFail = false ∧ (b.mread 5 8 8).1.pois = false) := ⟨by decide, by decide, by decide, by decide⟩

theorem witness_Retirement :
    (Block.reset.regQ = [] ∧ bit (Block.reset.rd TL_MAP_STATUS.PENDING) 31 = false ∧ Block.reset.served 511 = true ∧
      Block.reset.rd TL_RETIRE_AT.AT_TICK = 0 ∧ Block.reset.freeSpare 31 ≠ none ∧ Block.reset.rd TL_SITE.STATE 0 (31 * 18 + 17) = 1 ∧
      (511 : BitVec 9).toNat / 16 = 31) ∧
    bit ((Block.reset.wr TL_MAP_STATUS.PENDING (2 ^ 31)).rd TL_MAP_STATUS.PENDING) 31 = true ∧
    (copyingB.retires.find? (fun r => r.region == 0 && r.copying) = some ⟨0, 0, some 16, 0, 1, 0, false, true⟩ ∧ copyingB.heldQ = [] ∧ copyingB.rst = none ∧ (copyingB.site (copyingB.siteOf 0)).todo = []) ∧
    (0 < 576 ∧ 575 < 576 ∧ (0 : Nat) ≠ 575) ∧
    (let r : Retire := ⟨31, 511, some 16, 573, 1, 0, false, false⟩
     let b := (Block.reset.wr TL_SITE.STATE 3 0 574).wr TL_SITE.STATE 3 0 575
     Block.reset.siteOf 511 = 573 ∧ Block.reset.spareFor r = some 16 ∧ 31 * 18 + 16 ≠ 573 ∧ b.spareFor r = none) := by decide

theorem witness_RegisterAccesses :
    (1 < 2 ^ TK_CTRL.ENABLE.width ∧ TK_CTRL.ENABLE.acc = .rw ∧ TK_COUNT.COUNT.acc = .ro ∧ TK_OVERRUN_CNT.OVERRUN_STEPS.acc = .rc ∧
      TK_STATUS.PLAN_LATE.acc = .w1c ∧ Block.reset.rd TK_STATUS.PLAN_LATE < 2 ^ TK_STATUS.PLAN_LATE.width ∧
      (({ TK_STATUS.PLAN_LATE with acc := .w1s } : Field).acc = .w1s ∧ allFields.any (fun f => f.acc == .wo) = true)) ∧
    (Block.reset.regQ = [] ∧ Block.reset.rd TK_STATUS.PLAN_LATE < 2 ∧ Block.reset.rd TK_STATUS.CFG_ERR < 2 ∧
      Block.reset.rd TK_STATUS.RESYNCED < 2 ∧ (4 : W64).toNat / 2 % 4 > 1) ∧
    (Block.reset.isUnmapped 4 4 = true ∧ Block.reset.isUnmapped (2 ^ 32 - 8) 8 = true ∧ Block.reset.isUnmapped 0 8 = false) ∧
    (2 < (3 : BitVec 4).toNat ∧ (2 : BitVec 4).toNat ≤ 2 ∧ Block.reset.rd MS_CTRL.PRESET 11 ≤ 2 ∧
      Block.reset.on MS_CTRL.EXPERT_EN 11 = false ∧ (Block.reset.wr MS_CTRL.EXPERT_EN 1 11).on MS_CTRL.EXPERT_EN 11 = true ∧
      (25 ≤ (100 : BitVec 7).toNat ∧ (100 : BitVec 7).toNat ≤ 100 ∧ 16 ≤ (128 : BitVec 8).toNat ∧ (128 : BitVec 8).toNat ≤ 128)) :=
  ⟨by decide, by decide, by decide, by decide⟩

/-- Queue 3 under context 5, its ring at virtual 0x10000, in a state with a read out. -/
def aQueue (st rd cons prod tries : Nat) : Queue := ⟨3, 5 * 2 ^ 16 + 2 * 2 ^ 40, 0x10000, 0, 0, st, 0, false, cons, prod, 0, rd, tries, false⟩

/-- The translation of virtual page 0x10 of context 5: the first page of HBM. -/
def aPage : TlbE := ⟨5, 0x10, 12, 0, true, true, false, true⟩

/-- Bracken enabled, its slot 0 too, with queue 3 and `bs` at the start of HBM, where the ring lies; doorbells lie at 0x10000. -/
def ringB (x : Queue) (bs : List Byte) : Block :=
  let b := ((zeroM.wr BK_CTRL.ENABLE 1).wr BK_SLOT.EN 1 0 0).wr BK_DB.BASE 1
  { b with stlb := [aPage], bk := { b.bk with queues := [x] }, mem := b.mem.storeBs 0 bs }

/-- A STEPS entry of one step, current on the first lap; and a stale one. -/
def anEnt (phase : Nat) : List Byte := leBytes 8 phase ++ List.replicate 48 0 ++ leBytes 8 (2 ^ 32 + 1)

theorem witness_QueueOperations :
    (zeroM.regQ = [] ∧ zeroM.qState 1023 = 0 ∧ ∀ st < 6, (ringB (aQueue st 0 0 0 0) []).qState 3 = st ∧ (ringB (aQueue st 0 0 0 0) []).regQ = []) ∧
    (let b := ((((zeroM.wr BK_SLOT.EN 1 0 0).wr BK_QCMD.QUEUE 1023).wr BK_QCMD.OP 1).wr BK_QCMD.SKIP 7)
     (b.tableWords (zeroM.rd BK_QTAB.BASE * 2 ^ 16 + 64 * 1023) 8).2.1 = false ∧
      (zeroM.wr BK_SLOT.EN 1 0 0).queueOk (b.tableWords (zeroM.rd BK_QTAB.BASE * 2 ^ 16 + 64 * 1023) 8).1 = true ∧
      (zeroM.wr BK_SLOT.EN 0 0 0).queueOk (b.tableWords (zeroM.rd BK_QTAB.BASE * 2 ^ 16 + 64 * 1023) 8).1 = false) ∧
    ((ringB (aQueue 5 0 0 4 0) []).queue 3 = some (aQueue 5 0 0 4 0) ∧ (ringB (aQueue 5 0 0 4 0) []).bkRuns = true) ∧
    (zeroM.on BK_CTRL.ENABLE = false ∧ zeroM.bk.cmds = [] ∧ zeroM.bk.watches = [] ∧
      ∀ h < 8, zeroM.rd BK_WORK_DB.CONS 0 h = zeroM.rd BK_WORK_DB.PROD 0 h) := ⟨by decide, by decide, by decide, by decide⟩

/-- The read of an entry of queue 3. -/
def entOf (x : Queue) (bs : List Byte) : BRes × Block := (ringB x bs).bread x.ctx (sext48 (x.ringVa + 64 * (x.cons % x.size))) 64 none

theorem witness_RingEntries :
    (let x := aQueue 1 2 0 0 0
     let b := ringB x []
     b.regQ = [] ∧ b.bkRuns = true ∧ b.queue 3 = some x ∧ x.st ≠ 4 ∧ x.rd = 2 ∧
      (b.mread x.ctx (b.rd BK_DB.BASE * 2 ^ 16 + 64 * x.q) 8).1.tagFail = false ∧
      (b.mread x.ctx (b.rd BK_DB.BASE * 2 ^ 16 + 64 * x.q) 8).1.pois = false ∧
      (({ b with tags := [(0, 6)] } : Block).mread x.ctx (b.rd BK_DB.BASE * 2 ^ 16 + 64 * x.q) 8).1.tagFail = true) ∧
    (let x := aQueue 2 1 0 1 0
     (entOf x (anEnt 1)).1.fail = 0 ∧ (words64 8 (entOf x (anEnt 1)).1.bytes).getD 0 0 % 256 = phaseOf x.cons x.size ∧
      entryBad (words64 8 (entOf x (anEnt 1)).1.bytes) = false ∧ bit ((words64 8 (entOf x (anEnt 1)).1.bytes).getD 0 0) 12 = false ∧
      bits ((words64 8 (entOf x (anEnt 1)).1.bytes).getD 0 0) 8 3 = 0 ∧ (ringB x (anEnt 1)).roomFor x = true ∧
      (ringB x (anEnt 1)).isTerm x.ctx = false ∧ (ringB x (anEnt 1)).bk.watches = [] ∧ (ringB x (anEnt 1)).bk.cmds = [] ∧
      (ringB x (anEnt 1)).bk.steps = [] ∧ phaseOf 0 x.size ≠ 0) ∧
    ((entOf (aQueue 2 3 0 1 63) (anEnt 0)).1.fail = 0 ∧
      bits ((words64 8 (entOf (aQueue 2 3 0 1 63) (anEnt 0)).1.bytes).getD 0 0) 0 8 ≠ phaseOf 0 64) := ⟨by decide, by decide, by decide⟩

/-- A watch of queue 3 on the word at offset 0x40, waiting for the value 0 or 1. -/
def aWatch (thr : Nat) (remote reading : Bool) (ticks : Option Nat) : Watch :=
  ⟨3, 0x10040, some (if remote then 2 ^ 46 else 0x40), remote, 1, thr, 0, true, reading, ticks, words64 8 (anEnt 1)⟩

def watchB (w : Watch) : Block := { ringB (aQueue 3 0 0 1 0) [] with bk := { (ringB (aQueue 3 0 0 1 0) []).bk with watches := [w] } }

/-- The watch not reading, its page here or at node 1, or nowhere. -/
def rereadB (remote : Bool) (ps : List TlbE) : Block :=
  { nodes ((watchB (aWatch 0 remote false none)).wr XL_CTRL.ENABLE 1) with stlb := ps, cctx := [⟨5, true, true, 0⟩] }

/-- Virtual page 0x10 of context 5 at node 1. -/
def farPage : TlbE := ⟨5, 0x10, 12, 2 ^ 34, true, true, false, true⟩

set_option maxRecDepth 20000 in
theorem witness_Watches :
    (∀ thr < 2, let b := watchB (aWatch thr false true none)
     let x := aQueue 3 0 0 1 0
     b.regQ = [] ∧ b.bkRuns = true ∧ b.bk.watches = [aWatch thr false true none] ∧ b.queue 3 = some x ∧ x.q = 3 ∧
      (b.mread x.ctx (offOf 0x40 / 8 * 8) 8).1.tagFail = false ∧ (b.mread x.ctx (offOf 0x40 / 8 * 8) 8).1.pois = false ∧
      waitMet 1 ((aWatch thr false true none).pick (leNat (b.mread x.ctx (offOf 0x40 / 8 * 8) 8).1.bytes)) thr 0 = (thr == 0) ∧
      b.roomFor x = true ∧ b.isTerm x.ctx = false ∧ b.bk.cmds = [] ∧ bits ((aWatch thr false true none).ent.getD 0 0) 8 3 ≠ 1 ∧
      (b.wr BK_CTRL.ENABLE 0).bkRuns = false) ∧
    (∀ remote, let b := rereadB remote [aPage]
     (b.xlate 5 0x10040 false).1.cause = 0 ∧ nodeOf (b.xlate 5 0x10040 false).1.pa = (b.xlate 5 0x10040 false).2.rd XL_NODE.SELF ∧
      (b.xlate 5 0x10040 false).2.regQ = [] ∧ b.bk.watches = [aWatch 0 remote false none] ∧ (aWatch 0 remote false none).reading = false) ∧
    (let b := rereadB true [farPage]
     (b.xlate 5 0x10040 false).1.cause = 0 ∧ nodeOf (b.xlate 5 0x10040 false).1.pa = 1 ∧ (b.xlate 5 0x10040 false).2.rd XL_NODE.SELF = 0 ∧
      (b.xlate 5 0x10040 false).2.hasPath 1 0 512 = true) ∧
    ((rereadB false []).xlate 5 0x10040 false).1.cause ≠ 0 ∧
    ((aQueue 3 0 0 1 0).waitTicks ≠ 0 ∧ (aQueue 3 0 0 1 0).waitTicks ≤ (aWatch 1 false false (some 2)).ticks.getD 0 ∧
      (aWatch 1 false false (some 1)).ticks.getD 0 < (aQueue 3 0 0 1 0).waitTicks) :=
  ⟨by decide, by decide, by decide, by decide, by decide, by decide⟩

/-- A command of queue 3: its completion address, whether it has a record already. -/
def aCmd (complVa incVa : Nat) (issued inc : Bool) : Cmd :=
  ⟨9, 3, 0, 5, 0, 1, 0, 1, 1, 0, complVa, inc, incVa, 1, 0, 0, false, false, issued, none, false, 0, 0, none, false⟩

def aRec (c : Cmd) (phase : Nat) : CRec := ⟨c, 0, 0, 0, false, none, phase, 0, false, false, false⟩

def cmdB (c : Cmd) (rs : List CRec) : Block :=
  let b := (ringB (aQueue 1 0 0 1 0) []).wr XL_CTRL.ENABLE 1
  { b with bk := { b.bk with cmds := [c], recs := rs } }

theorem witness_WorkRecords :
    ((cmdB (aCmd 0 0 false false) []).on BK_CTRL.ENABLE = true ∧ (cmdB (aCmd 0 0 false false) []).workCmd 8 = none ∧
      (cmdB (aCmd 0 0 false false) []).workCmd 9 = some (aCmd 0 0 false false) ∧ (cmdB (aCmd 0 0 false false) []).regQ = []) ∧
    (64 < (65 : BitVec 7).toNat ∧ (64 : BitVec 7).toNat ≤ 64 ∧ (64 : BitVec 7) ≠ 0 ∧ (16 ≤ (31 : BitVec 8).toNat ∧ (31 : BitVec 8).toNat ≤ 31)) ∧
    (let b := { cmdB (aCmd 0 0 false false) [] with bk := { (cmdB (aCmd 0 0 false false) []).bk with segs := [⟨9, 0, 0, 0, 0, 0, 1, 0, 0, none⟩] } }
     b.bk.segs.any (fun g => g.tag == 9) = true) ∧
    (cmdB (aCmd 0 0 false false) []).rd BK_WORK_DB.CONS 0 7 = 0 := by decide

theorem witness_CompletionRecords :
    (let c := aCmd 8 0 false false
     let b := cmdB c [aRec c 0]
     b.regQ = [] ∧ b.bk.recs = [aRec c 0] ∧ b.cmd 9 = some c ∧ c.lost = false ∧ (aRec c 0).bad = false ∧ (aRec c 0).src = none ∧
      b.recReady (aRec c 0) = true ∧ b.bkRuns = true ∧ b.tick.fatal = false ∧ c.complVa % 32 ≠ 0 ∧ b.bk.cmds = [c] ∧
      b.bk.segs = [] ∧ b.bk.steps = []) ∧
    (aCmd 0 0 true false).issued = true ∧
    (let c := aCmd 0x10040 0 false false
     let b := cmdB c [aRec c 0]
     b.recReady (aRec c 0) = true ∧ c.complVa % 32 = 0 ∧ canonical (sext48 c.complVa) = true ∧ b.on XL_CTRL.ENABLE = true ∧
      b.stlb.find? (fun e => e.hits c.qctx (sext48 c.complVa)) = some aPage ∧ aPage.cause true = 0 ∧
      nodeOf (aPage.pa (sext48 c.complVa)) = b.rd XL_NODE.SELF ∧ offOf (aPage.pa (sext48 c.complVa)) % 32 = 0 ∧
      b.place (offOf (aPage.pa (sext48 c.complVa))) = .hbm 0 0x40 ∧ b.rd MEM_STATUS.STATE 0 ≠ 3 ∧
      tagPasses (b.tagAt (offOf (aPage.pa (sext48 c.complVa)))) c.qctx = true ∧ b.rc = [] ∧ b.sf = []) ∧
    (let c := aCmd 0 4 true true
     let b := cmdB c [aRec c 2]
     b.bk.recs = [aRec c 2] ∧ (aRec c 2).phase = 2 ∧ b.openWrites (b.recSrc (aRec c 2)) (some c.qctx) = [] ∧ c.incVa % 8 ≠ 0 ∧
      b.dm.send = [] ∧ b.dm.holds = [] ∧ b.heldQ = []) ∧
    (let c := aCmd 0 0x10040 true true
     let b := cmdB c [aRec c 2]
     let t := b.xlate c.qctx (sext48 c.incVa) true
     c.incVa % 8 = 0 ∧ c.route = false ∧ t.1.cause = 0 ∧ nodeOf t.1.pa = t.2.rd XL_NODE.SELF ∧
      (t.2.matomic c.qctx (offOf t.1.pa) 8 0 c.incVal 0).2.2.1 = .ok) ∧
    (let x := { aQueue 1 0 0 1 0 with pub := true, consVa := 0x10040 }
     let b := ringB x []
     b.queue 3 = some x ∧ x.pub = true ∧ x.consVa ≠ 0 ∧
      ((b.onQueue 3 (fun y => { y with pub := false })).bwrite 0 512 5 (sext48 x.consVa) (plain (leBytes 8 0)) 1 none).2.regQ = []) :=
  ⟨by decide, by decide, by decide, by decide, by decide, by decide⟩

/-- A module on the network: node 1 known at address 7, Damask on, sub-port 0 in service. -/
def netB : Block := { nodes zeroM with ports := { (nodes zeroM).ports with up := [0] } }

def anAssoc (tx : Bool) : Assoc := ⟨0, tx, 3, [0, 0, 0, 0], 0, 0, 5⟩

theorem witness_LinksAndFrames :
    (let b := (netB.wr DM_PCTRL.ENABLE 1 0).wr DM_PCTRL.MODE 5 0
     b.regQ = [] ∧ b.subExists 3 = true ∧ (b.wr DM_PCTRL.MODE 0 0).subExists 3 = false ∧ (b.wr DM_PCTRL.MODE 0 0).subExists 0 = true) ∧
    (NSet.mem netB.ports.up 0 = true ∧ NSet.mem netB.ports.up 63 = false) ∧
    (netB.on DM_PCTRL.MSEC_EN 0 = false ∧ (netB.wr DM_PCTRL.MSEC_EN 1 0).on DM_PCTRL.MSEC_EN 0 = true ∧ netB.clearFrame 0 .ptpEth = false) ∧
    ((0 : BitVec 128).toNat = netB.nodeAddress ∧ (1 : BitVec 128).toNat ≠ netB.nodeAddress ∧ netB.on DM_CTRL.ENABLE = true) ∧
    (let b := { netB with ports := { netB.ports with assocs := [anAssoc false] } }
     netB.ports.assocs.find? (fun a => !a.tx && a.sub == 0 && a.an == 3) = none ∧
      b.ports.assocs.find? (fun a => !a.tx && a.sub == 0 && a.an == 3) = some (anAssoc false) ∧ (4 : W64).toNat < (anAssoc false).pn ∧
      (anAssoc false).pn ≤ (5 : W64).toNat) := by decide

theorem witness_MacsecAndClock :
    (netB.regQ = [] ∧ (netB.wr SV_STATUS.LOCKED 1).on SV_STATUS.LOCKED = true ∧ (netB.wr SV_STATUS.LOCKED 0).on SV_STATUS.LOCKED = false) ∧
    (let b := { netB with ports := { netB.ports with assocs := [anAssoc true] } }
     (∃ a ∈ b.ports.assocs, a.sub = 0 ∧ a.tx = true ∧ a.an = 3) ∧ ∀ a ∈ netB.ports.assocs, ¬ (a.sub = 0 ∧ a.tx = true ∧ a.an = 3)) ∧
    (let b := netB.wr DM_PTP_CTRL.ENABLE 1
     let size := 2 ^ (b.rd DM_PTP_RX.LOG2_SIZE + 4)
     netB.on DM_PTP_CTRL.ENABLE = false ∧ b.on DM_PTP_CTRL.ENABLE = true ∧ NSet.mem b.ports.up 0 = true ∧ NSet.mem b.ports.up 63 = false ∧
      ¬ size ≤ (b.rd DM_PTP_IDX.RX_PROD + 2 ^ 16 - b.rd DM_PTP_IDX.RX_CONS) % 2 ^ 16 ∧
      size ≤ ((b.wr DM_PTP_IDX.RX_PROD size).rd DM_PTP_IDX.RX_PROD + 2 ^ 16 - b.rd DM_PTP_IDX.RX_CONS) % 2 ^ 16 ∧
      (b.mwrite 0xFFF (b.rd DM_PTP_RX.BASE * 2 ^ 12) (plain (ptpEntry 1 0 ⟨0, 0⟩ [1]))).2.regQ = [] ∧
      b.rd DM_PTP_IDX.TX_CONS = (0 : BitVec 16).toNat) := ⟨by decide, by decide, by decide⟩

/-- Queue pair 0xFFF, READY, with or without a receive queue, and with the operations it waits for. -/
def aQp (rq : Bool) (reqs : List (Nat × Nat × Bool × Nat × Nat)) : Qp :=
  ⟨0xFFF, 1, 1024, 0, rq, 4, 0x1234, 10, 0, 2, 3, 0, 1, 9, 0x10000, 0, 1, 5, 0, 0, false, [], 4, false, false, reqs⟩

/-- A window of the first 4 KiB of HBM under context 5. -/
def aWin : WinE := ⟨0, 8191, true, true, true, true, 5, 4, 3, 0x1000, 4096, 0⟩

def rdmaB (q : Qp) : Block := { netB with wins := [aWin], qps := [q], stlb := [aPage] }

def aPkt : RocePkt := ⟨0x1FFF, 10, 0, true, false, false⟩

/-- The target at the last 16 bytes of the window. -/
def aTarget : RoceTarget := ⟨8191 + 3 * 2 ^ 13, 0x1FF0⟩

theorem inOrder_rdmaB (rq : Bool) : InOrder (rdmaB (aQp rq [])) aPkt (aQp rq []) := by
  cases rq <;>
  exact ⟨by decide, by decide, by decide, by decide, by decide, by decide, by decide, by decide, by decide,
    fun i => (on_untouched (by decide) i 0).trans rfl, by decide⟩

theorem atHbm_rdmaB (perm : WinE → Bool) (h : perm aWin = true) : AtHbm (rdmaB (aQp true [])) aPkt aTarget (aQp true []) aWin perm 0xFF0 16 :=
  ⟨by decide, by decide, by decide, h, by decide, by decide, by decide, by decide, by decide, ⟨0, 0xFF0, by decide⟩, by decide, by decide⟩

theorem witness_RoceRequests :
    ((rdmaB (aQp true [])).regQ = [] ∧ (rdmaB (aQp true [])).netTakes aPkt.sub = true ∧
      ({ aPkt with qpn := 0xFFF } : RocePkt).qpn.toNat < 0x1000 ∧ 0x2000 ≤ ({ aPkt with qpn := 0x2000 } : RocePkt).qpn.toNat ∧
      (netB.qp 0).elim 0 (·.st) ≠ 1) ∧
    InOrder (rdmaB (aQp true [])) aPkt (aQp true []) ∧ InOrder (rdmaB (aQp false [])) aPkt (aQp false []) ∧
    (AtHbm (rdmaB (aQp true [])) aPkt aTarget (aQp true []) aWin (·.wr) 0xFF0 16 ∧
      AtHbm (rdmaB (aQp true [])) aPkt aTarget (aQp true []) aWin (·.rd) 0xFF0 16 ∧
      AtHbm (rdmaB (aQp true [])) aPkt aTarget (aQp true []) aWin (·.atom) 0xFF0 16) ∧
    (((rdmaB (aQp true [])).mem.word (0xFF0 / 16)).dev = 0 ∧ 16 ≤ (aQp true []).pmtu ∧ aTarget.addr.toNat % 8 = 0) ∧
    (let q := aQp true []
     let b := (rdmaB q).onQp q.i (fun y => { y with nakSent := false, epsn := (y.epsn + 1) % 2 ^ 24 })
     (rdmaB q).slotFree q = true ∧ [(1 : Byte)].length ≤ q.slotSize - 32 ∧ (b.fillSlot q [1] 1 0 none 10).1 = true ∧ (b.fillSlot q [1] 1 0 none 10).2.regQ = [] ∧
      (b.fillSlot q [] 16 1 (some 6) 10).1 = true ∧ (b.fillSlot q [] 16 1 (some 6) 10).2.regQ = []) :=
  ⟨by decide, inOrder_rdmaB true, inOrder_rdmaB false,
    ⟨atHbm_rdmaB _ rfl, atHbm_rdmaB _ rfl, atHbm_rdmaB _ rfl⟩, by decide, by decide⟩

/-- An entry of the queue pair table that keeps its rules: VALID, ACK_TIMEOUT 1. -/
def qpB (w0 : Nat) : Block := { netB with mem := netB.mem.storeBs (64 * 0xFFF) (leBytes 8 w0 ++ leBytes 8 (2 ^ 59)) }

theorem witness_QueuePairs :
    (let a := fun (w : Nat) => (((qpB w).wr DM_QPCMD.QP 0xFFF).wr DM_QPCMD.OP 1).tableWords ((qpB w).rd DM_QPT.BASE * 2 ^ 16 + 64 * 0xFFF) 8
     ((qpB 1).qp 0xFFF).elim 0 (·.st) = 0 ∧ (a 1).2.1 = false ∧ qpOk (a 1).1 = true ∧ qpOk (a 0).1 = false ∧ (qpB 1).regQ = []) ∧
    (((rdmaB (aQp true [])).qp 0xFFF).elim 0 (·.st) ≠ 0 ∧ (rdmaB (aQp true [])).qp 0xFFF = some (aQp true [])) ∧
    (∀ used < 4, let q := aQp true [(8, 9, false, used, used)]
     (rdmaB q).qpOf aPkt = some q ∧ (rdmaB q).bk.recs = [] ∧ q.st = 1 ∧ q.rnrRetry ≠ 7 ∧
      (q.retryCnt ≤ used ∨ used < q.retryCnt) ∧ (q.rnrRetry ≤ used ∨ used < q.rnrRetry)) ∧
    ((0x20 : BitVec 8).toNat / 32 = 1 ∧ (0x61 : BitVec 8).toNat / 32 ≠ 1) := ⟨by decide, by decide, by decide, by decide⟩

/-- A message of node 1 to this module, on path 2. -/
def aHdr (seq : BitVec 32) : DmHdr := ⟨1, 0, 1, 7, 2, seq, false, 0, 5, 0x40, false, 0⟩

def aPath (dirty : Bool) : RecvPath := ⟨1, 2, 0, [], [], [], 0, dirty, false, false⟩

/-- `b` with a receive path from node 1. -/
def recvB (b : Block) : Block :=
  { b with dm := { b.dm with recv := [aPath false] }, ports := { b.ports with up := [0] } }

theorem takes_recvB : Takes (recvB netB) (aHdr 1) := ⟨by decide, by decide, by decide, by decide, by decide⟩

theorem next_recvB : NextMsg (recvB netB) (aHdr 1) (aPath false) := ⟨takes_recvB, by decide, by decide, by decide⟩

/-- A module that owns bucket 0 of table 0 and has a receive path from node 1. -/
def ownB : Block := recvB (nodes (mergeB 1 [] []))

theorem next_ownB : NextMsg ownB (aHdr 1) (aPath false) :=
  ⟨⟨by decide, by decide, by decide, by decide, by decide⟩, by decide, by decide, by decide⟩

/-- The write of the step of the tile under test that a WRITE_ERR names. -/
def anIssuer : Issuer := ⟨0, 7, 3, 0, 2, 0, 0⟩

/-- A send path to node 1 with the messages it waits for. -/
def aSend (ms : List DmMsg) (acked : List (Nat × Issuer)) : SendPath := ⟨2, 1, 0, 0, 1, 4, 0, 0, ms, [], acked, false⟩

def aMsg (type sends : Nat) : DmMsg := ⟨0, 1, type, 0, 5, 0, [0, 8], [], 0, none, none, sends, 0, none⟩

def sendB (ms : List DmMsg) (acked : List (Nat × Issuer)) : Block :=
  { recvB netB with dm := { (recvB netB).dm with send := [aSend ms acked] } }

theorem witness_DamaskMessages :
    NextMsg (recvB netB) (aHdr 1) (aPath false) ∧
    (0x40 % 16 = 0 ∧ (recvB netB).place 0x40 = .hbm 0 0x40 ∧ (recvB netB).rd MEM_STATUS.STATE 0 ≠ 3 ∧
      tagPasses ((recvB netB).tagAt 0x40) 5 = true ∧ (recvB netB).rc = [] ∧ (recvB netB).sf = [] ∧ ((recvB netB).mem.word (0x40 / 16)).dev = 0) ∧
    (let b := { recvB netB with dm := { (recvB netB).dm with tags := [⟨3, 0, .load 0, 8, 8, 0, 5, none⟩] } }
     b.dm.tags = [⟨3, 0, .load 0, 8, 8, 0, 5, none⟩] ∧ 0 < 8 ∧ (1 : BitVec 8) ≠ 0 ∧ (1 : BitVec 8) ≠ 2) ∧
    (let b := sendB [] [(1, anIssuer)]
     let t := taken b (aHdr 1)
     b.dm.send.find? (fun p => p.id == 2 && p.node == 1) = some (aSend [] [(1, anIssuer)]) ∧ (recvB netB).dm.send.find? (fun p => p.id == 2 && p.node == 1) = none ∧
      b.ownerRuns ((aSend [] [(1, anIssuer)]).writer 1) = some anIssuer ∧ anIssuer.site < 576 ∧
      (t.raiseLate ((aSend [] [(1, anIssuer)]).writer 1) xTag).regQ = []) ∧
    (0 + 1 < 2 ∧ (recvB netB).rd TK_COUNT.COUNT = 0 ∧ (recvB netB).storeUse 0 + (([[0]] : List (List Nat)).map (fun q => partUnits q.length)).sum ≤ 65536) ∧
    NextMsg ownB (aHdr 1) (aPath false) ∧
    (let t := taken ownB (aHdr 1)
     (t.ownerCheck 0 1 [0]).1 = 0 ∧ (t.ownerCheck 0 1 [0]).2.2.moss = ownB.moss ∧ (t.ownerCheck 0 1 [0]).2.2.dm = t.dm ∧
      (t.ownerCheck 0 1 [0]).2.2.regQ = [] ∧ ownB.rd TK_COUNT.COUNT ≤ 1 + 1 ∧
      (t.contribute 1 5 0xFFF 1 anItem).2.dm.recv = t.dm.recv ∧ (t.contribute 1 5 0xFFF 1 anItem).2.regQ = []) ∧
    (let b := recvB netB
     let t := taken b (aHdr 1)
     b.served 511 = true ∧ b.held 511 = false ∧ (b.wr TL_LMAP.VALID 0 0 511).served 511 = false ∧
      ((t.partDone (b.siteOf 511) 7 0 []).mssPump (b.siteOf 511)).dm.recv = t.dm.recv ∧
      ((t.partDone (b.siteOf 511) 7 0 []).mssPump (b.siteOf 511)).regQ = [] ∧ (t.contribDone (b.siteOf 511) 7 0).dm.recv = t.dm.recv ∧
      (t.contribDone (b.siteOf 511) 7 0).regQ = []) :=
  ⟨next_recvB, by decide, by decide, by decide, by decide, next_ownB, by decide, by decide⟩

theorem witness_DamaskPaths :
    ((recvB netB).regQ = [] ∧ (recvB netB).netTakes 63 = false ∧ ({ aHdr 1 with ver := 2 } : DmHdr).ver.toNat ≠ 1 ∧ (recvB netB).netTakes 0 = true ∧
      ({ aHdr 1 with dst := 1 } : DmHdr).dst.toNat ≠ (recvB netB).rd XL_NODE.SELF) ∧
    (Takes netB (aHdr 0) ∧ netB.recvOf 1 2 = none ∧ netB.dm.recv.length < 4096) ∧
    (Takes (recvB netB) (aHdr 1) ∧ (recvB netB).recvOf 1 2 = some (aPath false) ∧ seqLe 0 (aPath false).cum = true ∧ (recvB netB).tick.fatal = false) ∧
    (Takes (sendB [aMsg 0x11 1] []) (aHdr 1) ∧ (sendB [aMsg 0x11 1] []).dm.send = [aSend [aMsg 0x11 1] []] ∧ (sendB [aMsg 0x11 1] []).dm.holds = [] ∧
      (aMsg 0x11 1).record = none ∧ (aMsg 0x11 1).type ≠ 2 ∧ (sendB [aMsg 0x11 1] []).grp.omapOut = [] ∧ seqLe (aMsg 0x11 1).seq 1 = true) ∧
    ((sendB [] []).dm.send = [aSend [] []] ∧ (aSend [] []).queue = [] ∧ (aSend [] []).closing = false ∧
      0 < min (aSend [] []).cwnd ((sendB [] []).rd DM_CTRL.WINDOW)) ∧
    (let b := { recvB netB with dm := { (recvB netB).dm with recv := [aPath true] } }
     b.dm.recv = [aPath true] ∧ (aPath true).dirty = true ∧ b.tick.fatal = false ∧ (aPath false).dirty = false) ∧
    (let m := aMsg 0x11 ((sendB [] []).rd DM_CTRL.RETRY_MAX + 1)
     let b := sendB [m] []
     b.rd DM_CTRL.RETRY_MAX < m.sends ∧ b.dm.tags = [] ∧ m.record = none ∧ m.type = 0x11 ∧ (aMsg 0x11 1).sends ≤ b.rd DM_CTRL.RETRY_MAX) :=
  ⟨by decide, ⟨⟨by decide, by decide, by decide, by decide, by decide⟩, by decide⟩, ⟨takes_recvB, by decide⟩,
    ⟨⟨by decide, by decide, by decide, by decide, by decide⟩, by decide⟩, by decide, by decide, by decide⟩

/-- A message with a release before its turn, one whose sender's address is not its node's, a return for a tile whose requests
are held, and a write with an immediate. -/
theorem witness_DamaskPaths_waiting :
    (let h := { aHdr 3 with rel := 1 }
     Takes (recvB netB) h ∧ (recvB netB).dm.recv = [aPath false] ∧ seqLe 3 (aPath false).cum = false ∧ 3 ≠ (0 + 1) % 2 ^ 32 ∧
      3 ∉ (aPath false).got ∧ (recvB netB).storeUse 0 + (rxMsg h 0x10 [1] [(1, false)]).units ≤ 65536) ∧
    (recvB netB).nodeAddr 1 ≠ some 8 ∧
    (let b := { recvB netB with retires := copyingB.retires }
     b.served 0 = true ∧ b.held 0 = true) ∧
    (let q := aQp true []
     let a := { (rdmaB q).onQp q.i (fun y => { y with nakSent := false, epsn := (y.epsn + 1) % 2 ^ 24 }) with
       mem := (rdmaB q).mem.setWord 0xFF ⟨5, 0⟩ }
     q.packets 16 = 1 ∧ (a.fillSlot q [] 16 1 (some 6) 10).1 = true ∧ (a.fillSlot q [] 16 1 (some 6) 10).2.regQ = []) :=
  ⟨⟨⟨by decide, by decide, by decide, by decide, by decide⟩, by decide⟩, by decide, by decide, by decide⟩

/-- A module in a group of two whose members are itself and node 1, in `role`, with node `mgr` as its manager, at `tick`. -/
def groupB (role mgr tick : Nat) : Block :=
  let b := (((((recvB netB).wr GRP_CTRL.ENABLE 1).wr GRP_ROLE.ROLE role).wr GRP_ROLE.MANAGER_NODE mgr).wr GRP_MTAB.COUNT 2).wr GRP_MTAB.BASE 0x20
  { b.wr TK_COUNT.COUNT tick with mem := b.mem.storeBs 0x20000 (leBytes 8 (2 ^ 16) ++ leBytes 8 0 ++ leBytes 8 (2 ^ 16 + 1)) }

/-- A header of a group message of node `n` under `term`. -/
def aGrp (n : BitVec 10) (term : BitVec 16) : GrpHdr := ⟨9, 0, term, n⟩

theorem next_groupB (role mgr tick : Nat) (h : (groupB role mgr tick).netTakes 0 = true ∧ (0 : Nat) = (groupB role mgr tick).rd XL_NODE.SELF ∧
    (groupB role mgr tick).nodeAddr 1 = some 7) : NextMsg (groupB role mgr tick) (aHdr 1) (aPath false) :=
  ⟨⟨h.1, rfl, h.2.1, h.2.2, rfl⟩, rfl, rfl, rfl, rfl, rfl⟩

theorem msg_groupB (role mgr tick : Nat) (n : BitVec 10) (term : BitVec 16) (h : (groupB role mgr tick).netTakes 0 = true ∧ (0 : Nat) = (groupB role mgr tick).rd XL_NODE.SELF ∧
    (groupB role mgr tick).nodeAddr 1 = some 7) (h1 : (groupB role mgr tick).grpOn = true ∧ (groupB role mgr tick).grpForeign (aGrp n term) = false) :
    GroupMsg (groupB role mgr tick) (aHdr 1) (aPath false) (aGrp n term) := ⟨next_groupB role mgr tick h, h1.1, h1.2⟩

theorem witness_GroupMessages :
    (NextMsg (groupB 0 1 0) (aHdr 1) (aPath false) ∧ (groupB 0 1 0).grpOn = false ∧ (groupB 1 1 0).grpOn = true ∧ (groupB 1 1 0).grpForeign (aGrp 2 0) = true) ∧
    GroupMsg (groupB 1 1 0) (aHdr 1) (aPath false) (aGrp 1 0) ∧ GroupMsg (groupB 3 0 0) (aHdr 1) (aPath false) (aGrp 1 1) ∧
    ((groupB 1 1 0).fromManager (aGrp 1 0) = true ∧ (groupB 3 0 0).rd GRP_ROLE.ROLE = 3 ∧ (groupB 3 0 0).rd GRP_ROLE.TERM < (aGrp 1 1).term.toNat ∧
      (aGrp 1 0).term.toNat < ((groupB 1 1 0).wr GRP_ROLE.TERM 1).rd GRP_ROLE.TERM ∧ (groupB 1 1 0).rd GRP_ROLE.ROLE ≠ 3) ∧
    (let b := groupB 1 1 0
     b.rd GRP_STATUS.EPOCH_DIFF = 0 ∧ b.rd TK_PERIOD.PERIOD_US = (400 : BitVec 12).toNat ∧ b.rd TK_PERIOD.PERIOD_US ≠ (399 : BitVec 12).toNat ∧
      b.ownTime 0 = (0 : W64).toNat ∧ b.ownTime 0 ≠ (1 : W64).toNat ∧ (b.wr GRP_CTRL.AUTO_EPOCH 1).on GRP_CTRL.AUTO_EPOCH = true ∧
      (b.wr TK_STATUS.STATE 2).rd TK_STATUS.STATE ≠ 0 ∧ b.tick.fatal = false) ∧
    ((0 : W64).toNat ≤ (groupB 1 1 0).rd TK_COUNT.COUNT ∧ (groupB 1 1 0).rd TK_COUNT.COUNT < (1 : W64).toNat) ∧
    (let b := groupB 3 0 0
     let size := 2 ^ (b.rd GRP_RPT.LOG2_SIZE + 6)
     ¬ size ≤ (b.rd GRP_RPT_IDX.PROD + 2 ^ 32 - b.rd GRP_RPT_IDX.CONS) % 2 ^ 32 ∧ b.rd GRP_RPT.BASE * 2 ^ 12 + 32 * size ≤ 12 * 2 ^ 36 ∧
      size ≤ ((b.wr GRP_RPT_IDX.PROD size).rd GRP_RPT_IDX.PROD + 2 ^ 32 - b.rd GRP_RPT_IDX.CONS) % 2 ^ 32 ∧
      b.grp.maintQ = [] ∧ (aGrp 1 0).node.toNat ≠ b.rd XL_NODE.SELF ∧ b.grp.maintOn.length < b.rd GRP_CTRL.MAINT_MAX ∧
      (b.wr GRP_CTRL.MAINT_MAX 0).rd GRP_CTRL.MAINT_MAX ≤ b.grp.maintOn.length) ∧
    (let b := (groupB 1 1 0).wr GRP_MAINT.STATE 1
     b.rd GRP_MAINT.STATE = 1 ∧ (0 : BitVec 2).toNat = b.rd GRP_MAINT.KIND ∧ (0 : BitVec 12).toNat = b.rd GRP_MAINT.ARG) :=
  ⟨⟨next_groupB 0 1 0 (by decide), by decide⟩, msg_groupB 1 1 0 1 0 (by decide) (by decide), msg_groupB 3 0 0 1 1 (by decide) (by decide),
    by decide, by decide, by decide, by decide, by decide⟩

/-- A member that has missed its heartbeats `k` times. -/
def missed (b : Block) (node k : Nat) : Block := { b with grp := { b.grp with members := [⟨node, 0, k, 0, 0, 0⟩] } }

theorem witness_GroupCommands :
    (let b := groupB 2 1 100
     let hb := max 1 (b.rd GRP_CTRL.HB_TICKS)
     b.regQ = [] ∧ b.grpOn = true ∧ (b.memberIx 1).isSome = true ∧ 1 ≠ b.rd XL_NODE.SELF ∧ 1 = b.rd GRP_ROLE.MANAGER_NODE ∧ b.rd GRP_ROLE.ROLE = 2 ∧
      hb % hb = 0 ∧ hb + hb ≤ b.rd TK_COUNT.COUNT ∧ ((missed b 1 2).member 1).last < hb ∧ ((missed b 1 2).member 1).misses = 2 ∧
      ((missed b 1 3).member 1).misses + 1 ≠ 3) ∧
    (let b := groupB 3 0 (4 * (groupB 3 0 0).rd GRP_CTRL.DIGEST_TICKS)
     b.on GRP_CTRL.ENABLE = true ∧ b.rd GRP_ROLE.ROLE = 3 ∧ (b.memberIx 1).isSome = true ∧
      b.rd GRP_CTRL.DIGEST_TICKS % max 1 (b.rd GRP_CTRL.DIGEST_TICKS) = 0 ∧
      b.rd GRP_CTRL.DIGEST_TICKS + 2 * b.rd GRP_CTRL.HB_TICKS ≤ b.rd TK_COUNT.COUNT ∧ (b.member 1).digest < b.rd GRP_CTRL.DIGEST_TICKS ∧
      b.rd GRP_MTAB.BASE * 2 ^ 12 + 16 * b.rd GRP_MTAB.COUNT ≤ 12 * 2 ^ 36) ∧
    (netB.grp.pass = none ∧ ({ netB with grp := { netB.grp with pass := some 4 } } : Block).grp.pass ≠ none ∧
      netB.rd GRP_WTAB.BASE * 2 ^ 12 + 64 * 2 ^ netB.rd GRP_WTAB.LOG2_SIZE ≤ 12 * 2 ^ 36 ∧ netB.rd GRP_ROLE.ROLE ≠ 3 ∧ netB.on GRP_CTRL.ENABLE = false) ∧
    ((0 : BitVec 10).toNat = (groupB 3 0 0).rd XL_NODE.SELF ∧ (1 : BitVec 10).toNat ≠ (groupB 3 0 0).rd XL_NODE.SELF) ∧
    (netB.on GRP_OMAP_CMD.BUSY = false ∧ (netB.wr GRP_OMAP_CMD.BUSY 1).on GRP_OMAP_CMD.BUSY = true ∧
      (netB.wr GRP_OMAP.PEND 1 0 4095).on GRP_OMAP.PEND 0 4095 = true ∧ ∀ k, netB.on GRP_OMAP.PEND 0 k = false) ∧
    (netB.rd GRP_MAINT.STATE = 0 ∧ (netB.wr GRP_MAINT.STATE 1).rd GRP_MAINT.STATE ≠ 0 ∧ (1 : BitVec 2).toNat < 2 ∧ 2 ≤ (2 : BitVec 2).toNat ∧
      netB.grp.maintQ = [] ∧ (groupB 3 0 0).grp.maintOn.length < (groupB 3 0 0).rd GRP_CTRL.MAINT_MAX) ∧
    (let b := { (netB.wr GRP_OMAP.PEND 1 0 4095).wr TK_COUNT.COUNT 9 with grp := { netB.grp with omapAt := some 9 } }
     b.grp.omapAt = some 9 ∧ 9 ≤ b.rd TK_COUNT.COUNT ∧ b.on GRP_OMAP.PEND 0 4095 = true) :=
  ⟨by decide, by decide, by decide, by decide, ⟨by decide, by decide, by decide, fun k => (on_untouched (by decide) 0 k).trans rfl⟩, by decide, by decide⟩

/-- A module that runs: its input power on, its rails up, Lichen running. -/
def runB : Block :=
  let b := zeroM.wr LC_STATUS.RUN 1
  { b with
    pw := { b.pw with input := true, pwrEn := true, switch := true, good := true, limit := 1000 }
    mrst := { b.mrst with on := false, causes := [] } }

/-- The same with its main rails off. -/
def offB : Block := { runB with pw := { runB.pw with switch := false, good := false }, mrst := { runB.mrst with on := true, causes := [1] } }

def aFault : FaultRec := { cls := 22, cause := 255, level := 7, severity := 3, unit := 65535, site := 1023, ctx := some 4095 }

theorem witness_FaultCollector :
    (let b := { runB.wr FLT_CTRL.ENABLE 1 with faultQ := [aFault] }
     runB.faultQ = [] ∧ b.regQ = [] ∧ b.faultQ = aFault :: [] ∧
      ¬ (b.on FLT_CTRL.ENABLE = false ∨ b.on FLT_STATUS.OVERFLOW = true ∨ 4096 ≤ (b.rd FLT_RING_IDX.PROD + 2 ^ 32 - b.rd FLT_RING_IDX.CONS) % 2 ^ 32) ∧
      4096 ≤ ((b.wr FLT_RING_IDX.PROD 4096).rd FLT_RING_IDX.PROD + 2 ^ 32 - b.rd FLT_RING_IDX.CONS) % 2 ^ 32) ∧
    (let b := { runB.wr FLT_CTRL.ENABLE 1 with faultQ := [aFault] }
     let m0 := { b with faultQ := [] }.wr FLT_SEQ.NEXT (b.rd FLT_SEQ.NEXT + 1)
     let w := m0.mwrite 0xFFF (b.rd FLT_RING.BASE * 2 ^ 18) (plain (bytesOf (b.recWords aFault (b.rd FLT_SEQ.NEXT) 0)))
     w.1 = .ok ∧ w.2.regQ = [] ∧ (m0.mwrite 0xFFF (16383 * 2 ^ 32) (plain (bytesOf (b.recWords aFault (b.rd FLT_SEQ.NEXT) 0)))).1 ≠ .ok) ∧
    (19 ≤ ({ aFault with cls := 20 } : FaultRec).cls ∧ ({ aFault with cls := 20 } : FaultRec).cls ≤ 21) ∧
    (aFault.cls < 256 ∧ aFault.cause < 256 ∧ aFault.level < 8 ∧ aFault.severity < 4 ∧ aFault.unit < 2 ^ 16 ∧ aFault.site < 2 ^ 10 ∧
      aFault.ctx.getD 0 < 2 ^ 12) ∧
    (runB.irqOwed = false ∧ ({ runB with irqOwed := true } : Block).irqOwed = true ∧ runB.rd LC_STATUS.RUN = 1) :=
  ⟨by decide, by decide, by decide, by decide, by decide⟩

theorem witness_MainRails :
    (let b := offB
     b.regQ = [] ∧ b.pw.input = true ∧ b.pw.switch = false ∧ b.rd LC_STATUS.RUN ≠ 0 ∧ b.pw.overVolt = false ∧ NSet.mem b.mrst.causes 1 = true ∧
      NSet.mem ({ b with mrst := { b.mrst with causes := [] } } : Block).mrst.causes 1 = false) ∧
    (let b := { offB with pw := { offB.pw with overVolt := true } }
     b.pw.overVolt = true ∧ b.pw.pwrEn = true ∧ b.pw.latched = false) ∧
    (let b := { offB with pw := { offB.pw with switch := true } }
     b.pw.switch = true ∧ b.pw.good = false ∧ offB.pw.switch = false) ∧
    ((runB.wr SN_BRINGUP.STAGE 2).pw.good = true ∧ (runB.wr SN_BRINGUP.STAGE 2).rd SN_BRINGUP.STAGE = 2 ∧ runB.rd SN_BRINGUP.STAGE ≠ 2) ∧
    runB.pw.switch = true := by decide

theorem witness_Undervoltage :
    (runB.regQ = [] ∧ runB.pw.below = false ∧ runB.pw.input = true ∧ runB.pw.above = false ∧ runB.rd PW_STATUS.UV_STEP = 0) ∧
    ({ runB with pw := { runB.pw with below := true } } : Block).pw.below = true ∧
    (∀ st, 1 ≤ st → st < 4 → ({ runB.wr PW_STATUS.UV_STEP st with pw := { runB.pw with above := true } } : Block).pw.above = true) ∧
    (runB.wr PW_STATUS.UV_STEP 3).rd PW_STATUS.UV_STEP = 3 ∧
    (runB.pw.switch = true ∧ runB.mrst.on = false ∧ offB.pw.switch = false) ∧
    (let b := { (runB.wr SN_BRINGUP.STAGE 1) with mrst := { runB.mrst with on := true } }
     b.pw.switch = true ∧ b.mrst.on = true ∧ 1 ≤ b.rd SN_BRINGUP.STAGE ∧ (b.wr SN_BRINGUP.STAGE 0).rd SN_BRINGUP.STAGE = 0) ∧
    (runB.on PW_STATUS.OPEN_PAIR = false ∧ (runB.wr PW_STATUS.OPEN_PAIR 1).on PW_STATUS.OPEN_PAIR = true) :=
  ⟨by decide, by decide, fun _ _ _ => rfl, by decide, by decide, by decide, by decide⟩

theorem witness_CapAndClock :
    (∀ st < 4, let b := (runB.wr PW_CAP.EN 1).wr PW_STATUS.CAP_STEP st
     b.regQ = [] ∧ b.on PW_CAP.EN = true ∧ b.rd PW_STATUS.CAP_STEP = st ∧ b.pw.limit = 1000) ∧
    (1000 < (1001 : BitVec 16).toNat ∧ (1000 : BitVec 16).toNat ≤ 1000 ∧ 95 * 1000 ≤ (950 : BitVec 16).toNat * 100 ∧
      (949 : BitVec 16).toNat * 100 < 95 * 1000) ∧
    (runB.wr PW_CAP.EN 0).on PW_CAP.EN = false ∧
    ((499 : BitVec 12).toNat < 500 ∧ 500 ≤ (500 : BitVec 12).toNat) ∧ 31 < 32 ∧
    ({ runB with pw := { runB.pw with base := some 1500 } } : Block).pw.base = some 1500 := by decide

theorem witness_Thermal :
    (runB.regQ = [] ∧ runB.dieStep 7 = 0 ∧ (runB.wr PW_STATUS.DIE_STEP (2 ^ 15)).dieStep 7 ≠ 0 ∧ runB.rd PW_STATUS.COOL_STEP < 4 ∧
      runB.pw.cool = [] ∧ ({ runB with pw := { runB.pw with cool := [2] } } : Block).pw.cool ≠ []) ∧
    (NSet.mem runB.isolated 7 = false ∧ NSet.mem ({ runB with isolated := [7] } : Block).isolated 7 = true) := by decide

/-- A module whose rails are up and whose tiles are at rest. -/
def restB : Block :=
  { Block.reset with
    pw := { Block.reset.pw with input := true, pwrEn := true, switch := true, good := true }
    mrst := { Block.reset.mrst with on := false, causes := [] } }

theorem witness_ResetRequests :
    (let b := restB
     b.regQ = [] ∧ (b.on PW_RST_STATUS.BUSY = false ∧ b.rd PW_RST_AT.AT_TICK = 0) ∧ (b.wr PW_RST_STATUS.BUSY 1).on PW_RST_STATUS.BUSY = true ∧
      b.served 511 = true ∧ b.on TK_CTRL.ENABLE = false ∧ (b.wr TK_CTRL.ENABLE 1).on TK_CTRL.ENABLE = true ∧
      bit (b.rd TL_MAP_STATUS.PENDING) 31 = false ∧ b.siteOf 511 < 576) ∧
    (∀ p, (restB.site p).run = none ∧ (restB.site p).todo = [] ∧ restB.nextBank p = PlanBank.empty) ∧
    ((31 : BitVec 9).toNat < 32 ∧ ¬ (32 : BitVec 9).toNat < 32 ∧ restB.asleep 31 = false ∧
      (restB.wr PW_RST_STATUS.SLEEPING (2 ^ 31)).asleep 31 = true) ∧
    (restB.pw.switch = true ∧ restB.mrst.on = false) ∧
    (∀ begun, let b := { restB with rst := some { op := 3, target := 31, flush := false, at_ := 1, begun := begun } }
     b.rst = some { op := 3, target := 31, flush := false, at_ := 1, begun := begun } ∧ b.heldQ = []) :=
  ⟨by decide, fun _ => ⟨rfl, rfl, rfl⟩, by decide, by decide, fun _ => ⟨rfl, rfl⟩⟩

theorem witness_ModuleResets :
    (runB.regQ = [] ∧ runB.pw.switch = true ∧ runB.mrst.on = false ∧ offB.pw.switch = false) ∧
    (let b := { runB with mrst := { runB.mrst with on := true } }
     b.pw.switch = true ∧ b.mrst.on = true) ∧
    (3 ≤ (3 : BitVec 4).toNat ∧ (8 : BitVec 4).toNat ≤ 8 ∧ 8 < (9 : BitVec 4).toNat ∧ (2 : BitVec 4).toNat < 3) ∧ MapsKept runB ∧
    (let b := { (runB.wr SN_BRINGUP.STAGE 8).wr SN_TAP.EN 0 with mrst := { runB.mrst with on := true, causes := [6] } }
     ¬ (b.mrst.on = false ∨ b.pw.switch = false ∨ b.pw.latched = true ∨ b.on SN_TAP.EN = true ∨
        (1 ≤ b.rd SN_BRINGUP.STAGE ∧ b.rd SN_BRINGUP.STAGE ≤ 7) ∨ NSet.mem b.mrst.causes 1 = true ∨ NSet.mem b.mrst.causes 2 = true) ∧
      b.lc.alarmed = false ∧ b.lc.acts = []) := by
  refine ⟨by decide, by decide, by decide, ?_, by decide⟩
  unfold MapsKept
  decide

theorem witness_LichenStoreAndSensors :
    (runB.regQ = [] ∧ runB.rd LC_STATUS.RUN = 1 ∧ runB.on LC_STATUS.STORE_DEGRADED = false ∧
      (runB.wr LC_STATUS.STORE_DEGRADED 1).on LC_STATUS.STORE_DEGRADED = true ∧ (runB.wr LC_STATUS.RUN 0).rd LC_STATUS.RUN ≠ 1) ∧
    (isSensor 1 = true ∧ isSensor 113 = true ∧ isSensor 7 = false) ∧
    (∀ n ∈ [0, 9, 10], SMap.get 0 ({ runB with lc := { runB.lc with polls := SMap.set 0 [] 113 n } } : Block).lc.polls 113 = n) ∧
    (runB.lc.owed = [] ∧ runB.fwBegun 0 = false ∧ (runB.wr LC_STATUS.RUN 2).rd LC_STATUS.RUN = 2) := by decide

/-- Every slot holds a verified image, and activations are asked for tick 10. -/
def fwB (now : Nat) (begun : Option Nat) (c : Nat) : Block :=
  let b := (((runB.wr LC_FW_STATUS.SLOT_VALID 0xFF).wr LC_FW_AT.AT_TICK 10).wr TK_COUNT.COUNT now)
  { b with lc := { b.lc with before := [(c, 2 - b.slotOn c)], acts := if begun.isSome then [⟨c, some 10, false, begun⟩] else [] } }

theorem witness_Firmware :
    (∀ c < 4, let b := fwB 8 none c
     b.regQ = [] ∧ bit (b.rd LC_FW_STATUS.SLOT_VALID) (2 * c + (1 - b.slotOn c)) = true ∧ b.rd TK_COUNT.COUNT + 2 ≤ b.rd LC_FW_AT.AT_TICK ∧
      b.lc.acts = [] ∧ b.on SV_STATUS.LOCKED = false ∧ SMap.get 0 b.lc.before c = (1 - b.slotOn c) + 1 ∧ b.rd LC_STATUS.RUN = 1) ∧
    (fwB 10 none 0).rd LC_FW_AT.AT_TICK ≤ (fwB 10 none 0).rd TK_COUNT.COUNT ∧ ¬ (fwB 9 none 1).rd TK_COUNT.COUNT + 2 ≤ (fwB 9 none 1).rd LC_FW_AT.AT_TICK ∧
    ((fwB 8 (some 8) 1).fwBegun 1 = true ∧ (fwB 8 (some 8) 2).fwBegun 2 = true ∧ (fwB 8 none 1).fwBegun 1 = false) ∧
    ((runB.wr SV_STATUS.LOCKED 1).on SV_STATUS.LOCKED = true ∧ (runB.wr LC_STATUS.RUN 0).rd LC_STATUS.RUN ≠ 1 ∧ runB.rc = [] ∧ (fwB 8 (some 8) 1).bk.watches = [] ∧
      (0 : BitVec 40).toNat * 2 ^ 6 + 64 ≤ 12 * 2 ^ 36) := by decide

theorem witness_Vault :
    (let b := runB
     let ring := b.rd BK_DL.BASE * 2 ^ 12 + 64 * 2 ^ (b.rd BK_DL.LOG2_SIZE + 6)
     b.regQ = [] ∧ ring ≤ 12 * 2 ^ 36 ∧ b.rd SV_STATUS.ACTIVE = 0 ∧ b.rd LC_STATUS.RUN = 1 ∧ (b.wr LC_STATUS.RUN 0).rd LC_STATUS.RUN = 0 ∧
       (b.wr LC_STATUS.RUN 2).rd LC_STATUS.RUN = 2) ∧
    ((List.range 5).filter (fun k => bit (16 : BitVec 5).toNat k && !bit (runB.rd SV_STATUS.ACTIVE) k) = [4] ∧
      (List.range 5).filter (fun k => bit (0 : BitVec 5).toNat k && !bit (runB.rd SV_STATUS.ACTIVE) k) = []) := by decide

theorem witness_PolicyWrites :
    (let b := { runB with lc := { runB.lc with sess := [65535] } }
     b.regQ = [] ∧ b.lc.sess ≠ [] ∧ NSet.mem b.lc.sess (65535 : BitVec 16).toNat = true ∧
      (∀ k < 6, bits 0xAAA (2 * k) 2 ≤ 2 ∧ (bit (b.rd SV_ALARM.LATCH) k = true → b.policyOf k ≤ bits 0xAAA (2 * k) 2)) ∧
      ¬ (∀ k < 6, bits 0xFFF (2 * k) 2 ≤ 2)) ∧
    (runB.lc.sess = [] ∧ runB.rd LC_STATUS.RUN = 1 ∧ (runB.wr LC_STATUS.RUN 0).rd LC_STATUS.RUN ≠ 1) := by decide

theorem witness_ManagementRequests :
    (runB.regQ = [] ∧ runB.rd LC_STATUS.RUN = 1 ∧ (runB.wr LC_STATUS.RUN 2).rd LC_STATUS.RUN ≠ 1) ∧
    ((255 : BitVec 8).toNat = 255 ∧ 0 < (1 : BitVec 8).toNat ∧ (254 : BitVec 8).toNat < 255 ∧ 5 < (6 : BitVec 8).toNat) ∧
    (let b := { runB with lc := { runB.lc with reading := [(113, 26)] } }
     isSensor 113 = true ∧ SMap.get 0 b.lc.reading 113 ≠ 0 ∧ SMap.get 0 b.lc.polls 113 < 10 ∧ SMap.get 0 b.lc.reading 1 = 0) := by decide

theorem witness_SpdmRequests :
    (runB.regQ = [] ∧ runB.rd LC_STATUS.RUN = 1 ∧ (runB.wr LC_STATUS.RUN 2).rd LC_STATUS.RUN ≠ 1 ∧ runB.on SV_STATUS.LOCKED = false ∧
      runB.rd SV_STATUS.ID_KEY = 0 ∧ (runB.wr SV_STATUS.LOCKED 1).on SV_STATUS.LOCKED = true) ∧
    (∀ k < 4, ({ runB with lc := { runB.lc with spdm := k } } : Block).lc.spdm = k) ∧
    ((1 : BitVec 4) ≠ 0 ∧ (runB.measured 1).isSome = true ∧ runB.measured 8 = none) ∧
    (NSet.mem ({ runB with lc := { runB.lc with hands := [1] } } : Block).lc.hands 1 = true ∧ NSet.mem runB.lc.hands 1 = false ∧
      NSet.mem ({ runB with lc := { runB.lc with sess := [1] } } : Block).lc.sess 1 = true ∧ NSet.mem runB.lc.sess 1 = false) := by decide

theorem witness_InputPower :
    Block.reset.regQ = [] ∧ Block.reset.pw.input = false ∧ Block.reset.lc.owed = [] ∧ Block.reset.lc.held = [] ∧ runB.pw.input = true := by decide

/-- Bring-up at a stage, with the parallel steps `ended` already. -/
def upB (stage : Nat) (ended : NSet) : Block :=
  { (restB.wr SN_BRINGUP.STAGE stage).wr SN_TAP.EN 0 with mrst := { restB.mrst with on := true, causes := [2], ended := ended } }

theorem witness_BringUp :
    ((upB 3 []).regQ = [] ∧ (upB 3 []).mrst.on = true ∧ (upB 3 []).rd SN_BRINGUP.STAGE = 3 ∧ (upB 2 []).rd SN_BRINGUP.STAGE ≠ 3 ∧
      restB.mrst.on = false ∧ restB.rd MEM_STATUS.STATE 12 = 0 ∧ (restB.wr MEM_STATUS.STATE 1 12).rd MEM_STATUS.STATE 12 ≠ 0) ∧
    (∀ stage ∈ [4, 6], (upB stage []).mrst.on = true ∧ 4 ≤ (upB stage []).rd SN_BRINGUP.STAGE ∧ (upB stage []).rd SN_BRINGUP.STAGE ≤ 6 ∧
      ∀ k < 15, NSet.mem (upB stage []).mrst.ended k = false ∧ NSet.mem (upB stage [k]).mrst.ended k = true) ∧
    (upB 4 []).rd MEM_CHMAP.EFFECTIVE 11 < 2 ^ 32 ∧
    ((upB 4 []).rd TL_SITE.STATE 0 575 = 1 ∧ (upB 4 []).rd TL_SITE.STATE 0 0 ≤ 1 ∧ (63 : Fin 65).val < 64) ∧
    ((upB 7 (List.range 15)).mrst.on = true ∧ (upB 7 (List.range 15)).rd SN_BRINGUP.STAGE = 7 ∧ (upB 7 (List.range 15)).on SN_TAP.EN = false ∧
      ((upB 7 []).wr SN_TAP.EN 1).on SN_TAP.EN = true) := ⟨by decide, by decide, by decide, by decide, by decide⟩

theorem witness_Snapshots :
    (runB.regQ = [] ∧ runB.on SN_STATUS.COPY_BUSY = false ∧ (runB.wr SN_STATUS.COPY_BUSY 1).on SN_STATUS.COPY_BUSY = true) ∧
    (let b := runB.wr SN_CTRL.ARMED 1
     bit (b.rd SN_CTRL.SRC_EN) 0 = true ∧ bit (b.rd SN_CTRL.SRC_EN) 2 = true ∧ b.on SN_CTRL.ARMED = true ∧
      (b.wr SN_CTRL.ARMED 0).on SN_CTRL.ARMED = false) ∧
    (let b := (runB.wr GRP_CTRL.ENABLE 1).wr GRP_ROLE.ROLE 3
     b.on GRP_CTRL.ENABLE = true ∧ b.rd GRP_ROLE.ROLE = 3 ∧ ((b.wr SN_GRP_CMD.TAG 7).grpAll 0x39 [0, 7]).regQ = [] ∧
      b.rd SN_GRP_AT.AT_TICK ≤ b.rd TK_COUNT.COUNT ∧ b.rd TK_COUNT.COUNT < (b.wr SN_GRP_AT.AT_TICK 1).rd SN_GRP_AT.AT_TICK) ∧
    runB.on GRP_CTRL.ENABLE = false := by decide

theorem witness_TestPort :
    (Block.reset.regQ = [] ∧ Block.reset.pw.input = false ∧ runB.pw.input = true) ∧
    ((runB.wr SN_TAP.EN 1).on SN_TAP.EN = true ∧ (runB.wr SN_TAP.EN 0).on SN_TAP.EN = false) ∧
    (let b := { runB with lc := { runB.lc with sess := [65535] } }
     NSet.mem b.lc.sess (65535 : BitVec 16).toNat = true ∧ b.on SV_STATUS.LOCKED = false ∧ b.rd LC_STATUS.RUN = 1 ∧ b.pw.switch = true ∧
      b.mrst.on = false ∧ NSet.mem runB.lc.sess 1 = false ∧ (runB.wr LC_STATUS.RUN 0).rd LC_STATUS.RUN ≠ 1) ∧
    (let b := { runB with mrst := { runB.mrst with on := true } }
     b.pw.good = true ∧ b.mrst.on = true) := by decide

/-! ### Well-formedness: every check refuses an ill-formed command -/

/-- A header for the network tests. -/
def hdr : DmHdr := ⟨1, 0, 1, 0, 0, 0, false, 0, 0xFFF, 0, false, 0⟩

theorem test_wf_refuses_register_access_across_lines :
    (Instr.unmappedRegisterAccess 0 0 124 8 false).wf = false ∧ (Instr.unmappedRegisterAccess 0 0 120 8 false).wf = true := by
  decide

theorem test_wf_refuses_request_across_lines :
    (Instr.memoryRequest 0 0 127 (.read 2) false 0).wf = false ∧ (Instr.memoryRequest 0 0 127 (.read 1) false 0).wf = true ∧
    (Instr.memoryRequest 0 0 0 (.read 0) false 0).wf = false := by decide

theorem test_wf_refuses_misaligned_atomic :
    (Instr.memoryRequest 0 0 4 (.fetchAdd true 1) false 0).wf = false ∧
    (Instr.memoryRequest 0 0 4 (.fetchAdd false 1) false 0).wf = true ∧
    (Instr.memoryRequest 0 0 2 (.cas false 1 1) false 0).wf = false := by decide

theorem test_wf_refuses_lock_window_across_lines :
    (Instr.lockWindowAccess 0 0 0 120 (.write (List.replicate 9 (0, false)))).wf = false := by decide

theorem test_wf_refuses_cache_access_across_lines :
    (Instr.regionCacheAccess 0 0 0 120 none 9 none 0).wf = false ∧
    (Instr.regionCacheAccess 0 0 0 120 (some (List.replicate 9 (0, false))) 1 none 0).wf = false ∧
    (Instr.regionCacheAccess 0 0 0 120 none 8 none 0).wf = true := by decide

theorem test_wf_refuses_short_far_entries :
    (Instr.ringEntryFetch 0 (some [0])).wf = false ∧ (Instr.ringEntryFetch 0 none).wf = true ∧
    (Instr.staleEntryReread (.inl 0) (some [0])).wf = false := by decide

theorem test_wf_refuses_empty_payloads :
    (Instr.dmWrite hdr []).wf = false ∧ (Instr.dmRead hdr 0 0).wf = false ∧ (Instr.dmRead hdr 0 8193).wf = false ∧
    (Instr.dmRead hdr 0 8192).wf = true ∧ (Instr.dmRemoteBag hdr ⟨0, 0, 0, 0⟩ false []).wf = false ∧
    (Instr.dmUpdate hdr ⟨0, 0, 0, 0⟩ []).wf = false := by decide

theorem test_wf_refuses_a_long_response :
    (Instr.dmReadResp hdr 0 0 (List.replicate 8193 (0, false))).wf = false := by
  simp only [Instr.wf, List.length_replicate]; decide

theorem test_wf_refuses_bad_times :
    (Instr.ptpFrameReceive 0 ⟨0, 1000000000⟩ []).wf = false ∧
    (Instr.ptpFrameReceive 0 ⟨0, 0⟩ (List.replicate 225 0)).wf = false ∧
    (Instr.ptpTransmit 0 [⟨0, 1000000000⟩]).wf = false ∧ (Instr.ptpTimeStep ⟨0, 1000000000⟩).wf = false ∧
    (Instr.ppsInEdge ⟨0, 1000000000⟩).wf = false ∧ (Instr.ppsInEdge ⟨0, 999999999⟩).wf = true := by decide

theorem test_wf_refuses_a_long_placement :
    (Instr.placement hdr ⟨0, 0, 0, 0⟩ 0 (List.replicate 1025 ⟨0, 0, true⟩)).wf = false := by
  simp only [Instr.wf, List.length_replicate]; decide

/-! ### Values of the spec's worked examples -/

/-- 02_tile_fabric.md, "one logical tile across the map": tile 221 is served by site 3.1.13, flat index 247. -/
theorem test_tile_221_site : State.reset.m.siteOf 221 = 247 := by decide

/-- The same example: its local store window is at 0x0200_3740_0000. -/
theorem test_tile_221_store : State.reset.m.place 0x020037400000 = .store 221 0 := by decide

/-- 03_novger_programming_model.md, "the tower input block": feature 1,000 of row 37 is the byte at 0x0012_53E8 and the block
ends at 0x0013_FFFF. -/
theorem test_tower_element :
    let d := 0x00100000 + 8 * 2 ^ 48 + 2 ^ 52 + 2 * 2 ^ 55 + 4096 * 2 ^ 64 + 64 * 2 ^ 80 + 4096 * 2 ^ 144
    descOk 9 d 0 = true ∧ ((dBase d : Int) * 8 + dBit d 1000 37) / 8 = 0x001253E8 ∧ (dBytes d).2 = 0x0013FFFF := by decide

/-- 05_twill_array.md, "a causal window": 16 INT8 channels of 48 time steps, 4 taps, dilation 2, padding 6. -/
def causal : Nat :=
  0x1000 + 8 * 2 ^ 48 + 2 ^ 52 + 2 ^ 59 + 16 * 2 ^ 64 + 48 * 2 ^ 80 + 4 * 2 ^ 96 + 48 * 2 ^ 112 + 6 * 2 ^ 128 + 16 * 2 ^ 144 +
    2 ^ 168 + 2 * 2 ^ 192

/-- A tile whose store holds that sequence: every channel of time step p is p + 1. -/
def sequence : Block :=
  [0, 4, 6, 8, 10].foldl (fun b p => (b.lsWrite 0 (0x1000 + 16 * p) (List.replicate 16 (BitVec.ofNat 8 (p + 1))) false)) rdy

/-- The same example: position 10 reads time steps 4, 6, 8 and 10. -/
theorem test_causal_window :
    ((sequence.actRow 0 causal 10).1.map (·.1)).drop 15 =
      [5] ++ List.replicate 16 7 ++ List.replicate 16 9 ++ List.replicate 16 11 := by decide

/-- The same example: position 0 reads padding on its first three taps. -/
theorem test_causal_padding :
    (sequence.actRow 0 causal 0).1.map (·.1) = List.replicate 48 0 ++ List.replicate 16 1 := by decide

/-- 06_number_formats.md, "affine codes for one row": the scale of a row from −0.5 to 1.5 is 0x3C01, its offset −0.5. -/
theorem test_affine_scale : affRow [.fin true 1 2, .fin false 1 4, .fin false 3 2] 255 = (0x3C01, 0xBF00, false, false) := by
  decide

/-- The same row: 0.25 has code 95 and 1.5 has code 254. -/
theorem test_affine_codes :
    (convI 8 false (affQuot 0x3C01 0xBF00 (.fin false 1 4)) .ne).1 = 95 ∧
    (convI 8 false (affQuot 0x3C01 0xBF00 (.fin false 3 2)) .ne).1 = 254 := by decide

/-- The same row: the codes decode to 4,063 × 2⁻¹⁴ and to 1.4998779296875, which is 24,574 × 2⁻¹⁴. -/
theorem test_affine_decode :
    decodeRow 95 0x3C01 0xBF00 = toF32 (.fin false 4063 16384) ∧ decodeRow 254 0x3C01 0xBF00 = toF32 (.fin false 24574 16384) := by
  decide

/-- The second row of that example: a constant row has scale +0.0, and its codes decode to the offset exactly. -/
theorem test_affine_constant :
    affRow [.fin false 3 8, .fin false 3 8] 255 = (0, 0x3EC0, false, true) ∧ decodeRow 0 0 0x3EC0 = 0x3EC00000 := by decide

/-- 06_number_formats.md, "edge cases of one conversion": items 1 to 8, nearest-even. -/
theorem test_conversion_codes :
    convF 3 (.fin false 5 16) .ne false = (0x2A, {}) ∧ convF 3 (.fin false 17 16) .ne false = (0x38, {}) ∧
    convF 3 (.fin false 464 1) .ne false = (0x7E, {}) ∧ convF 3 (.fin false 500 1) .ne false = (0x7E, { sat := 1 }) ∧
    convF 3 (.fin true 1 2048) .ne false = (0x80, {}) ∧ convF 3 .nan .ne false = (0x7F, {}) ∧
    convF 3 (.inf false) .ne false = (0x7E, { sat := 1 }) ∧
    convF 4 (.fin false 62000 1) .ne false = (0x7B, { sat := 1 }) ∧
    convF 4 (.fin false 62000 1) .ne true = (0x7C, { infOv := 1 }) := by decide

/-- Items 2, 3 and 5 of that example with a draw of 0, which rounds up. -/
theorem test_conversion_stochastic :
    convF 3 (.fin false 17 16) (.st 0) false = (0x39, {}) ∧ convF 3 (.fin false 464 1) (.st 0) false = (0x7E, { sat := 1 }) ∧
    convF 3 (.fin true 1 2048) (.st 0) false = (0x81, {}) := by decide

/-- 07_frond_engine.md, "calibration and selection": the chain record of the example. -/
def calibration : List Nat :=
  [0x23, 0, 0x35C0000000001C03, 0xBF40000000000CC0, 0xD5, 0, 0, 0, 0, 0, 0, 0, 0, 0, 0, 0]

/-- A score and a prior (FP32 codes) through that record. -/
def calibrated (z prior : Nat) : Option Nat :=
  (chnParse calibration).map (fun r => (chnEval r.1 (fun s => if s = 0 then z else prior) r.2.2 0 0 0 0).1)

/-- The same example: row 37 (z = 524,288, prior 0) scores 0.5 exactly, row 50 (prior −∞) scores +0. -/
theorem test_calibration :
    calibrated (toF32 (.fin false 524288 1)) 0 = some 0x3F000000 ∧ calibrated (toF32 (.fin false 524288 1)) 0xFF800000 = some 0 := by
  decide

/-- 09_live_tables.md, "one document row across two windows": table 40's directory entry and the owner's slot map. -/
def table40 : List Nat :=
  [1 + 1 * 2 + 32 * 2 ^ 8 + 4 * 2 ^ 16 + 5 * 2 ^ 20, 8192000, 0x000200000000, 2000, 0, 0, 0, 3 + 2 ^ 48]

/-- The same example: row 8,190,001 lies at 0x0052_0055_EF80. -/
theorem test_record_address :
    (State.reset.m.wr MS_BSLOT.SLOT 21 0 2097).recAddr table40 1000 0 8190001 = 0x00520055EF80 := by decide

/-- The same example: in key order the four contributions sum to +0, in one arrival order to 2⁻²³. -/
theorem test_key_order_sum :
    [0x33800000, 0x3F800000, 0x33800000, 0xBF800000].foldl f32Add 0 = 0 ∧
    [0x33800000, 0x33800000, 0x3F800000, 0xBF800000].foldl f32Add 0 = 0x34000000 := by decide

/-- A record of four sectors with these trailers and payload bytes of 0. -/
def recordOf (ts : List Nat) : List Byte := ts.flatMap (fun t => List.replicate 30 0 ++ leBytes 2 t)

/-- Offsets and trailers that replacing a row of four sectors writes, in order. -/
def flipTrailers (ts : List Nat) : List (Nat × Nat) :=
  (flipWrites 4 (recordOf ts) (List.replicate 60 1)).map (fun w => (w.1, leNat (w.2.drop 30)))

/-- The same example: window 1,000 writes sectors 2 and 3 with 0x07FF, then sector 0 with 0x17FE. -/
theorem test_first_flip : flipTrailers [0x07FE, 0x07FE, 0x07FD, 0x07FD] = [(64, 0x07FF), (96, 0x07FF), (0, 0x17FE)] := by decide

/-- The same example: window 1,001 writes sector 0 with 0x1800, sector 1 with 0x0800, then flips with sector 0 at 0x0800. -/
theorem test_second_flip : flipTrailers [0x17FE, 0x07FE, 0x07FF, 0x07FF] = [(0, 0x1800), (32, 0x0800), (0, 0x0800)] := by decide

/-- The same example: a read between the flips selects slot 1 and passes. -/
theorem test_read_between_flips : readerRule 4 (recordOf [0x1800, 0x0800, 0x07FF, 0x07FF]) = some 1 := by decide

/-- 10_memory_system.md, "one record under a channel map-out": with every channel in service, channel 10, pseudo-channel 1,
bank 7. -/
theorem test_record_location :
    let r := State.reset.m.locOf 0x00520055EF80
    r.1 = 5 ∧ r.2.1 = 10 ∧ r.2.2.1 = 1 ∧ r.2.2.2.1 = 7 := by decide

/-- The same record with channel 3 out: channel 7, pseudo-channel 0, bank 11. -/
theorem test_record_moved :
    let r := (State.reset.m.wr MEM_CHMAP.EFFECTIVE 8 5).locOf 0x00520055EF80
    r.1 = 5 ∧ r.2.1 = 7 ∧ r.2.2.1 = 0 ∧ r.2.2.2.1 = 11 := by decide

/-- The same example: the channel-local granules. -/
theorem test_record_granule : hbmHash 0 0x00020055EF80 = (10, 0x1002AF) ∧ hbmHash 8 0x00020055EF80 = (7, 0x1086E6) := by decide

/-- The same example: the window shrinks to 62 GiB. -/
theorem test_window_shrinks :
    let b := State.reset.m.wr MEM_CHMAP.EFFECTIVE 8 5
    b.place 0x005F80000000 = .absent ∧ b.place 0x005F7FFFFFFF = .hbm 5 0x000F7FFFFFFF := by decide

/-- 11_translation.md, "a client write through an ingress window": the window of the example, and a module that holds it. -/
def clientWindow : WinE :=
  ⟨0, 0x0A3, false, true, false, false, 0x2C5, 9, 0x51B2E, 0x00007F0000000000, 0x4000000, 0x120040000000⟩

/-- The same example: the key admits the request and gives virtual address 0x1200_4123_4500. -/
theorem test_window_admits :
    (({ State.reset.m with wins := [clientWindow] } : Block).admitTo 0 9 ⟨0xA365C0A3, 0x00007F0001234500⟩ 4096 (·.wr)).1 =
      some ⟨0x2C5, false, 0x120041234500⟩ := by decide

/-- The same example: the 2 MiB leaf passes a write's checks; its page gives physical address 0x0009_4052_3A03_4500, of node
37. -/
theorem test_leaf_address :
    pteCause 0x000250148E8000C7 1 true = 0 ∧
    (let e : TlbE := ⟨0x2C5, 0, 21, bits 0x000250148E8000C7 10 44, true, true, false, true⟩
     e.pa 0x120041234500 = 0x000940523A034500 ∧ nodeOf (e.pa 0x120041234500) = 37 ∧
     offOf (e.pa 0x120041234500) / 2 ^ 21 = 168400) := by decide

/-! ### Single steps -/

/-- R137: the shift amount is taken from the low six bits, and an arithmetic shift keeps the sign. -/
theorem test_sra : ((after (.scArith 0 ⟨3, 1, 2, 7, 0⟩) (rdyS [(1, 2 ^ 64 - 8), (2, 1)])).site 0).s 3 = 2 ^ 64 - 4 := by decide

/-- R139: `sc.lih` replaces the upper half and keeps the lower. -/
theorem test_lih : ((after (.scLih 0 ⟨3, 0, 0, 0xFFFFFFFF⟩) (rdyS [(3, 5)])).site 0).s 3 = 0xFFFFFFFF00000005 := by decide

/-- R88: a write of s0 is discarded. -/
theorem test_s0 : ((after (.scLi 0 ⟨0, 0, 0, 7⟩) rdy).site 0).s 0 = 0 := by decide

end Sys2Proof.Tests
end

/-! ## The words an access touches -/

namespace Sys2Proof.Machine

/-- The first piece of a range begins where the range does. -/
theorem pieces_head {a n : Nat} (hn : 0 < n) : ∃ m l, pieces a n = (a, m) :: l := by
  have hstart : max a ((a / 16 + 0) * 16) = a := by omega
  rw [pieces, if_neg hn.ne', List.range_succ_eq_map, List.map_cons]
  exact ⟨_, _, List.cons_eq_cons.2 ⟨Prod.ext hstart rfl, rfl⟩⟩

/-- Every piece begins within the range. -/
theorem pieces_mem {a n : Nat} {pc : Nat × Nat} (h : pc ∈ pieces a n) : a ≤ pc.1 ∧ pc.1 < a + n := by
  unfold pieces at h
  split at h
  · simp at h
  · obtain ⟨k, hk, rfl⟩ := List.mem_map.1 h
    rw [List.mem_range] at hk
    dsimp only
    omega

/-- The bytes of the first `k` words of a range are those before the word after them. -/
theorem sum_word_lengths (a n k : Nat) :
    ((List.range k).map (fun j => min (a + n) ((a / 16 + j) * 16 + 16) - max a ((a / 16 + j) * 16))).sum =
      min (a + n) ((a / 16 + k) * 16) - a := by
  induction k with
  | zero => simp only [List.range_zero, List.map_nil, List.sum_nil]; omega
  | succ k ih =>
    rw [List.range_succ, List.map_append, List.sum_append, ih, List.map_singleton, List.sum_singleton]
    omega

/-- The pieces of a range cover it: their lengths add up to its length. -/
theorem sum_pieces_lengths (a n : Nat) : ((pieces a n).map (·.2)).sum = n := by
  unfold pieces
  split
  · simp [*]
  · rw [List.map_map]
    exact (sum_word_lengths a n _).trans (by omega)

/-! ## What an absent address answers (R81) -/

/-- Every byte of a range of local offsets is absent. -/
def Block.AbsentRange (b : Block) (a n : Nat) : Prop := ∀ k < n, b.place (a + k) = .absent

@[simp] theorem Block.place_report (b : Block) (r : FaultRec) (a : Nat) : (b.report r).place a = b.place a := rfl

section
variable {b : Block} {a : Nat} (h : b.place a = .absent)
include h

theorem Block.upsetAt_absent (f : Nat) : b.upsetAt a f = b := by
  simp [Block.upsetAt, h]

theorem Block.isMem_absent : b.isMem a = false := by
  simp [Block.isMem, h]

theorem Block.orHold_absent (q : HeldReq) (f : Block → Block) : b.orHold a q f = f b := by
  simp [Block.orHold, Block.heldTile, h]

theorem Block.tagOk_absent (ctx : Nat) : b.tagOk ctx a = true := by
  simp [Block.tagOk, h]

theorem Block.missAt_absent : b.missAt a = some .absent := by
  simp [Block.missAt, Block.memMiss, h]

theorem Block.holderRead_absent : b.holderRead a = (Cw.poison 0, b) := by
  simp [Block.holderRead, h]

theorem Block.holderWrite_absent (ctx : Nat) (ms : MBytes) : b.holderWrite ctx a ms = (false, b) := by
  simp [Block.holderWrite, h]

end

/-- Bytes of the poisoned word are zeros that carry the poison syndrome. -/
theorem Cw.slice_poison_zero (off n : Nat) : (Cw.poison 0).slice off n = List.replicate n (0, true) := by
  simp [Cw.slice, Cw.poison, Cw.isPoison, leBytes, List.map_const']

/-- A reason that holds at every word is gone once it is filtered out. -/
theorem filter_firstMisses {m : Miss} {l : List (Option Miss × Nat)} (h : ∀ x ∈ l, x.1 = some m) :
    (firstMisses l).filter (fun x => x.1 != m) = [] := by
  induction l with
  | nil => rfl
  | cons x l ih =>
    obtain ⟨hx, hl⟩ := List.forall_mem_cons.1 h
    obtain ⟨_, a⟩ := x
    subst hx
    simp [firstMisses, ih hl]

/-- One reason at every word is one reason, at the first. -/
theorem firstMisses_cons {m : Miss} {a : Nat} {l : List (Option Miss × Nat)} (h : ∀ x ∈ l, x.1 = some m) :
    firstMisses ((some m, a) :: l) = [(m, a)] := by
  simp [firstMisses, filter_firstMisses h]

/-- A fold that appends `x` once for each byte of every piece appends as many as the pieces have bytes. -/
theorem foldl_append_replicate {α β : Type} {x : α} {b : β} {f : List α × β → Nat × Nat → List α × β} :
    ∀ {l : List (Nat × Nat)} (xs : List α), (∀ pc ∈ l, ∀ ys, f (ys, b) pc = (ys ++ List.replicate pc.2 x, b)) →
      l.foldl f (xs, b) = (xs ++ List.replicate (l.map (·.2)).sum x, b)
  | [], xs, _ => by simp
  | pc :: l, xs, h => by
    obtain ⟨hpc, hl⟩ := List.forall_mem_cons.1 h
    rw [List.foldl_cons, hpc, foldl_append_replicate _ hl, List.map_cons, List.sum_cons, List.replicate_add, List.append_assoc]

/-- A fold whose every step answers false answers false. -/
theorem foldl_eq_false {β γ : Type} {b : β} {f : Bool × β → γ → Bool × β} {l : List γ}
    (h : ∀ x ∈ l, ∀ c, f (c, b) x = (false, b)) : l.foldl f (false, b) = (false, b) := by
  induction l with
  | nil => rfl
  | cons x l ih =>
    obtain ⟨hx, hl⟩ := List.forall_mem_cons.1 h
    rw [List.foldl_cons, hx, ih hl]

section
variable {b : Block} {a n : Nat} (h : b.AbsentRange a n)
include h

theorem Block.AbsentRange.start (hn : 0 < n) : b.place a = .absent := h 0 hn

theorem Block.AbsentRange.piece {pc : Nat × Nat} (hp : pc ∈ pieces a n) : b.place pc.1 = .absent := by
  obtain ⟨hlo, hhi⟩ := pieces_mem hp
  have := h (pc.1 - a) (by omega)
  rwa [Nat.add_sub_cancel' hlo] at this

/-- Absent addresses have no tag to fail. -/
theorem Block.AbsentRange.tagCheck (hn : 0 < n) (ctx : Nat) : b.tagCheck ctx a n = none := by
  have hlast := h (n - 1) (by omega)
  rw [← Nat.add_sub_assoc hn] at hlast
  simp [Block.tagCheck, Block.tagOk_absent (h.start hn), Block.tagOk_absent hlast]

/-- An absent range gets one record of class ABSENT, at its first byte (R81). -/
theorem Block.AbsentRange.missRecs (hn : 0 < n) (write : Bool) (ctx : Nat) :
    b.missRecs write ctx (b.missesOf a n) = b.absentRec (if write then 2 else 1) ctx a 0 := by
  obtain ⟨m, l, hl⟩ := pieces_head (a := a) hn
  have hmiss : ∀ x ∈ l.map (fun pc => (b.missAt pc.1, pc.1)), x.1 = some .absent := by
    simp only [List.forall_mem_map]
    exact fun pc hp => Block.missAt_absent (h.piece (hl ▸ List.mem_cons_of_mem _ hp))
  rw [Block.missesOf, hl, List.map_cons, Block.missAt_absent (h.start hn), Block.missRecs, firstMisses_cons hmiss]
  rfl

/-- A read of an absent range returns poison and writes one record (R81). -/
theorem Block.AbsentRange.mread (hn : 0 < n) (ctx : Nat) :
    b.mread ctx a n = (⟨List.replicate n (0, true), false⟩, b.absentRec 1 ctx a 0) := by
  unfold Block.mread
  simp only [h.tagCheck hn, h.start hn, h.missRecs hn]
  rw [foldl_append_replicate (x := ((0 : Byte), true)), sum_pieces_lengths]
  · rfl
  · intro pc hp ys
    have hpc : (b.absentRec 1 ctx a 0).place pc.1 = .absent := h.piece hp
    simp [Block.holderRead_absent hpc, Cw.slice_poison_zero]

end

/-- A write to an absent range is discarded and writes one record (R81). -/
theorem Block.AbsentRange.mwrite {b : Block} {a : Nat} {bs : MBytes} (h : b.AbsentRange a bs.length)
    (hn : 0 < bs.length) (ctx : Nat) :
    b.mwrite ctx a bs = (.absent, b.absentRec 2 ctx a 0) := by
  obtain ⟨m, l, hl⟩ := pieces_head (a := a) hn
  have hpc : ∀ pc ∈ pieces a bs.length, (b.absentRec 2 ctx a 0).place pc.1 = .absent := fun pc hp => h.piece hp
  rw [hl] at hpc
  obtain ⟨hhead, htail⟩ := List.forall_mem_cons.1 hpc
  unfold Block.mwrite
  simp only [h.tagCheck hn, h.start hn, h.missRecs hn, hl, List.foldl_cons, if_true, Block.holderWrite_absent hhead]
  rw [Bool.true_and, foldl_eq_false]
  · rfl
  · intro pc hp c
    simp [Block.holderWrite_absent (htail pc hp)]

/-- A request at an absent address that this module holds is performed here, under the context it carries: no stored bit, no
snoop filter entry is there to be hurt. -/
theorem Block.doMemoryRequest_absent {b : Block} {src : Nat} {pa : BitVec 56} {op : MemOp} (hop : op ≠ .fence)
    (hnode : coreOf src = none ∨ nodeOf pa.toNat = b.rd Reg.XL_NODE.SELF) (h : b.place (offOf pa.toNat) = .absent)
    (ctx : BitVec 12) (parity : Bool) (flip : BitVec 144) :
    b.doMemoryRequest src ctx pa op parity flip = b.perform src (b.reqCtx src ctx.toNat) (offOf pa.toNat) op := by
  simp only [Block.doMemoryRequest, Block.upsetAt_absent h, Block.isMem_absent h, Bool.and_false, Bool.false_and,
    Bool.false_eq_true, if_false]
  cases hc : coreOf src with
  | none => simp
  | some core =>
    have hself : nodeOf pa.toNat = b.rd Reg.XL_NODE.SELF := by simpa [hc] using hnode
    cases op with
    | fence => exact absurd rfl hop
    | read | write | fetchAdd | cas => simp [hself]

theorem Block.AbsentRange.perform_read {b : Block} {a : Nat} {n : Fin 129} (h : b.AbsentRange a n.val)
    (hn : 0 < n.val) (src ctx : Nat) :
    b.perform src ctx a (.read n) = (b.absentRec 1 ctx a 0).emit (.data src a 0 (List.replicate n.val (0, true))) := by
  simp [Block.perform, Block.orHold_absent (h.start hn), h.start hn, h.mread hn]

theorem Block.AbsentRange.perform_write {b : Block} {a : Nat} {bs : MBytes} (h : b.AbsentRange a bs.length) (hn : 0 < bs.length)
    (src ctx : Nat) : b.perform src ctx a (.write bs) = (b.absentRec 2 ctx a 0).emit (.data src a 1 []) := by
  simp [Block.perform, Block.orHold_absent (h.start hn), h.mwrite hn, wrStatus]

end Sys2Proof.Machine

namespace Sys2Proof
open Machine Machine.Reg

/-- Settles O19: the request is performed at this module, where the whole range gets one record of class ABSENT, every word
read is the poisoned one and every word written is discarded. -/
theorem absentAddresses : Obligations.AbsentAddresses := by
  intro s src ctx pa hq hnode
  refine ⟨fun n hn (h : s.m.AbsentRange _ _) parity flip => ?read, fun bs hn (h : s.m.AbsentRange _ _) parity flip => ?write⟩
  case read =>
    have hread := (Block.doMemoryRequest_absent (by simp) hnode (h.start hn) ctx parity flip).trans (h.perform_read hn src _)
    exact runs_of rfl ((congrArg Block.regQ hread).trans hq) hread
  case write =>
    have hwrite := (Block.doMemoryRequest_absent (by simp) hnode (h.start hn) ctx parity flip).trans (h.perform_write hn src _)
    exact runs_of rfl ((congrArg Block.regQ hwrite).trans hq) hwrite

end Sys2Proof

/-! ## What the reads of Bracken leave alone -/

namespace Sys2Proof.Machine
open Reg

/-- The register fields that the acceptance of an entry goes by. -/
def acceptFields : List Nat := [TK_COUNT.COUNT.id, BK_SLOT.EN.id]

/-- Between `a` and a later `b` nothing has changed of what Bracken goes by when it judges a queue's entry. -/
structure Steady (a b : Block) : Prop where
  bk : b.bk = a.bk
  regQ : b.regQ = a.regQ
  terminated : b.terminated = a.terminated
  rd : ∀ f : Field, f.id ∈ acceptFields → ∀ i j, b.rd f i j = a.rd f i j

set_option maxRecDepth 20000 in
/-- No field that a read clears is one of them (R7). -/
theorem rc_not_acceptField : ∀ f ∈ allFields, f.acc = .rc → f.id ∉ acceptFields := by decide

theorem RegAt.fields_mem {r : RegAt} {x : Field × Nat} (hx : x ∈ r.fields) : x.1 ∈ allFields := by
  obtain ⟨f, hf, hfx⟩ := List.mem_filterMap.1 (List.mem_filter.1 hx).1
  split at hfx
  · cases hfx; exact hf
  · cases hfx

theorem Steady.refl (a : Block) : Steady a a := ⟨rfl, rfl, rfl, fun _ _ _ _ => rfl⟩

theorem Steady.snd {α : Type} {a b : Block} {p : α × Block} {v : α} (hp : Steady a p.2) (e : p = (v, b)) : Steady a b := by
  subst e; exact hp

theorem Steady.foldl {α β : Type} {a : Block} {f : α × Block → β → α × Block} {l : List β} :
    ∀ {p : α × Block}, Steady a p.2 → (∀ x ∈ l, ∀ p, Steady a p.2 → Steady a (f p x).2) → Steady a (l.foldl f p).2 := by
  induction l with
  | nil => exact fun h _ => h
  | cons x l ih =>
    exact fun h hf => ih (hf x List.mem_cons_self _ h) fun y hy => hf y (List.mem_cons_of_mem _ hy)

theorem Steady.each {α : Type} {a : Block} {f : Block → α → Block} {l : List α} :
    ∀ {b : Block}, Steady a b → (∀ b x, Steady a b → Steady a (f b x)) → Steady a (b.each l f) := by
  induction l with
  | nil => exact fun h _ => h
  | cons x l ih => exact fun h hf => ih (hf _ x h) hf

/-! Each rule below says of one operation that Bracken's reads are made of that it is steady. -/

section
variable {a b : Block} (h : Steady a b)
include h

/-- A change of neither the registers nor what Bracken holds. -/
theorem Steady.other {c : Block} (hregs : c.regs = b.regs := by rfl) (hbk : c.bk = b.bk := by rfl)
    (hq : c.regQ = b.regQ := by rfl) (ht : c.terminated = b.terminated := by rfl) : Steady a c :=
  ⟨hbk.trans h.bk, hq.trans h.regQ, ht.trans h.terminated,
   fun f hf i j => (congrArg (fun r => SMap.get (f.resetAt i j) r (f.key i j)) hregs).trans (h.rd f hf i j)⟩

theorem Steady.wr {f : Field} {v i j : Nat} (hf : f.id ∉ acceptFields := by decide) : Steady a (b.wr f v i j) :=
  ⟨h.bk, h.regQ, h.terminated, fun g hg k l =>
    (Block.rd_wr_id b (fun e : f.id = g.id => hf (e ▸ hg)) v i j k l).trans (h.rd g hg k l)⟩

theorem Steady.inc {f : Field} {n i j : Nat} (hf : f.id ∉ acceptFields := by decide) : Steady a (b.inc f n i j) := h.wr hf

theorem Steady.report {r : FaultRec} : Steady a (b.report r) := h.other

theorem Steady.draw (w : Nat) : Steady a (b.draw w).2 := h.other

/-! ### Registers -/

theorem Steady.afterRead {f : Field} (hf : f ∈ allFields) (i j : Nat) : Steady a (b.afterRead f i j) := by
  unfold Block.afterRead
  split
  · next hrc => exact h.wr (rc_not_acceptField f hf hrc)
  · exact h

theorem Steady.readOne {f : Field} (hf : f ∈ allFields) (i j : Nat) : Steady a (b.readOne f i j).2 := by
  unfold Block.readOne
  dsimp only
  repeat' split
  · exact h
  · exact h
  · exact h
  · exact (h.draw _).afterRead hf _ j
  · exact h.afterRead hf _ j

theorem Steady.readReg (r : RegAt) : Steady a (b.readReg r).2 :=
  h.foldl fun _ hx _ hp => hp.readOne (RegAt.fields_mem hx) _ _

theorem Steady.regRead (ctx off n : Nat) : Steady a (b.regRead ctx off n).2 := by
  unfold Block.regRead
  repeat' split
  · exact h.report
  · exact h.report
  · exact h
  · exact h.report
  · exact h.readReg _

/-! ### Memory -/

theorem Steady.rowLog (i ch pc bank row : Nat) (unc : Bool) : Steady a (b.rowLog i ch pc bank row unc) := by
  unfold Block.rowLog
  extract_lets hit
  cases hit with
  | some e =>
    cases unc with
    | true => exact h.inc.wr
    | false => exact h.inc
  | none => exact h.wr.wr.wr.wr.wr.wr.wr

theorem Steady.memErr (x src : Nat) : Steady a (b.memErr x src) := by
  unfold Block.memErr
  generalize b.locOf x = loc
  refine (Steady.rowLog ?_ _ _ _ _ _ _).report
  split
  · exact h.inc.wr
  · exact h.inc.wr.wr.wr.wr.wr.wr

theorem Steady.memCorr (x : Nat) : Steady a (b.memCorr x) := by
  unfold Block.memCorr
  exact h.inc.rowLog _ _ _ _ _ _

theorem Steady.putWord (x : Nat) (w : Cw) : Steady a (b.putWord x w) := h.other

theorem Steady.ctlRead (x src : Nat) : Steady a (b.ctlRead x src).2 := by
  unfold Block.ctlRead
  split
  · exact h
  · exact h
  · exact (h.putWord x _).memCorr x
  · exact (h.putWord x _).memErr x src

theorem Steady.lsRead (p off : Nat) : Steady a (b.lsRead p off).2 := by
  unfold Block.lsRead
  extract_lets
  split
  · exact h
  · exact h
  · exact h.other
  · exact h.other

theorem Steady.tagFail (ctx x : Nat) : Steady a (b.tagFail ctx x) := h.inc.report

theorem Steady.missRec (write : Bool) (ctx x : Nat) (m : Miss) : Steady a (b.missRec write ctx x m) := by
  cases m with
  | absent => exact h.report
  | stack m => exact h.report
  | pkg p =>
    unfold Block.missRec Block.pkgAccess
    dsimp only
    split
    · exact h.inc
    · exact h.other

theorem Steady.missRecs (write : Bool) (ctx : Nat) (ms : List (Option Miss × Nat)) : Steady a (b.missRecs write ctx ms) :=
  h.each fun _ _ hb => hb.missRec write ctx _ _

omit h in
theorem Steady.checkWords (region line : Nat) (ws : List Cw) :
    ∀ {b : Block} (i : Nat), Steady a b → Steady a (b.checkWords region line i ws).2 := by
  induction ws with
  | nil => exact fun _ h => h
  | cons w ws ih =>
    intro b i h
    unfold Block.checkWords
    extract_lets r c
    refine ih (b := c) _ ?_
    subst c
    split
    · exact h.inc.report
    · exact h.inc
    · exact h

omit h in
theorem Steady.putWords (line : Nat) (ws : List Cw) :
    ∀ {b : Block} (i : Nat), Steady a b → Steady a (b.putWords line i ws) := by
  induction ws with
  | nil => exact fun _ h => h
  | cons w ws ih => exact fun _ h => ih _ (h.putWord _ w)

theorem Steady.writeBackWords (ln : RcLine) : Steady a (b.writeBackWords ln).2 := by
  have hc := Steady.checkWords ln.region ln.line ln.words 0 h
  unfold Block.writeBackWords
  dsimp only
  split
  · exact hc.missRec _ _ _ _
  · exact Steady.putWords _ _ _ hc

theorem Steady.recall (line : Nat) : Steady a (b.recall line) := by
  unfold Block.recall
  split
  · exact h
  · next x _ => exact (h.writeBackWords x).other

theorem Steady.rcCheck (x : RcLine) (i : Nat) : Steady a (b.rcCheck x i).2 := by
  unfold Block.rcCheck
  split
  · exact (h.inc (f := RC_ERR_CNT.CORRECTED)).other
  · exact (h.inc (f := RC_ERR_CNT.POISONED)).other
  · exact h

theorem Steady.lockRead (r w : Nat) : Steady a (b.lockRead r w).2 := by
  unfold Block.lockRead
  repeat' split
  · exact h
  · exact h.rcCheck _ _
  · exact h

theorem Steady.memRead (x : Nat) : Steady a (b.memRead x).2 := by
  unfold Block.memRead
  split
  · exact h
  · exact (h.recall _).ctlRead _ _

theorem Steady.holderRead (x : Nat) : Steady a (b.holderRead x).2 := by
  unfold Block.holderRead
  repeat' split
  · exact h.memRead x
  · exact h.memRead x
  · exact h
  · exact h
  · exact h.lsRead _ _
  · exact h
  · exact h.lockRead _ _
  · exact h

theorem Steady.mread (ctx x n : Nat) : Steady a (b.mread ctx x n).2 := by
  unfold Block.mread
  dsimp only
  repeat' split
  · exact h.tagFail ctx _
  · exact h.regRead ctx _ n
  · exact (h.missRecs _ _ _).foldl fun _ _ _ hp => hp.holderRead _

theorem Steady.tableWords (off n : Nat) : Steady a (b.tableWords off n).2.2 := h.mread _ _ _

/-! ### The Damask engine -/

theorem Steady.protect (sub : Nat) : Steady a (b.protect sub).2 := by
  unfold Block.protect
  repeat' split
  · exact h
  · exact h
  · exact (h.other (c := b.onPorts _)).wr.report
  · exact h.other

theorem Steady.txFrame (sub : Nat) : Steady a (b.txFrame sub).2 := by
  have hp := h.protect sub
  unfold Block.txFrame
  dsimp only
  repeat' split
  · exact h
  · exact hp.inc
  · exact hp
  · exact h.inc
  · exact h

theorem Steady.onDm (f : Damask → Damask) : Steady a (b.onDm f) := h.other

theorem Steady.dmWire (node path cls : Nat) (m : DmMsg) : Steady a (b.dmWire node path cls m) := by
  have ht := (h.inc (f := DM_MSG_CNT.TX) (n := 1) (i := 0) (j := 0)).txFrame m.port
  unfold Block.dmWire
  dsimp only
  split
  · exact ht.other
  · exact ht

omit h in
theorem Steady.dmPumpN (id n : Nat) : ∀ {b : Block}, Steady a b → Steady a (Block.dmPumpN n b id) := by
  induction n with
  | zero => exact fun h => h
  | succ n ih =>
    intro b h
    unfold Block.dmPumpN
    repeat' split
    · exact h
    · exact h
    · exact ih ((h.onDm _).dmWire _ _ _ _)
    · exact h

theorem Steady.dmPump (id : Nat) : Steady a (b.dmPump id) := Steady.dmPumpN _ _ h

theorem Steady.dmPath (node cls src : Nat) : Steady a (b.dmPath node cls src).2 := by
  unfold Block.dmPath
  repeat' split
  · exact h
  · exact h
  · exact (h.onDm _).inc.dmPump _

theorem Steady.dmSend (node cls src type rel ctx off : Nat) (args : List Nat) (data : MBytes) (owner : Option Issuer)
    (record held : Option Nat) (ent : Option (Nat × Nat)) :
    Steady a (b.dmSend node cls src type rel ctx off args data owner record held ent).2 := by
  have hp := h.dmPath node cls src
  unfold Block.dmSend
  split
  · next e => exact hp.snd e
  · next e => exact ((hp.snd e).onDm _).dmPump _

theorem Steady.dmAsk (node cls src type rel ctx off len : Nat) (args : List Nat) (who : Waiter) (owner : Option Issuer)
    (record held : Option Nat) (ent : Option (Nat × Nat)) :
    Steady a (b.dmAsk node cls src type rel ctx off len args who owner record held ent) := by
  unfold Block.dmAsk
  exact ((h.onDm _).dmSend _ _ _ _ _ _ _ _ _ _ _ _ _).onDm _

theorem Steady.dmRead (node cls src ctx off len : Nat) (who : Waiter) (ent : Option (Nat × Nat)) :
    Steady a (b.dmRead node cls src ctx off len who ent).2 := by
  unfold Block.dmRead
  split
  · exact h.dmAsk _ _ _ _ _ _ _ _ _ _ _ _ _ _
  · exact h.report

/-! ### Translation -/

theorem Steady.room {α : Type} (n : Nat) (l : List α) : Steady a (b.room n l).2 := by
  unfold Block.room
  dsimp only
  split
  · exact h
  · exact h.draw 32

omit h in
theorem Steady.enterAll {α : Type} (n : Nat) (xs : List α) :
    ∀ {b : Block} (l : List α), Steady a b → Steady a (Block.enterAll n xs b l).2 := by
  induction xs with
  | nil => exact fun _ h => h
  | cons x xs ih => exact fun l h => ih _ (h.room n l)

theorem Steady.ctxEntry (ctx : Nat) : Steady a (b.ctxEntry ctx).2 := by
  unfold Block.ctxEntry
  split
  · exact h
  split
  · exact h
  dsimp only
  split
  · exact h.tableWords _ _
  · exact (h.tableWords _ _).other

theorem Steady.pteRead (ctx va : Nat) (write : Bool) (table level : Nat) : Steady a (b.pteRead ctx va write table level).2 := by
  have ht := h.tableWords (table + 8 * bits va (12 + 9 * level) 9) 1
  unfold Block.pteRead
  dsimp only
  repeat' split
  all_goals exact ht

omit h in
theorem Steady.walkFrom (ctx va : Nat) (write : Bool) (level : Nat) :
    ∀ {b : Block} (table : Nat) (path : List WalkE), Steady a b → Steady a (Block.walkFrom ctx va write level b table path).2 := by
  induction level with
  | zero =>
    intro b table path h
    have hp := h.pteRead ctx va write table 0
    unfold Block.walkFrom
    split
    all_goals next e => exact hp.snd e
  | succ l ih =>
    intro b table path h
    have hp := h.pteRead ctx va write table (l + 1)
    unfold Block.walkFrom
    split
    · next e => exact hp.snd e
    · next e => exact hp.snd e
    · next e => exact ih _ _ (hp.snd e)

theorem Steady.walk (ctx va : Nat) (write : Bool) : Steady a (b.walk ctx va write).2 := by
  have hc := (h.inc (f := XL_WALK_CNT.WALKS) (n := 1) (i := 0) (j := 0)).ctxEntry ctx
  unfold Block.walk
  extract_lets b₁
  split
  · next e => exact hc.snd e
  · next c b₂ e =>
    have hw := Steady.walkFrom ctx va write (b₂.walkStart c va).1 (b₂.walkStart c va).2 [] (hc.snd e)
    dsimp only
    split
    · exact (Steady.enterAll 1024 _ _ hw).other
    · exact hw

theorem Steady.sharedXl (ctx va : Nat) (write : Bool) : Steady a (b.sharedXl ctx va write).2 := by
  have hw := h.walk ctx va write
  unfold Block.sharedXl
  split
  · exact h
  dsimp only
  repeat' split
  · exact (hw.room 8192 _).other
  · exact hw
  · exact hw

theorem Steady.xlFail (cause ctx va : Nat) : Steady a (b.xlFail cause ctx va) := h.inc.report

theorem Steady.route (ctx : Nat) (e : TlbE) (va : Nat) (write : Bool) : Steady a (b.route ctx e va write).2 := by
  have hc := h.ctxEntry ctx
  unfold Block.route
  dsimp only
  split
  · exact h
  split
  · exact h
  split
  all_goals next e => exact hc.snd e

theorem Steady.useLeaf (ctx : Nat) (e : TlbE) (va : Nat) (write : Bool) : Steady a (b.useLeaf ctx e va write).2 := by
  have hr := h.route ctx e va write
  unfold Block.useLeaf
  dsimp only
  split
  · exact hr
  · exact hr.xlFail _ ctx va

theorem Steady.xlate (ctx va : Nat) (write : Bool) : Steady a (b.xlate ctx va write).2 := by
  have hs := h.sharedXl ctx va write
  unfold Block.xlate
  dsimp only
  repeat' split
  · exact h.xlFail _ ctx va
  · exact hs.xlFail _ ctx va
  · exact hs.useLeaf ctx _ va write

/-- A read by Bracken leaves alone what it goes by. -/
theorem Steady.bread (ctx va n : Nat) (far : Option (List Byte)) : Steady a (b.bread ctx va n far).2 := by
  have hx := h.xlate ctx va false
  unfold Block.bread
  dsimp only
  split
  · exact hx
  split
  · have hm := hx.mread ctx (offOf (b.xlate ctx va false).1.pa) n
    repeat' split
    all_goals exact hm
  · have hd := hx.dmRead (nodeOf (b.xlate ctx va false).1.pa) 0 512 ctx (offOf (b.xlate ctx va false).1.pa) n .bracken none
    repeat' split
    all_goals exact hd

end

/-! ## Queues and the entries they accept -/

/-! ### One queue -/

theorem Block.queue_q {b : Block} {q : Nat} {x : Queue} (hx : b.queue q = some x) : x.q = q := by
  unfold Block.queue at hx
  simpa using List.find?_some (p := fun x : Queue => x.q == q) hx

theorem Block.queue_congr {b c : Block} (h : c.bk.queues = b.bk.queues) (q : Nat) : c.queue q = b.queue q := by
  unfold Block.queue
  rw [h]

theorem Steady.queue {a b : Block} (h : Steady a b) (q : Nat) : b.queue q = a.queue q :=
  Block.queue_congr (congrArg Bracken.queues h.bk) q

/-- An update that keeps a queue's number updates the queue of that number. -/
theorem Block.queue_onQueue (b : Block) (q : Nat) {f : Queue → Queue}
    (hf : ∀ x, (f x).q = x.q := by exact fun _ => rfl) :
    (b.onQueue q f).queue q = (b.queue q).map f := by
  have hkeep : ((fun x : Queue => x.q == q) ∘ fun x : Queue => if x.q == q then f x else x) = fun x => x.q == q := by
    funext x
    simp only [Function.comp]
    split
    · rw [hf x]
    · rfl
  show (b.bk.queues.map _).find? (fun x : Queue => x.q == q) = _
  rw [List.find?_map, hkeep]
  cases hx : b.bk.queues.find? (fun x => x.q == q) with
  | none => simp [Block.queue, hx]
  | some x =>
    have hq : x.q = q := Block.queue_q hx
    simp [Block.queue, hx, hq]

theorem Block.queue_onQueue_some {b : Block} {q : Nat} {x : Queue} {f : Queue → Queue} (hx : b.queue q = some x)
    (hf : ∀ x, (f x).q = x.q := by exact fun _ => rfl) : (b.onQueue q f).queue q = some (f x) := by
  rw [b.queue_onQueue q hf, hx, Option.map_some]

/-- Parking: the queue is PARKED with the cause and reads nothing (R470). -/
theorem Block.queue_park {b : Block} {q cause : Nat} {x : Queue} (hx : b.queue q = some x) :
    (b.park q cause).queue q = some { x with st := 5, cause := cause, rd := 0 } :=
  (Block.queue_congr rfl q).trans (Block.queue_onQueue_some (f := fun x => { x with st := 5, cause := cause, rd := 0 }) hx)

/-- Serving on (R446): the next entry is read where the producer lies beyond it, the doorbell word otherwise. -/
theorem Block.queue_serve {b : Block} {q : Nat} {x : Queue} (hx : b.queue q = some x) :
    (b.serve q).queue q = some
      (if x.cons ≠ x.prodSeen then { x with st := 2, rd := 1, tries := 0 } else { x with st := 1, rd := 2 }) :=
  Block.queue_onQueue_some hx fun _ => by split <;> rfl

/-! ### The doorbell word -/

/-- What the producer index of the doorbell word makes of a queue (R446): parked where the producer lies beyond the ring, at
rest where it is the consumer, and otherwise reading its head entry. -/
def Queue.rung (x : Queue) (prod : Nat) : Queue :=
  if (prod + 2 ^ 32 - x.cons) % 2 ^ 32 > x.size then { x with dbPend := false, prodSeen := prod, st := 5, cause := 3, rd := 0 }
  else if prod = x.cons then { x with dbPend := false, prodSeen := prod, rd := 0 }
  else { x with dbPend := false, prodSeen := prod, st := 2, rd := 1, tries := 0 }

theorem Queue.rung_spec (x : Queue) (prod : Nat) :
    (x.rung prod).dbPend = false ∧ (x.rung prod).prodSeen = prod ∧ (x.rung prod).cons = x.cons ∧
    if x.size < (prod + 2 ^ 32 - x.cons) % 2 ^ 32 then (x.rung prod).st = 5 ∧ (x.rung prod).cause = 3
    else if prod = x.cons then (x.rung prod).st = x.st ∧ (x.rung prod).rd = 0
    else (x.rung prod).st = 2 ∧ (x.rung prod).rd = 1 := by
  unfold Queue.rung
  split
  · exact ⟨rfl, rfl, rfl, rfl, rfl⟩
  split
  · exact ⟨rfl, rfl, rfl, rfl, rfl⟩
  · exact ⟨rfl, rfl, rfl, rfl, rfl⟩

/-- The part of `Block.doorbellRead` that judges the word `r` that was read. -/
def Block.doorbellGot (b : Block) (x : Queue) (r : RdRes) : Block :=
  let b := b.onQueue x.q (fun x => { x with dbPend := false, rd := 0 })
  if r.tagFail ∨ r.pois then b.park x.q 2
  else
    let prod := leNat r.bytes % 2 ^ 32
    let b := b.onQueue x.q (fun x => { x with prodSeen := prod })
    if (prod + 2 ^ 32 - x.cons) % 2 ^ 32 > x.size then b.park x.q 3
    else if prod = x.cons then b
    else b.onQueue x.q (fun x => { x with st := 2, rd := 1, tries := 0 })

theorem Block.doorbellRead_eq (b : Block) (x : Queue) :
    b.doorbellRead x = (b.mread x.ctx (b.rd BK_DB.BASE * 2 ^ 16 + 64 * x.q) 8).2.doorbellGot x
      (b.mread x.ctx (b.rd BK_DB.BASE * 2 ^ 16 + 64 * x.q) 8).1 := rfl

section
variable {b : Block} {x : Queue} {r : RdRes}

theorem Block.regQ_doorbellGot (b : Block) (x : Queue) (r : RdRes) : (b.doorbellGot x r).regQ = b.regQ := by
  unfold Block.doorbellGot
  dsimp only
  repeat' split
  all_goals rfl

section
variable (hx : b.queue x.q = some x)
include hx

/-- A doorbell word that cannot be read parks the queue. -/
theorem Block.queue_doorbellGot_unreadable (hbad : r.tagFail = true ∨ r.pois = true) :
    (b.doorbellGot x r).queue x.q = some { x with dbPend := false, st := 5, cause := 2, rd := 0 } := by
  unfold Block.doorbellGot
  rw [if_pos hbad]
  exact Block.queue_park (Block.queue_onQueue_some hx)

/-- The producer index that was read is noted and the queue goes by it. -/
theorem Block.queue_doorbellGot_readable (htag : r.tagFail = false) (hpois : r.pois = false) :
    (b.doorbellGot x r).queue x.q = some (x.rung (leNat r.bytes % 2 ^ 32)) := by
  have hnoted := Block.queue_onQueue_some (f := fun y => { y with prodSeen := leNat r.bytes % 2 ^ 32 })
    (Block.queue_onQueue_some (f := fun y => { y with dbPend := false, rd := 0 }) hx)
  unfold Block.doorbellGot Queue.rung
  rw [if_neg (by simp [htag, hpois])]
  dsimp only
  split
  · exact Block.queue_park hnoted
  split
  · exact hnoted
  · exact Block.queue_onQueue_some hnoted

end
end

/-! ### The head entry -/

/-- On the first lap the phase is 1, so zeroed memory is stale. -/
theorem phaseOf_firstLap {i size : Nat} (hi : i < size) : phaseOf i size = 1 := by
  simp [phaseOf, Nat.div_eq_of_lt hi]

section
variable {b : Block} {x : Queue} {r : BRes} {tries : Nat}

theorem Block.entryGot_unreadable (hfail : r.fail ≠ 0) : b.entryGot x r tries = b.park x.q 2 := if_pos hfail

section
variable (hfail : r.fail = 0)
include hfail

/-- A stale entry is read again, or parks its queue after the 64th read of it again (R446). -/
theorem Block.entryGot_stale (hstale : bits ((words64 8 r.bytes).getD 0 0) 0 8 ≠ phaseOf x.cons x.size) :
    b.entryGot x r tries =
      if tries ≥ 64 then b.park x.q 1 else b.onQueue x.q (fun x => { x with st := 2, rd := 3, tries := tries }) := by
  unfold Block.entryGot
  rw [if_neg (not_not.2 hfail)]
  exact if_pos hstale

theorem Block.entryGot_accepts (hnow : bits ((words64 8 r.bytes).getD 0 0) 0 8 = phaseOf x.cons x.size)
    (hgood : entryBad (words64 8 r.bytes) = false) (hwait : bit ((words64 8 r.bytes).getD 0 0) 12 = false) :
    b.entryGot x r tries = b.acceptEntry x (words64 8 r.bytes) none := by
  unfold Block.entryGot
  rw [if_neg (not_not.2 hfail)]
  dsimp only
  rw [if_neg (not_not.2 hnow), hgood, hwait]
  rfl

end
end

/-- A valid STEPS entry has at least one step (R443). -/
theorem nsteps_pos_of_good {ent : List Nat} (hgood : entryBad ent = false) (hty : bits (ent.getD 0 0) 8 3 = 0) :
    0 < bits (ent.getD 7 0) 32 6 := by
  simp only [entryBad, hty, Bool.or_eq_false_iff] at hgood
  obtain ⟨-, hsteps⟩ := hgood
  by_contra hnone
  rw [Nat.eq_zero_of_not_pos hnone] at hsteps
  exact absurd hsteps (by decide)

/-! ### Acceptance -/

/-- The command that an entry of the queue becomes when it is accepted at tick `now` (R40, R41, R436, R442). -/
def Queue.command (x : Queue) (ent : List Nat) (tag now : Nat) : Cmd :=
  let w := fun k => ent.getD k 0
  { tag := tag, queue := x.q, slot := x.slot, qctx := x.ctx, index := x.cons, user := bits (w 0) 32 32, typ := bits (w 0) 8 3,
    prog := bits (w 7) 0 32, nsteps := bits (w 7) 32 6, args := w 1, complVa := w 2, inc := bit (w 0) 11, incVa := w 3,
    incVal := w 4, ingest := now, deadline := now + x.lat - 1, closed := false, done := false, issued := false, hand := none,
    route := x.route, qpn := bits x.w3 0 24, rkey := bits x.w3 32 32, lastTile := none, lost := false }

/-- The steps that a STEPS command asks for (R453). -/
def Cmd.asks (c : Cmd) : List PStep :=
  (List.range c.nsteps).map (fun j => ⟨c.tag, c.prog, (c.args + 256 * j) % 2 ^ 48, false, none⟩)

/-- Command `c` of queue `x` has entered the command table and CONS has moved past its entry; it has not started. -/
structure Entered (b b₁ : Block) (x : Queue) (c : Cmd) : Prop where
  cmds : b₁.bk.cmds = b.bk.cmds ++ [c]
  steps : b₁.bk.steps = b.bk.steps
  queue : b₁.queue x.q = (b.queue x.q).map (fun x => { x with cons := (x.cons + 1) % 2 ^ 32, pub := true })
  terminated : b₁.terminated = b.terminated
  regQ : b₁.regQ = b.regQ

/-- An entry for which there is room enters, its command starts, and the queue is served on. -/
theorem Block.acceptEntry_of_room {b : Block} {x : Queue} {ent : List Nat} (hroom : b.roomFor x = true)
    (hty : bits (ent.getD 0 0) 8 3 ≠ 1) :
    ∃ tag b₁, Entered b b₁ x (x.command ent tag b.now) ∧
      b.acceptEntry x ent none = (b₁.startCmd x.hcore (x.command ent tag b.now) none).serve x.q := by
  have hnow : (b.dropWatch x.q).freeIndex.2.now = b.now := Block.rd_wr_id _ (by decide) _ _ _ _ _
  unfold Block.acceptEntry
  dsimp only
  rw [hroom, beq_eq_false_iff_ne.2 hty, if_neg (by simp), hnow]
  refine ⟨_, _, ?_, rfl⟩
  exact ⟨rfl, rfl, Block.queue_onQueue _ _, rfl, rfl⟩

/-- A command with a step yet to place does not complete. -/
theorem Block.tryOk_of_step {b : Block} {tag : Nat} {g : PStep} (hg : g ∈ b.bk.steps) (htag : g.tag = tag) :
    b.tryOk tag = b := by
  have hany : b.bk.steps.any (fun s => s.tag == tag) = true := List.any_eq_true.2 ⟨g, hg, by simp [htag]⟩
  unfold Block.tryOk
  split
  · rfl
  · exact if_neg (by simp [hany])

/-- A STEPS command whose context is not terminated starts CLOSEd, with its steps to place (R453). -/
theorem Block.startCmd_steps {b : Block} {h : Nat} {c : Cmd} (hterm : b.isTerm c.qctx = false) (hty : c.typ = 0)
    (hn : 0 < c.nsteps) :
    b.startCmd h c none = (b.onCmd c.tag (fun c => { c with closed := true })).onBk
      (fun k => { k with steps := k.steps ++ c.asks }) := by
  have hfirst : (⟨c.tag, c.prog, (c.args + 256 * 0) % 2 ^ 48, false, none⟩ : PStep) ∈ c.asks :=
    List.mem_map.2 ⟨0, List.mem_range.2 hn, rfl⟩
  unfold Block.startCmd
  simp only [hterm, hty, Bool.false_eq_true, if_false, if_true, zero_ne_one]
  exact Block.tryOk_of_step (List.mem_append_right _ hfirst) rfl

/-- What acceptance makes of a queue (R40, R446): CONS has moved past the entry and is to be published, and the queue has
been served on. -/
def Queue.advanced (x : Queue) : Queue :=
  let y := { x with cons := (x.cons + 1) % 2 ^ 32, pub := true }
  if y.cons ≠ y.prodSeen then { y with st := 2, rd := 1, tries := 0 } else { y with st := 1, rd := 2 }

theorem Queue.advanced_spec (x : Queue) :
    x.advanced.cons = (x.cons + 1) % 2 ^ 32 ∧ x.advanced.pub = true ∧
    if x.advanced.cons ≠ x.prodSeen then x.advanced.st = 2 ∧ x.advanced.rd = 1 else x.advanced.st = 1 ∧ x.advanced.rd = 2 := by
  unfold Queue.advanced
  dsimp only
  split
  · exact ⟨rfl, rfl, rfl, rfl⟩
  · exact ⟨rfl, rfl, rfl, rfl⟩

/-- The only command, of a STEPS entry: what its acceptance leaves (R40, R41, R436, R446, R453). -/
structure AcceptedAlone (b b' : Block) (x : Queue) (c : Cmd) : Prop where
  cmds : b'.bk.cmds = [{ c with closed := true }]
  steps : b'.bk.steps = c.asks
  queue : b'.queue x.q = some x.advanced
  regQ : b'.regQ = b.regQ

theorem Block.acceptEntry_alone {b : Block} {x : Queue} {ent : List Nat} (hx : b.queue x.q = some x)
    (hroom : b.roomFor x = true) (hterm : b.isTerm x.ctx = false) (hgood : entryBad ent = false)
    (hty : bits (ent.getD 0 0) 8 3 = 0) (hcmds : b.bk.cmds = []) (hsteps : b.bk.steps = []) :
    ∃ tag, AcceptedAlone b (b.acceptEntry x ent none) x (x.command ent tag b.now) := by
  obtain ⟨tag, b₁, hin, hacc⟩ := Block.acceptEntry_of_room hroom (ent := ent) (by rw [hty]; decide)
  have hterm₁ : b₁.isTerm x.ctx = false := (congrArg (NSet.mem · x.ctx) hin.terminated).trans hterm
  rw [Block.startCmd_steps hterm₁ hty (nsteps_pos_of_good hgood hty)] at hacc
  refine ⟨tag, ?cmds, ?steps, ?queue, ?regQ⟩ <;> rw [hacc]
  case cmds =>
    show b₁.bk.cmds.map _ = _
    simp [hin.cmds, hcmds]
  case steps =>
    show b₁.bk.steps ++ _ = _
    simp [hin.steps, hsteps]
  case queue =>
    have hstart := hin.queue
    rw [hx, Option.map_some] at hstart
    exact Block.queue_serve hstart
  case regQ => exact hin.regQ

/-! ### The reads that return -/

theorem Steady.roomFor {b c : Block} (h : Steady b c) (x : Queue) : c.roomFor x = b.roomFor x := by
  unfold Block.roomFor Block.on
  rw [h.bk, h.rd _ (by decide)]

theorem Steady.isTerm {b c : Block} (h : Steady b c) (ctx : Nat) : c.isTerm ctx = b.isTerm ctx :=
  congrArg (NSet.mem · ctx) h.terminated

theorem Steady.now {b c : Block} (h : Steady b c) : c.now = b.now := h.rd _ (by decide) 0 0

section
variable {b : Block} {q : BitVec 10} {far : Option (List Byte)} {x : Queue} (hx : b.queue q.toNat = some x)
  (hruns : b.bkRuns = true)
include hx hruns

theorem Block.doRingEntryFetch_doorbell (hst : x.st ≠ 4) (hrd : x.rd = 2) :
    b.doRingEntryFetch q far = b.doorbellRead x := by
  simp [Block.doRingEntryFetch, hx, hruns, hst, hrd]

theorem Block.doRingEntryFetch_entry (hst : x.st ≠ 4) (hrd : x.rd = 1) :
    b.doRingEntryFetch q far = b.entryRead x far 0 := by
  simp [Block.doRingEntryFetch, hx, hruns, hst, hrd]

theorem Block.doStaleEntryReread_entry (hrd : x.rd = 3) :
    b.doStaleEntryReread (.inl q) far = b.entryRead x far (x.tries + 1) := by
  simp [Block.doStaleEntryReread, hx, hruns, hrd]

end
end Sys2Proof.Machine

namespace Sys2Proof
open Machine Machine.Reg

/-- A ring entry fetch runs, where the read that returns owes no register write. -/
theorem runs_ringEntryFetch {s : State} {q : BitVec 10} {far : Option (List Byte)} {b : Block} {P : Block → Prop}
    (h : s.m.doRingEntryFetch q far = b) (hq : b.regQ = []) (hp : P b) : Runs (.ringEntryFetch q far) s P := by
  subst h
  exact runs_of rfl hq hp

/-- The read of a stale entry again runs, where it owes no register write. -/
theorem runs_staleEntryReread {s : State} {q : BitVec 10} {far : Option (List Byte)} {b : Block} {P : Block → Prop}
    (h : s.m.doStaleEntryReread (.inl q) far = b) (hq : b.regQ = []) (hp : P b) :
    Runs (.staleEntryReread (.inl q) far) s P := by
  subst h
  exact runs_of rfl hq hp

/-- Settles O32: a read changes nothing of what Bracken judges the queue by (`Steady.mread`, `Steady.bread`), so what the
command leaves is what `doorbellGot` and `entryGot` make of the word or the entry. -/
theorem ringEntries : Obligations.RingEntries := by
  intro s q far x hregs hruns hx hst d prod e ent stale
  have hnum : x.q = q.toNat := Block.queue_q hx
  refine ⟨fun i => rfl, fun i hi => by rw [phaseOf_firstLap hi]; decide, fun hrd => ?doorbell, ?head⟩
  case doorbell =>
    have hword := (Steady.refl s.m).mread x.ctx (s.m.rd BK_DB.BASE * 2 ^ 16 + 64 * x.q) 8
    have hfetch := (Block.doRingEntryFetch_doorbell (far := far) hx hruns hst hrd).trans (Block.doorbellRead_eq _ _)
    rw [← hnum] at hx ⊢
    have hback := (hword.queue x.q).trans hx
    have hq := (Block.regQ_doorbellGot _ x d).trans (hword.regQ.trans hregs)
    refine ⟨fun hbad => runs_ringEntryFetch hfetch hq ⟨_, Block.queue_doorbellGot_unreadable hback hbad, rfl, rfl⟩,
      fun htag hpois => runs_ringEntryFetch hfetch hq ⟨_, Block.queue_doorbellGot_readable hback htag hpois, ?_⟩⟩
    exact Queue.rung_spec x prod
  case head =>
    have hread : Steady s.m e.2 := (Steady.refl s.m).bread _ _ _ far
    have hgot : ∀ n, s.m.entryRead x far n = e.2.entryGot x e.1 n := fun _ => rfl
    clear_value e
    have hq := hread.regQ.trans hregs
    have hback := (hread.queue q.toNat).trans hx
    refine ⟨fun hrd => ?first, fun hrd hgood hstale => ?again⟩
    case first =>
      have hfetch := (Block.doRingEntryFetch_entry (far := far) hx hruns hst hrd).trans (hgot 0)
      rw [← hnum] at hback ⊢
      refine ⟨fun hfail => ?unreadable, fun hgood hstale => ?stale,
        fun hgood hcurrent hvalid hwait hsteps hroom hterm _ hcmds hnone => ?accepted⟩
      case unreadable =>
        exact runs_ringEntryFetch (hfetch.trans (Block.entryGot_unreadable hfail)) hq ⟨_, Block.queue_park hback, rfl, rfl⟩
      case stale =>
        have hjudged := hfetch.trans (Block.entryGot_stale hgood hstale)
        exact runs_ringEntryFetch (hjudged.trans (if_neg (by decide))) hq ⟨_, Block.queue_onQueue_some hback, rfl, rfl, rfl⟩
      case accepted =>
        obtain ⟨tag, hin⟩ := Block.acceptEntry_alone hback ((hread.roomFor x).trans hroom) ((hread.isTerm _).trans hterm)
          hvalid hsteps ((congrArg Bracken.cmds hread.bk).trans hcmds) ((congrArg Bracken.steps hread.bk).trans hnone)
        rw [hread.now] at hin
        exact runs_ringEntryFetch (hfetch.trans (Block.entryGot_accepts hgood (not_not.1 hcurrent) hvalid hwait))
          (hin.regQ.trans hq)
          ⟨_, hin.cmds, rfl, rfl, rfl, rfl, rfl, rfl, rfl, rfl, rfl, hin.steps, _, hin.queue, x.advanced_spec⟩
    case again =>
      have hfetch := (Block.doStaleEntryReread_entry (far := far) hx hruns hrd).trans (hgot _)
      have hjudged := hfetch.trans (Block.entryGot_stale hgood hstale)
      rw [← hnum] at hback ⊢
      by_cases hlast : x.tries + 1 ≥ 64
      · refine runs_staleEntryReread (hjudged.trans (if_pos hlast)) hq ⟨_, Block.queue_park hback, ?_⟩
        rw [if_neg (by omega)]
        exact ⟨rfl, rfl⟩
      · refine runs_staleEntryReread (hjudged.trans (if_neg hlast)) hq ⟨_, Block.queue_onQueue_some hback, ?_⟩
        rw [if_pos (by omega)]
        exact ⟨rfl, rfl, rfl⟩

end Sys2Proof

namespace Sys2Proof
open Machine Machine.Reg

/-! ## What Lichen's and the vault's operations leave alone -/

/-- A write of a listed field is within the frame. -/
theorem RegsBut.wr {ks : List Nat} {a b : Block} (h : RegsBut ks a b) (f : Field) (v i j : Nat) (hk : f.key i j ∈ ks) :
    RegsBut ks a (b.wr f v i j) :=
  fun g k l n => (Block.rd_wr_ne b v (fun e => n (e ▸ hk))).trans (h g k l n)

theorem RegsBut.trans {ks : List Nat} {a b c : Block} (h : RegsBut ks a b) (k : RegsBut ks b c) : RegsBut ks a c :=
  fun f i j n => (k f i j n).trans (h f i j n)

theorem RegsBut.mono {ks ls : List Nat} {a b : Block} (h : RegsBut ks a b) (hsub : ks ⊆ ls) : RegsBut ls a b :=
  fun f i j n => h f i j (fun hk => n (hsub hk))

theorem RegsBut.each {α : Type} {ks : List Nat} {a : Block} {l : List α} {f : Block → α → Block}
    (hf : ∀ x ∈ l, ∀ b, RegsBut ks a b → RegsBut ks a (f b x)) : ∀ {b : Block}, RegsBut ks a b → RegsBut ks a (b.each l f) := by
  induction l with
  | nil => exact id
  | cons x l ih => exact fun h => ih (fun y hy => hf y (List.mem_cons_of_mem x hy)) (hf x List.mem_cons_self _ h)

/-- A command that makes `b` of the module leaves `b`, where no register write is owed. -/
theorem runs_to {s : State} {i : Instr} {f : Block → Block} {b : Block} {P : Block → Prop} (e : exec i s = s.run f)
    (h : f s.m = b) (hq : b.regQ = []) (hp : P b) : Runs i s P := by
  subst h
  exact runs_of e hq hp

end Sys2Proof

namespace Sys2Proof.Machine
open Reg

@[simp] theorem Block.rd_onLc (b : Block) (g : Lichen → Lichen) (f : Field) (i j : Nat) : (b.onLc g).rd f i j = b.rd f i j := rfl
@[simp] theorem Block.rd_draw (b : Block) (w : Nat) (f : Field) (i j : Nat) : (b.draw w).2.rd f i j = b.rd f i j := rfl
@[simp] theorem Block.rd_commitField (b : Block) (g : Field) (k l : Nat) (f : Field) (i j : Nat) :
    (b.commitField g k l).rd f i j = b.rd f i j := rfl

/-- Every value of a field that no table states a range for is in range. -/
theorem Field.inRange_of_unranged {f : Field} {x : Nat} (hn : ∀ r ∈ numRanges, r.1.id ≠ f.id) (hi : ∀ r ∈ intRanges, r.1.id ≠ f.id)
    (hb : ∀ r ∈ hbmBases, r.1.id ≠ f.id) : f.inRange x = true := by
  simp only [Field.inRange, Bool.and_eq_true, List.all_eq_true, Bool.or_eq_true, bne_iff_ne]
  exact ⟨⟨fun r hr => .inl (hn r hr), fun r hr => .inl (hi r hr)⟩, fun r hr => .inl (hb r hr)⟩

set_option maxRecDepth 20000 in
/-- No table states a range for a field of the vault (R644). -/
theorem sv_unranged : ∀ f ∈ allFields, f.blk = .sv → (∀ r ∈ numRanges, r.1.id ≠ f.id) ∧ (∀ r ∈ intRanges, r.1.id ≠ f.id) ∧
    ∀ r ∈ hbmBases, r.1.id ≠ f.id := by decide

theorem fieldsAt_mem {k : Blk} {o : Nat} {x : Field × Nat} (hx : x ∈ fieldsAt k o) : x.1 ∈ allFields ∧ x.1.blk = k := by
  obtain ⟨f, hf, hfx⟩ := List.mem_filterMap.1 hx
  split at hfx
  · next h => cases hfx; exact ⟨hf, h.1⟩
  · cases hfx

theorem RegAt.inRange_sv (o v : Nat) : (RegAt.mk .sv 0 o).inRange v = true := by
  simp only [RegAt.inRange, List.all_eq_true]
  intro x hx
  obtain ⟨hall, hblk⟩ := fieldsAt_mem (List.mem_filter.1 hx).1
  obtain ⟨hn, hi, hb⟩ := sv_unranged x.1 hall hblk
  exact Field.inRange_of_unranged hn hi hb

/-- The vault's registers lie outside the windows of tiles: no write of one waits. -/
theorem Block.orHold_sv (b : Block) {o : Nat} (ho : o < 0x10_0000) (q : HeldReq) (f : Block → Block) :
    b.orHold (regBase + (0x80_0000 + o)) q f = f b := by
  have hplace : b.place (regBase + (0x80_0000 + o)) = .regs (0x80_0000 + o) := by
    unfold Block.place regBase
    rw [if_neg (by omega), if_neg (by omega), if_neg (by omega), if_pos (by omega), Nat.add_sub_cancel_left]
  have hwin : windowTile (0x80_0000 + o) = none := if_neg (by omega)
  simp [Block.orHold, Block.heldTile, hplace, hwin]

/-- An 8-byte write of a register of the vault does what `writeSv` says. -/
theorem Block.doRegisterWrite_sv (b : Block) (lichen : Bool) (ctx : BitVec 12) (v : W64) {off : BitVec 29} {o : Nat}
    (hoff : off.toNat * 8 = 0x80_0000 + o) (ho : o < 0x10_0000) (hreg : (RegAt.mk .sv 0 o).fields.isEmpty = false) :
    b.doRegisterWrite lichen ctx off v = b.writeSv lichen ⟨.sv, 0, o⟩ v.toNat := by
  have hplace : b.regPlace (0x80_0000 + o) = .reg ⟨.sv, 0, o⟩ := by
    have hdiv : (0x80_0000 + o) / 0x10_0000 = 8 := by omega
    have hmod : (0x80_0000 + o) % 0x10_0000 = o := by omega
    unfold Block.regPlace
    rw [if_pos (by omega), hdiv, hmod]
    rfl
  have hwrite : ∀ l, b.regWrite l ctx.toNat (0x80_0000 + o) 8 v.toNat = b.writeSv l ⟨.sv, 0, o⟩ v.toNat := by
    intro l
    have haligned : (0x80_0000 + o) % 8 = 0 := by omega
    have hword : v.toNat % 2 ^ 64 = v.toNat := Nat.mod_eq_of_lt v.isLt
    simp [Block.regWrite, haligned, hplace, hreg, Block.writeReg, RegAt.inRange_sv, Block.writable]
    exact congrArg _ hword
  unfold Block.doRegisterWrite
  simp only [hoff, b.orHold_sv ho, hwrite]
  cases lichen <;> rfl

end Sys2Proof.Machine

/-! ## Tamper policies (R637) -/

namespace Sys2Proof.Machine
open Reg

/-- The fields of the six policies, each with its lowest bit in the word that is written. -/
def policyFields : List (Field × Nat) :=
  [(SV_POLICY.P_LID_MESH, 0), (SV_POLICY.P_LID_REMOVE, 2), (SV_POLICY.P_VOLT, 4), (SV_POLICY.P_CLOCK, 6),
   (SV_POLICY.P_TEMP, 8), (SV_POLICY.P_TEST, 10)]

theorem Block.setPolicy_eq (b : Block) (v : Nat) :
    b.setPolicy v = b.each policyFields (fun b f => (b.wr f.1 (bits v f.2 2)).commitField f.1) := rfl

/-- A policy word may be written where no code is reserved and no latched source's policy is lowered (R637, R644). -/
theorem Block.policyOk_iff (b : Block) (v : Nat) : b.policyOk v = true ↔
    ∀ k < 6, bits v (2 * k) 2 ≤ 2 ∧ (bit (b.rd SV_ALARM.LATCH) k = true → b.policyOf k ≤ bits v (2 * k) 2) := by
  simp only [Block.policyOk, List.all_eq_true, List.mem_range, Bool.and_eq_true, decide_eq_true_eq, Bool.not_eq_true',
    Bool.and_eq_false_imp, decide_eq_false_iff_not, Nat.not_lt]

theorem Block.policyOf_setPolicy (b : Block) (v : Nat) {k : Nat} (hk : k < 6) :
    (b.setPolicy v).policyOf k = bits v (2 * k) 2 := by
  have hcode : ∀ lo, bits v lo 2 % 4 = bits v lo 2 := fun lo => Nat.mod_mod _ _
  interval_cases k <;>
    simp (disch := decide) [Block.policyOf, Block.setPolicy_eq, policyFields, Block.each, Block.rd_wr_id, SV_POLICY.P_LID_MESH,
      SV_POLICY.P_LID_REMOVE, SV_POLICY.P_VOLT, SV_POLICY.P_CLOCK, SV_POLICY.P_TEMP, SV_POLICY.P_TEST, hcode]

@[simp] theorem Block.regQ_setPolicy (b : Block) (v : Nat) : (b.setPolicy v).regQ = b.regQ := rfl
@[simp] theorem Block.out_setPolicy (b : Block) (v : Nat) : (b.setPolicy v).out = b.out := rfl
@[simp] theorem Block.mem_setPolicy (b : Block) (v : Nat) : (b.setPolicy v).mem = b.mem := rfl
@[simp] theorem Block.sites_setPolicy (b : Block) (v : Nat) : (b.setPolicy v).sites = b.sites := rfl

theorem Block.regsBut_setPolicy (b : Block) (v : Nat) :
    RegsBut (policyFields.map (fun f => f.1.key 0 0)) b (b.setPolicy v) :=
  RegsBut.each (fun f hf _ h => h.wr f.1 _ 0 0 (List.mem_map_of_mem (f := fun f => f.1.key 0 0) hf)) (RegsBut.refl _ b)

end Sys2Proof.Machine

namespace Sys2Proof.Machine
open Reg

set_option maxRecDepth 20000 in
theorem svPolicy_fields : (RegAt.mk .sv 0 0).fields.isEmpty = false := by decide

/-- A write of SV_POLICY takes effect only from Lichen, inside a session, with a word that may be written (R637). -/
theorem Block.doRegisterWrite_svPolicy (b : Block) (lichen : Bool) (ctx : BitVec 12) (v : W64) :
    b.doRegisterWrite lichen ctx 0x100000 v =
      if lichen && !b.lc.sess.isEmpty && b.policyOk v.toNat then b.setPolicy v.toNat else b :=
  b.doRegisterWrite_sv lichen ctx v (o := 0) (by decide) (by decide) svPolicy_fields

/-- While Lichen runs, a request takes effect only in a session, with a word that may be written (R637). -/
theorem Block.doSvPolicyWrite_running {b : Block} (sid : BitVec 16) (v : BitVec 12) (hrun : b.rd LC_STATUS.RUN = 1) :
    b.doSvPolicyWrite sid v =
      if b.inSession sid && b.policyOk v.toNat then (b.setPolicy v.toNat).reply 7 57 [0] else b.reply 7 57 [1] :=
  if_pos (by simp [Block.lcRuns, hrun])

end Sys2Proof.Machine

namespace Sys2Proof
open Machine Machine.Reg

theorem exec_registerWrite (lichen : Bool) (ctx : BitVec 12) (off : BitVec 29) (v : W64) (s : State) :
    exec (.registerWrite lichen ctx off v) s = s.run (·.doRegisterWrite lichen ctx off v) := rfl

/-- Settles O54: a write of the register and the request both go by `policyOk`, and the six fields read back what was written. -/
theorem policyWrites : Obligations.PolicyWrites := by
  intro s ctx hq may set
  have hmay : ∀ v, s.m.policyOk v = true ↔ may v := s.m.policyOk_iff
  have hset : ∀ v, set v (s.m.setPolicy v) := fun v =>
    ⟨fun k hk => s.m.policyOf_setPolicy v hk, rfl, rfl, s.m.regsBut_setPolicy v⟩
  refine ⟨fun lichen v hno => ?ignored, fun v hsess hok => ?written, fun sid v => ?request⟩
  case ignored =>
    refine runs_to (exec_registerWrite _ _ _ _ _) ((s.m.doRegisterWrite_svPolicy lichen ctx v).trans (if_neg ?_)) hq rfl
    simp only [Bool.and_eq_true, hmay, Bool.not_eq_true', List.isEmpty_eq_false_iff]
    rintro ⟨⟨rfl, hsess⟩, hok⟩
    rcases hno with h | h | h
    exacts [absurd h (by decide), hsess h, h hok]
  case written =>
    refine runs_to (exec_registerWrite _ _ _ _ _) ((s.m.doRegisterWrite_svPolicy true ctx v).trans (if_pos ?_)) hq (hset v.toNat)
    simpa [(hmay _).2 hok] using hsess
  case request =>
    refine ⟨fun hrun => ?idle, fun hrun hno => ?refused, fun hrun hhere hok => ?taken⟩
    case idle => exact runs_to rfl (if_neg (by simpa [Block.lcRuns] using hrun)) hq rfl
    all_goals
      have hasked := Block.doSvPolicyWrite_running sid v hrun
    case refused =>
      refine runs_to rfl (hasked.trans (if_neg ?_)) hq rfl
      rwa [Bool.and_eq_true, hmay]
    case taken =>
      exact runs_to rfl (hasked.trans (if_pos (by rw [Bool.and_eq_true, hmay]; exact ⟨hhere, hok⟩))) hq ⟨hset v.toNat, rfl⟩

end Sys2Proof

/-! ## Lichen's store (R598, R615) -/

namespace Sys2Proof.Machine
open Reg

set_option maxRecDepth 20000 in
/-- The table numbers its fields from 1 in order. -/
theorem allFields_ids : allFields.map Field.id = (List.range allFields.length).map (· + 1) := by decide

theorem Field.key_div (f : Field) (i j : Nat) : f.key i j / 2 ^ 40 = f.id := by
  unfold Field.key; omega

theorem Field.key_inst {f : Field} {i j : Nat} (hi : i < 2 ^ 20) : f.key i j / 2 ^ 20 % 2 ^ 20 = i := by
  unfold Field.key; omega

theorem Field.key_index {f : Field} {i j : Nat} (hj : j < 2 ^ 20) : f.key i j % 2 ^ 20 = j := by
  unfold Field.key; omega

/-- The key of a field of the table names that field. -/
theorem fieldOfKey_key {f : Field} (hf : f ∈ allFields) (i j : Nat) : fieldOfKey (f.key i j) = some f := by
  obtain ⟨n, hn, rfl⟩ := List.mem_iff_getElem.1 hf
  have hid : allFields[n].id = n + 1 := by
    have h := congrArg (·[n]?) allFields_ids
    simpa [hn] using h
  rw [fieldOfKey, Field.key_div, hid, Nat.add_sub_cancel, List.getElem?_eq_getElem hn]

/-- A key that no entry has reads as unlisted. -/
theorem SMap.get_of_notMem {α : Type} {d : α} {m : SMap α} {k : Nat} (h : k ∉ m.map Prod.fst) : SMap.get d m k = d := by
  induction m with
  | nil => rfl
  | cons c m ih =>
    obtain ⟨hc, hm⟩ := not_or.1 (mt List.mem_cons.2 h)
    rw [SMap.get_cons_ne d c.2 m (Ne.symm hc), ih hm]

/-- What `Block.commitHw` does with one listed field value: a value of class L that is not held goes into the store. -/
def Block.storeHw (b : Block) (st : SMap Nat) (c : Nat × Nat) : SMap Nat :=
  match fieldOfKey c.1 with
  | some f =>
    let i := c.1 / 2 ^ 20 % 2 ^ 20
    let j := c.1 % 2 ^ 20
    if f.cls == .l && !NSet.mem b.lc.held c.1 then SMap.set (f.resetAt i j) st c.1 (b.rd f i j) else st
  | none => st

theorem Block.commitHw_eq (b : Block) : b.commitHw =
    b.onLc (fun l => { l with store := b.regs.foldl b.storeHw (l.store.filter (fun c => NSet.mem l.held c.1)) }) := rfl

section
variable {b : Block} {f : Field} {i j : Nat} (hheld : b.lc.held = []) (hf : f ∈ allFields) (hl : f.cls = .l)
  (hi : i < 2 ^ 20) (hj : j < 2 ^ 20)
include hheld hf hl hi hj

/-- An entry of the field's own key stores its value, and no other entry touches what its key reads. -/
theorem Block.get_storeHw (st : SMap Nat) (c : Nat × Nat) : SMap.get (f.resetAt i j) (b.storeHw st c) (f.key i j) =
    if f.key i j = c.1 then b.rd f i j else SMap.get (f.resetAt i j) st (f.key i j) := by
  unfold Block.storeHw
  split_ifs with hc
  · rw [← hc, fieldOfKey_key hf]
    simp only [Field.key_inst hi, Field.key_index hj]
    simp [hl, hheld, NSet.mem]
  · repeat' split
    · exact SMap.get_set_ne _ _ _ _ (Ne.symm hc)
    · rfl
    · rfl

theorem Block.get_foldl_storeHw (cs : SMap Nat) (st : SMap Nat) :
    SMap.get (f.resetAt i j) (cs.foldl b.storeHw st) (f.key i j) =
      if f.key i j ∈ cs.map Prod.fst then b.rd f i j else SMap.get (f.resetAt i j) st (f.key i j) := by
  induction cs generalizing st with
  | nil => rfl
  | cons c cs ih =>
    rw [List.foldl_cons, ih, Block.get_storeHw hheld hf hl hi hj, List.map_cons]
    by_cases hlater : f.key i j ∈ cs.map Prod.fst <;> simp [hlater]

/-- With no write held, a commit puts every class L field into the store as it stands. -/
theorem Block.get_commitHw_store : SMap.get (f.resetAt i j) b.commitHw.lc.store (f.key i j) = b.rd f i j := by
  have hnone : b.lc.store.filter (fun c => NSet.mem b.lc.held c.1) = [] := by simp [hheld, NSet.mem]
  have hfold := Block.get_foldl_storeHw hheld hf hl hi hj b.regs []
  rw [Block.commitHw_eq]
  show SMap.get _ (b.regs.foldl b.storeHw (b.lc.store.filter _)) _ = _
  rw [hnone, hfold]
  split_ifs with hlisted
  · rfl
  · exact (SMap.get_of_notMem hlisted).symm

end

/-- The store holds every class L field as it stands, and no write is held (R598). -/
def Block.Stored (b : Block) : Prop := b.lc.held = [] ∧ ∀ f ∈ allFields, f.cls = .l → ∀ i < 2 ^ 20, ∀ j < 2 ^ 20,
  SMap.get (f.resetAt i j) b.lc.store (f.key i j) = b.rd f i j

/-- A commit changes nothing but Lichen's store and what is held for it. -/
theorem Block.commitAll_frame (b : Block) :
    b.commitAll = b.onLc (fun l => { l with store := b.commitAll.lc.store, held := b.commitAll.lc.held }) := by
  unfold Block.commitAll; split <;> rfl

@[simp] theorem Block.rd_commitAll (b : Block) (f : Field) (i j : Nat) : b.commitAll.rd f i j = b.rd f i j := by
  rw [Block.commitAll_frame]; rfl

theorem Block.commitAll_stored {b : Block} (hgood : b.on LC_STATUS.STORE_DEGRADED ≠ true) : b.commitAll.Stored := by
  rw [Block.commitAll, if_neg hgood]
  exact ⟨rfl, fun f hf hl i hi j hj => Block.get_commitHw_store (b := b.commitSw) rfl hf hl hi hj⟩

theorem Block.commitAll_degraded {b : Block} (hbad : b.on LC_STATUS.STORE_DEGRADED = true) : b.commitAll = b := if_pos hbad

/-! ## Lichen's log (R619, R620, R640) -/

/-- The class 20 records of an event with entry `e`, logged under number `seq`: one, where the event has a cause. -/
def lcRecs (cause seq arg : Nat) : List FaultRec :=
  if cause = 0 then [] else [{ cls := 20, cause := cause, level := 4, aux0 := seq, aux1 := arg }]

/-- The module beside its registers, its fault records, the free values drawn, and Lichen's log with the events that wait for it:
what an event leaves alone. -/
def Block.besideLog (b : Block) : Block :=
  { b with regs := [], faultQ := [], free := 0, lc := { b.lc with log := [], owed := [] } }

/-- From `a` to `b` nothing happened but that event `e` was logged, with its fault record where it has a cause. -/
structure Block.Logs (a b : Block) (e : LogE) (cause : Nat) : Prop where
  seq : b.rd LC_STATUS.LOG_SEQ = (a.rd LC_STATUS.LOG_SEQ + 1) % 2 ^ 32
  entry : (b.rd LC_STATUS.LOG_SEQ % 16384, { e with seq := b.rd LC_STATUS.LOG_SEQ }) ∈ b.lc.log
  faults : b.faultQ = a.faultQ ++ lcRecs cause (b.rd LC_STATUS.LOG_SEQ) e.arg
  regs : RegsBut logKeys a b
  rest : b.besideLog = a.besideLog

/-- The count of wraps is one of the fields an entry may change. -/
theorem Block.Logs.wraps {a b : Block} {e : LogE} {cause : Nat} (h : a.Logs b e cause) :
    a.Logs (b.inc LC_STATUS.LOG_WRAPS) e cause := by
  have hseq : (b.inc LC_STATUS.LOG_WRAPS).rd LC_STATUS.LOG_SEQ = b.rd LC_STATUS.LOG_SEQ := Block.rd_wr_id _ (by decide) _ _ _ _ _
  refine ⟨hseq.trans h.seq, ?_, ?_, h.regs.wr _ _ _ _ (by decide), h.rest⟩
  · rw [hseq]; exact h.entry
  · rw [hseq]; exact h.faults

theorem Block.logPut_logs (b : Block) (e : LogE) : b.Logs (b.logPut e) e 0 := by
  have hwrap : ((b.rd LC_STATUS.LOG_SEQ + 1) % 2 ^ 32) % 2 ^ LC_STATUS.LOG_SEQ.width = (b.rd LC_STATUS.LOG_SEQ + 1) % 2 ^ 32 :=
    Nat.mod_mod _ _
  unfold Block.logPut
  extract_lets seq b₁ b₂
  have hseq : b₂.rd LC_STATUS.LOG_SEQ = seq := (Block.rd_wr_self _ _ _ _ _).trans hwrap
  have hplace : b.Logs b₂ e 0 := by
    refine ⟨hseq, ?_, (List.append_nil _).symm, (RegsBut.refl _ b).wr _ _ _ _ (by decide), rfl⟩
    rw [hseq]
    exact List.mem_append_right _ (List.mem_singleton_self _)
  unfold Block.whenB
  split
  · exact hplace.wraps
  · exact hplace

theorem Block.logNow_logs (b : Block) (e : LogE) (cause : Nat) : b.Logs (b.logNow e cause) e cause := by
  have h := b.logPut_logs e
  unfold Block.logNow
  extract_lets b₁
  have hnone : b₁.faultQ = b.faultQ := h.faults.trans (List.append_nil _)
  split_ifs with hc
  · exact hc ▸ h
  · refine ⟨h.seq, h.entry, ?_, h.regs, h.rest⟩
    rw [lcRecs, if_neg hc, ← hnone]
    rfl

/-- The entry of an event, as it waits for its number (R619). -/
def Block.entryOf (b : Block) (code arg : Nat) : LogE :=
  { seq := 0, code := code, sev := (b.draw 2).1, tick := b.now, ns := ((b.draw 2).2.draw 64).1, arg := arg % 2 ^ 64 }

/-- While Lichen runs an event is logged at once (R620). -/
theorem Block.lcEvent_running {b : Block} (hrun : b.rd LC_STATUS.RUN = 1) (code arg cause : Nat) :
    b.Logs (b.lcEvent code arg cause) (b.entryOf code arg) cause := by
  have hnow : b.lcEvent code arg cause = Block.logNow { b with free := b.free + 2 } (b.entryOf code arg) cause := if_pos hrun
  obtain ⟨hseq, hentry, hfaults, hregs, hrest⟩ := Block.logNow_logs { b with free := b.free + 2 } (b.entryOf code arg) cause
  rw [hnow]
  exact ⟨hseq, hentry, hfaults, hregs, hrest⟩

/-- While Lichen does not run an event waits (R645). -/
theorem Block.lcEvent_waiting {b : Block} (hrun : b.rd LC_STATUS.RUN ≠ 1) (code arg cause : Nat) :
    b.lcEvent code arg cause =
      { b with free := b.free + 2, lc := { b.lc with owed := b.lc.owed ++ [(b.entryOf code arg, cause)] } } := if_neg hrun

theorem Block.Logs.logged {a b : Block} {code arg cause : Nat} (h : a.Logs b (a.entryOf code arg) cause) : Logged a b code arg :=
  ⟨h.seq, _, h.entry, rfl, rfl, rfl, rfl⟩

theorem Block.Logs.recorded {a b : Block} {code arg cause : Nat} (h : a.Logs b (a.entryOf code arg) cause) (hcause : cause ≠ 0)
    (harg : arg < 2 ^ 64) : b.faultQ =
      a.faultQ ++ [{ cls := 20, cause := cause, level := 4, aux0 := b.rd LC_STATUS.LOG_SEQ, aux1 := arg }] := by
  have hword : (a.entryOf code arg).arg = arg := Nat.mod_eq_of_lt harg
  rw [h.faults, lcRecs, if_neg hcause, hword]

/-- Running or not, an event changes no register but those of the log. -/
theorem Block.regsBut_lcEvent (b : Block) (code arg cause : Nat) : RegsBut logKeys b (b.lcEvent code arg cause) := by
  by_cases hrun : b.rd LC_STATUS.RUN = 1
  · exact (Block.lcEvent_running hrun code arg cause).regs
  · rw [Block.lcEvent_waiting hrun]; exact RegsBut.refl _ _

theorem Block.besideLog_lcEvent (b : Block) (code arg cause : Nat) : (b.lcEvent code arg cause).besideLog = b.besideLog := by
  by_cases hrun : b.rd LC_STATUS.RUN = 1
  · exact (Block.lcEvent_running hrun code arg cause).rest
  · rw [Block.lcEvent_waiting hrun]; rfl

@[simp] theorem Block.regQ_lcEvent (b : Block) (code arg cause : Nat) : (b.lcEvent code arg cause).regQ = b.regQ :=
  (congrArg Block.regQ (b.besideLog_lcEvent code arg cause) :)

@[simp] theorem Block.mem_lcEvent (b : Block) (code arg cause : Nat) : (b.lcEvent code arg cause).mem = b.mem :=
  (congrArg Block.mem (b.besideLog_lcEvent code arg cause) :)

@[simp] theorem Block.polls_lcEvent (b : Block) (code arg cause : Nat) : (b.lcEvent code arg cause).lc.polls = b.lc.polls :=
  (congrArg (fun c : Block => c.lc.polls) (b.besideLog_lcEvent code arg cause) :)

@[simp] theorem Block.reading_lcEvent (b : Block) (code arg cause : Nat) : (b.lcEvent code arg cause).lc.reading = b.lc.reading :=
  (congrArg (fun c : Block => c.lc.reading) (b.besideLog_lcEvent code arg cause) :)

@[simp] theorem Block.held_lcEvent (b : Block) (code arg cause : Nat) : (b.lcEvent code arg cause).lc.held = b.lc.held :=
  (congrArg (fun c : Block => c.lc.held) (b.besideLog_lcEvent code arg cause) :)

/-! ## Lichen's sensors and restarts (R616, R617, R630) -/

theorem Block.lcRuns_iff (b : Block) : b.lcRuns = true ↔ b.rd LC_STATUS.RUN = 1 := beq_iff_eq

theorem Block.doLichenCommit_idle {b : Block} (h : b.rd LC_STATUS.RUN ≠ 1 ∨ b.on LC_STATUS.STORE_DEGRADED = true) :
    b.doLichenCommit = b := by
  unfold Block.doLichenCommit
  split_ifs with hrun
  · exact Block.commitAll_degraded (h.resolve_left (not_not.2 (b.lcRuns_iff.1 hrun)))
  · rfl

/-- What a poll notes of a sensor: how many polls in a row gave no reading, and the reading where there is one. -/
def Block.polled (b : Block) (k : Nat) : Option W32 → Block
  | some v => b.onLc (fun l => { l with polls := SMap.set 0 l.polls k 0, reading := SMap.set 0 l.reading k (v.toNat + 1) })
  | none => b.onLc (fun l => { l with polls := SMap.set 0 l.polls k (min 10 (SMap.get 0 b.lc.polls k + 1)) })

@[simp] theorem Block.regQ_polled (b : Block) (k : Nat) (v : Option W32) : (b.polled k v).regQ = b.regQ := by cases v <;> rfl

@[simp] theorem Block.polls_polled_some (b : Block) (k : Nat) (v : W32) : SMap.get 0 (b.polled k (some v)).lc.polls k = 0 :=
  SMap.get_set_self 0 b.lc.polls k 0

@[simp] theorem Block.reading_polled_some (b : Block) (k : Nat) (v : W32) :
    SMap.get 0 (b.polled k (some v)).lc.reading k = v.toNat + 1 :=
  SMap.get_set_self 0 b.lc.reading k (v.toNat + 1)

@[simp] theorem Block.polls_polled_none (b : Block) (k : Nat) :
    SMap.get 0 (b.polled k none).lc.polls k = min 10 (SMap.get 0 b.lc.polls k + 1) :=
  SMap.get_set_self 0 b.lc.polls k _

theorem Block.doSensorPoll_ignored {b : Block} {k : BitVec 16} (h : isSensor k.toNat = false ∨ b.rd LC_STATUS.RUN ≠ 1)
    (v : Option W32) : b.doSensorPoll k v = b := by
  refine if_pos ?_
  rcases h with h | h <;> simp [h, Block.lcRuns]

section
variable {b : Block} {k : BitVec 16} (hs : isSensor k.toNat = true) (hrun : b.rd LC_STATUS.RUN = 1)
include hs hrun

theorem Block.doSensorPoll_reading (v : W32) : b.doSensorPoll k (some v) =
    if 10 ≤ SMap.get 0 b.lc.polls k.toNat then (b.polled k.toNat (some v)).lcEvent 15 (k.toNat + 2 ^ 16) 11
    else b.polled k.toNat (some v) := by
  simp [Block.doSensorPoll, hs, Block.lcRuns, hrun, Block.whenB, Block.polled]

theorem Block.doSensorPoll_none : b.doSensorPoll k none =
    if SMap.get 0 b.lc.polls k.toNat = 9 then (b.polled k.toNat none).lcEvent 15 k.toNat 11 else b.polled k.toNat none := by
  simp [Block.doSensorPoll, hs, Block.lcRuns, hrun, Block.whenB, Block.polled]

end

theorem Block.logOwed_nil {b : Block} (h : b.lc.owed = []) : b.logOwed = b := by
  have hlc : { b.lc with owed := [] } = b.lc := by rw [← h]
  unfold Block.logOwed
  simp only [h, Block.each, List.foldl_nil, Block.onLc, hlc]

/-- With no event waiting and no image of Lichen's to commit, Lichen runs again, commits, and logs the restart (R630). -/
theorem Block.lichenUp_idle {b : Block} (howed : b.lc.owed = []) (hact : b.fwBegun 0 = false) (why : Nat) :
    b.lichenUp why = (b.wr LC_STATUS.RUN 1).commitAll.lcEvent 17 why 0 := by
  have hnone : (b.wr LC_STATUS.RUN 1).fwBegun 0 = false := hact
  have hlog : (b.wr LC_STATUS.RUN 1).commitAll.logOwed = (b.wr LC_STATUS.RUN 1).commitAll := by
    have hnone : (b.wr LC_STATUS.RUN 1).commitAll.lc.owed = [] := by rw [Block.commitAll_frame]; exact howed
    exact Block.logOwed_nil hnone
  unfold Block.lichenUp
  simp only [hnone, hlog, Bool.false_eq_true, if_false]

theorem Block.doLichenRestart_idle {b : Block} (hrun : b.rd LC_STATUS.RUN = 1 ∨ b.rd LC_STATUS.RUN = 2) (howed : b.lc.owed = [])
    (hact : b.fwBegun 0 = false) : b.doLichenRestart =
      (b.wr LC_STATUS.RUN 1).commitAll.lcEvent 17 (if b.rd LC_STATUS.RUN = 2 then b.lc.why else 2) 0 := by
  rw [← Block.lichenUp_idle howed hact]
  unfold Block.doLichenRestart
  split_ifs with h2 h1
  · rfl
  · rfl
  · exact absurd (b.lcRuns_iff.2 (hrun.resolve_right h2)) h1

end Sys2Proof.Machine

namespace Sys2Proof
open Machine Machine.Reg

/-- Only the number of the last entry and the tick before the event matter. -/
theorem Logged.of_eq {a a' b : Block} {code arg : Nat} (h : Logged a' b code arg)
    (hseq : a'.rd LC_STATUS.LOG_SEQ = a.rd LC_STATUS.LOG_SEQ) (hnow : a'.now = a.now) : Logged a b code arg := by
  unfold Logged at *
  rwa [hseq, hnow] at h

theorem exec_sensorPoll (k : BitVec 16) (v : Option W32) (s : State) :
    exec (.sensorPoll k v) s = s.run (·.doSensorPoll k v) := rfl

/-- Settles O51: a commit's fold over the registers stores each class L field once (`Block.get_commitHw_store`), and what an event
leaves is `Block.lcEvent_running` or, while Lichen does not run, `Block.lcEvent_waiting`. -/
theorem lichenStoreAndSensors : Obligations.LichenStoreAndSensors := by
  intro s hq run bad same stored recorded
  have hstill : ∀ {i : Instr} {f : Block → Block}, exec i s = s.run f → f s.m = s.m → Runs i s same :=
    fun e h => runs_to e h hq rfl
  refine ⟨fun h => hstill rfl ?commitIdle, fun hrun hgood => ?commit, fun hbad => hstill rfl (if_pos hbad), fun hgood => ?fail,
    fun k => ?sensor, fun h => hstill rfl ?restartIdle, fun h howed hact => ?restart⟩
  case commitIdle => exact Block.doLichenCommit_idle h
  case commit =>
    have hdo : s.m.doLichenCommit = s.m.commitAll := if_pos (s.m.lcRuns_iff.2 hrun)
    have hframe := s.m.commitAll_frame
    exact runs_to rfl hdo (by rw [hframe]; exact hq)
      ⟨Block.commitAll_stored hgood, by rw [hframe]; rfl, by rw [hframe]; rfl⟩
  case fail =>
    have hdo : s.m.doStoreWriteFail = (s.m.wr LC_STATUS.STORE_DEGRADED 1).lcEvent 16 0 9 := if_neg hgood
    have hset : RegsBut (LC_STATUS.STORE_DEGRADED.key 0 0 :: logKeys) s.m (s.m.wr LC_STATUS.STORE_DEGRADED 1) :=
      (RegsBut.refl _ _).wr _ _ _ _ List.mem_cons_self
    have hlog := (s.m.wr LC_STATUS.STORE_DEGRADED 1).regsBut_lcEvent 16 0 9
    refine runs_to rfl hdo (by simpa using hq) ⟨?_, fun hrun => ?_, fun hrun => ?_, ?_⟩
    · exact (hlog _ 0 0 (by decide)).trans (Block.rd_wr_self _ _ _ _ _)
    · have hlogs := Block.lcEvent_running (b := s.m.wr LC_STATUS.STORE_DEGRADED 1)
        ((Block.rd_wr_id _ (by decide) _ _ _ _ _).trans hrun) 16 0 9
      exact ⟨hlogs.logged.of_eq (Block.rd_wr_id _ (by decide) _ _ _ _ _) (Block.rd_wr_id _ (by decide) _ _ _ _ _),
        hlogs.recorded (by decide) (by decide)⟩
    · rw [Block.lcEvent_waiting (fun h => hrun ((Block.rd_wr_id _ (by decide) _ _ _ _ _).symm.trans h))]
      exact ⟨_, rfl, rfl⟩
    · exact hset.trans (hlog.mono (List.subset_cons_self _ _))
  case sensor =>
    intro polls
    refine ⟨fun h v => runs_to (exec_sensorPoll k v s) (Block.doSensorPoll_ignored h v) hq rfl,
      fun hs hrun => ⟨fun v => ?reading, fun hlost => ?lost, ?missing⟩⟩
    case reading =>
      have hpoll := Block.doSensorPoll_reading hs hrun v
      by_cases hlost : 10 ≤ polls
      · have hlogs := Block.lcEvent_running (b := s.m.polled k.toNat (some v)) hrun 15 (k.toNat + 2 ^ 16) 11
        exact runs_to (exec_sensorPoll _ _ _) (hpoll.trans (if_pos hlost)) (by simpa using hq)
          ⟨by simp, by simp, fun h => absurd hlost (Nat.not_le.2 h),
            fun _ => ⟨hlogs.logged, hlogs.recorded (by decide) (by omega)⟩⟩
      · exact runs_to (exec_sensorPoll _ _ _) (hpoll.trans (if_neg hlost)) hq
          ⟨by simp, by simp, fun _ => ⟨rfl, rfl⟩, fun h => absurd h hlost⟩
    case lost =>
      refine runs_to rfl ((if_pos (s.m.lcRuns_iff.2 hrun)).trans (if_pos ?_)) hq rfl
      exact .inr (.inr hlost)
    case missing =>
      have hpoll := Block.doSensorPoll_none hs hrun
      by_cases htenth : polls = 9
      · have hlogs := Block.lcEvent_running (b := s.m.polled k.toNat none) hrun 15 k.toNat 11
        exact runs_to (exec_sensorPoll _ _ _) (hpoll.trans (if_pos htenth)) (by simpa using hq)
          ⟨by simp [polls], by rw [Block.reading_lcEvent]; rfl, fun h => absurd htenth h,
            fun _ => ⟨hlogs.logged, hlogs.recorded (by decide) (by omega)⟩⟩
      · exact runs_to (exec_sensorPoll _ _ _) (hpoll.trans (if_neg htenth)) hq
          ⟨by simp [polls], rfl, fun _ => ⟨rfl, rfl⟩, fun h => absurd h htenth⟩
  case restartIdle =>
    have hnot2 : s.m.rd LC_STATUS.RUN ≠ 2 := by omega
    have hnot1 : s.m.rd LC_STATUS.RUN ≠ 1 := by omega
    exact (if_neg hnot2).trans (if_neg (mt s.m.lcRuns_iff.1 hnot1))
  case restart =>
    have hseq : (s.m.wr LC_STATUS.RUN 1).commitAll.rd LC_STATUS.LOG_SEQ = s.m.rd LC_STATUS.LOG_SEQ := by
      rw [Block.rd_commitAll, Block.rd_wr_id _ (by decide)]
    have hnow : (s.m.wr LC_STATUS.RUN 1).commitAll.now = s.m.now := by
      rw [Block.now, Block.rd_commitAll, Block.rd_wr_id _ (by decide)]; rfl
    have hrun : (s.m.wr LC_STATUS.RUN 1).commitAll.rd LC_STATUS.RUN = 1 := by rw [Block.rd_commitAll]; exact Block.rd_wr_self _ _ _ _ _
    have hlogs := Block.lcEvent_running hrun 17 (if run = 2 then s.m.lc.why else 2) 0
    have hframe := (s.m.wr LC_STATUS.RUN 1).commitAll_frame
    refine runs_to rfl (Block.doLichenRestart_idle h howed hact) ?_ ⟨?_, hlogs.logged.of_eq hseq hnow, fun hgood => ?_, ?_, ?_⟩
    · rw [Block.regQ_lcEvent, hframe]; exact hq
    · exact (hlogs.regs LC_STATUS.RUN 0 0 (by decide)).trans hrun
    · rw [Block.held_lcEvent]
      exact (Block.commitAll_stored (by rwa [Block.on, Block.rd_wr_id _ (by decide)])).1
    · have hset : RegsBut (LC_STATUS.RUN.key 0 0 :: logKeys) s.m (s.m.wr LC_STATUS.RUN 1) :=
        (RegsBut.refl _ _).wr _ _ _ _ List.mem_cons_self
      refine RegsBut.trans (fun f i j n => ?_) (hlogs.regs.mono (List.subset_cons_self _ _))
      exact (Block.rd_commitAll _ f i j).trans (hset f i j n)
    · rw [Block.mem_lcEvent, hframe]; rfl

end Sys2Proof

/-! ## What a record diverted to memory leaves alone -/

namespace Sys2Proof.Machine
open Reg

/-- The register fields that alarms go by, and those of the dead-letter ring. -/
def vaultFields : List Nat :=
  [LC_STATUS.RUN, LC_INV1.FUSE_ERASE, SV_STATUS.ACTIVE, SV_STATUS.ID_KEY, SV_STATUS.LOCKED, SV_ALARM.LATCH, SV_ALARM.FIRST,
   SV_ALARM_TICK.TICK, SV_CNT.ALARMS, BK_DL.BASE, BK_DL.LOG2_SIZE].map Field.id

/-- Between `a` and a later `b` Lichen, the vault, the queue pairs, the ports and the windows are as they were, no register write is
owed that was not, and fault records are only added. -/
structure Calm (a b : Block) : Prop where
  rd : ∀ f : Field, f.id ∈ vaultFields → ∀ i j, b.rd f i j = a.rd f i j
  faults : a.faultQ <+: b.faultQ
  lc : b.lc = a.lc
  qps : b.qps = a.qps
  ports : b.ports = a.ports
  wins : b.wins = a.wins
  regQ : b.regQ = a.regQ

theorem Calm.refl (a : Block) : Calm a a := ⟨fun _ _ _ _ => rfl, List.prefix_rfl, rfl, rfl, rfl, rfl, rfl⟩

theorem Calm.trans {a b c : Block} (h : Calm a b) (k : Calm b c) : Calm a c :=
  ⟨fun f hf i j => (k.rd f hf i j).trans (h.rd f hf i j), h.faults.trans k.faults, k.lc.trans h.lc, k.qps.trans h.qps,
   k.ports.trans h.ports, k.wins.trans h.wins, k.regQ.trans h.regQ⟩

theorem Calm.each {α : Type} {a : Block} {f : Block → α → Block} {l : List α} (hf : ∀ b x, Calm a b → Calm a (f b x)) :
    ∀ {b : Block}, Calm a b → Calm a (b.each l f) := by
  induction l with
  | nil => exact id
  | cons x l ih => exact fun h => ih (hf _ x h)

section
variable {a b : Block} (h : Calm a b)
include h

/-- A change of nothing that is listed. -/
theorem Calm.other {c : Block} (hregs : c.regs = b.regs := by rfl) (hf : c.faultQ = b.faultQ := by rfl)
    (hlc : c.lc = b.lc := by rfl) (hq : c.qps = b.qps := by rfl) (hp : c.ports = b.ports := by rfl)
    (hw : c.wins = b.wins := by rfl) (hr : c.regQ = b.regQ := by rfl) : Calm a c :=
  h.trans ⟨fun f _ i j => congrArg (fun r => SMap.get (f.resetAt i j) r (f.key i j)) hregs, hf ▸ List.prefix_rfl, hlc, hq, hp, hw, hr⟩

theorem Calm.wr {f : Field} {v i j : Nat} (hf : f.id ∉ vaultFields := by decide) : Calm a (b.wr f v i j) :=
  h.trans ⟨fun g hg k l => Block.rd_wr_id b (fun e : f.id = g.id => hf (e ▸ hg)) v i j k l, List.prefix_rfl, rfl, rfl, rfl, rfl, rfl⟩

theorem Calm.inc {f : Field} {n i j : Nat} (hf : f.id ∉ vaultFields := by decide) : Calm a (b.inc f n i j) := h.wr hf

theorem Calm.report {r : FaultRec} : Calm a (b.report r) :=
  h.trans ⟨fun _ _ _ _ => rfl, List.prefix_append _ _, rfl, rfl, rfl, rfl, rfl⟩

/-! ### Memory -/

theorem Calm.rowLog (i ch pc bank row : Nat) (unc : Bool) : Calm a (b.rowLog i ch pc bank row unc) := by
  unfold Block.rowLog
  extract_lets hit
  cases hit with
  | some e =>
    cases unc with
    | true => exact h.inc.wr
    | false => exact h.inc
  | none => exact h.wr.wr.wr.wr.wr.wr.wr

theorem Calm.memErr (x src : Nat) : Calm a (b.memErr x src) := by
  unfold Block.memErr
  generalize b.locOf x = loc
  refine (Calm.rowLog ?_ _ _ _ _ _ _).report
  split
  · exact h.inc.wr
  · exact h.inc.wr.wr.wr.wr.wr.wr

theorem Calm.memCorr (x : Nat) : Calm a (b.memCorr x) := by
  unfold Block.memCorr
  exact h.inc.rowLog _ _ _ _ _ _

theorem Calm.putWord (x : Nat) (w : Cw) : Calm a (b.putWord x w) := h.other

theorem Calm.ctlWrite (x : Nat) (w : Cw) : Calm a (b.ctlWrite x w) := by
  unfold Block.ctlWrite
  split
  · exact h.putWord x _
  · exact h.putWord x _
  · exact (h.putWord x _).memCorr x
  · exact (h.putWord x _).memErr x 2

theorem Calm.ctlMerge (x off : Nat) (bs : List Byte) (pois : Bool) : Calm a (b.ctlMerge x off bs pois) := by
  unfold Block.ctlMerge
  split
  · exact (h.putWord x _).memCorr x
  · exact (h.putWord x _).memErr x 2
  · exact h.putWord x _

theorem Calm.lsWrite (p off : Nat) (bs : List Byte) (pois : Bool) : Calm a (b.lsWrite p off bs pois) := by
  unfold Block.lsWrite
  extract_lets k
  split
  · exact h.other
  split
  · exact (h.other (c := { b with mem := b.mem.setWord k _ })).report
  · exact h.other

theorem Calm.missRec (write : Bool) (ctx x : Nat) (m : Miss) : Calm a (b.missRec write ctx x m) := by
  cases m with
  | absent => exact h.report
  | stack m => exact h.report
  | pkg p =>
    unfold Block.missRec Block.pkgAccess
    dsimp only
    split
    · exact h.inc
    · exact (h.other (c := { b with pkgSeen := NSet.add b.pkgSeen p })).report

theorem Calm.missRecs (write : Bool) (ctx : Nat) (ms : List (Option Miss × Nat)) : Calm a (b.missRecs write ctx ms) :=
  Calm.each (fun _ _ hb => hb.missRec write ctx _ _) h

omit h in
theorem Calm.checkWords (region line : Nat) (ws : List Cw) :
    ∀ {b : Block} (i : Nat), Calm a b → Calm a (b.checkWords region line i ws).2 := by
  induction ws with
  | nil => exact fun _ h => h
  | cons w ws ih =>
    intro b i h
    unfold Block.checkWords
    extract_lets r c
    refine ih (b := c) _ ?_
    subst c
    split
    · exact h.inc.report
    · exact h.inc
    · exact h

omit h in
theorem Calm.putWords (line : Nat) (ws : List Cw) :
    ∀ {b : Block} (i : Nat), Calm a b → Calm a (b.putWords line i ws) := by
  induction ws with
  | nil => exact fun _ h => h
  | cons w ws ih => exact fun _ h => ih _ (h.putWord _ w)

theorem Calm.writeBack (ln : RcLine) : Calm a (b.writeBack ln) := by
  have hc := Calm.checkWords ln.region ln.line ln.words 0 h
  unfold Block.writeBack Block.writeBackWords
  dsimp only
  split
  · exact hc.missRec _ _ _ _
  · exact Calm.putWords _ _ _ hc

theorem Calm.recallInval (line : Nat) (keep : Option Nat) : Calm a (b.recallInval line keep) := by
  unfold Block.recallInval
  dsimp only
  split
  · next x _ => exact (h.writeBack x).other
  · exact h.other

theorem Calm.memWrite (x : Nat) (bs : List Byte) (pois : Bool) : Calm a (b.memWrite x bs pois) := by
  have hr := h.recallInval (x / 128) none
  unfold Block.memWrite
  split
  · exact h
  dsimp only
  split
  · exact hr.ctlWrite _ _
  · exact hr.ctlMerge _ _ _ _

theorem Calm.lockWrite (r w : Nat) (ms : MBytes) : Calm a (b.lockWrite r w ms).2 := by
  unfold Block.lockWrite
  split
  · exact h
  split
  · exact h.other
  · exact h

theorem Calm.holderWrite (ctx x : Nat) (ms : MBytes) : Calm a (b.holderWrite ctx x ms).2 := by
  unfold Block.holderWrite
  repeat' split
  · exact h.memWrite x _ _
  · exact h.memWrite x _ _
  · exact h
  · exact h.other
  · exact h.lsWrite _ _ _ _
  · exact h
  · exact h.lockWrite _ _ _
  · exact h

omit h in
theorem Calm.foldl {α β : Type} {f : α × Block → β → α × Block} {l : List β} (hf : ∀ p x, Calm a p.2 → Calm a (f p x).2) :
    ∀ {p : α × Block}, Calm a p.2 → Calm a (l.foldl f p).2 := by
  induction l with
  | nil => exact id
  | cons x l ih => exact fun h => ih (hf _ x h)

omit h in
/-- Below 768 GiB there is HBM or nothing. -/
theorem Block.place_ne_regs {x : Nat} (hx : x < 12 * 2 ^ 36) (off : Nat) : b.place x ≠ .regs off := by
  rw [Block.place, if_pos hx]
  dsimp only
  split <;> simp

/-- A write that reaches no register owes none. -/
theorem Calm.mwrite (ctx x : Nat) (bs : MBytes) (hplace : ∀ off, b.place x ≠ .regs off) : Calm a (b.mwrite ctx x bs).2 := by
  unfold Block.mwrite
  split
  · exact h.inc.report
  split
  · next hregs => exact absurd hregs (hplace _)
  · exact h.report
  · have hm := h.missRecs true ctx (b.missesOf x bs.length)
    exact Calm.foldl (p := (true, _)) (fun p pc hp => hp.holderWrite ctx pc.1 _) hm

/-- The dead-letter ring lies in HBM. -/
def Block.deadLettersInHbm (b : Block) : Prop :=
  b.rd BK_DL.BASE * 2 ^ 12 + 64 * 2 ^ (b.rd BK_DL.LOG2_SIZE + 6) ≤ 12 * 2 ^ 36

/-- A diverted record goes to a ring that lies in HBM. -/
theorem Calm.divert (hring : b.deadLettersInHbm) (r : CRec) (cause : Nat) (inc : Bool) : Calm a (b.divert r cause inc) := by
  unfold Block.divert
  extract_lets seq b₁ size prod w4 ws
  have h₁ : Calm b b₁ := (Calm.refl b).inc.report
  split
  · exact (h.trans h₁).inc
  · refine (Calm.mwrite (h.trans h₁) _ _ _ fun off hregs => ?_).wr
    have hbase : b₁.rd BK_DL.BASE = b.rd BK_DL.BASE := h₁.rd _ (by decide) 0 0
    have hsize : b₁.rd BK_DL.LOG2_SIZE = b.rd BK_DL.LOG2_SIZE := h₁.rd _ (by decide) 0 0
    have hlt : b₁.rd BK_DL.BASE * 2 ^ 12 + 64 * (prod % size) < 12 * 2 ^ 36 := by
      have hmod : prod % size < size := Nat.mod_lt _ (Nat.two_pow_pos _)
      have hsz : size = 2 ^ (b.rd BK_DL.LOG2_SIZE + 6) := congrArg (fun k => 2 ^ (k + 6)) hsize
      rw [hbase]
      unfold Block.deadLettersInHbm at hring
      rw [← hsz] at hring
      omega
    exact Block.place_ne_regs hlt off hregs

theorem Calm.onRec (tag : Nat) (f : CRec → Option CRec) : Calm a (b.onRec tag f) := h.other

theorem Calm.recFailed (hring : b.deadLettersInHbm) (tag cause : Nat) : Calm a (b.recFailed tag cause) := by
  unfold Block.recFailed
  repeat' split
  · exact h
  · exact (h.divert hring _ _ _).onRec _ _
  · exact (h.divert hring _ _ _).onRec _ _

/-- The ring stays where it is. -/
theorem Calm.deadLetters (hring : a.deadLettersInHbm) : b.deadLettersInHbm := by
  unfold Block.deadLettersInHbm
  rwa [h.rd _ (by decide), h.rd _ (by decide)]

theorem Calm.qpFail (hring : a.deadLettersInHbm) (q : Qp) (cause : Nat) : Calm a (b.qpFail q cause) :=
  Calm.each (fun _ _ hb => hb.recFailed (hb.deadLetters hring) _ _) h

end
end Sys2Proof.Machine

/-! ## Frames of Lichen's and the vault's operations -/

namespace Sys2Proof.Machine
open Reg

theorem RegsBut.onLc {ks : List Nat} {a b : Block} (h : RegsBut ks a b) (g : Lichen → Lichen) : RegsBut ks a (b.onLc g) :=
  fun f i j n => h f i j n

/-- Lichen or the vault has acted from `a` to `b`: no register field but those listed differs, fault records are only added, and the
sessions, the queue pairs, the windows, the ports and the register writes owed are as they were. -/
structure LcFrame (ks : List Nat) (a b : Block) : Prop where
  regs : RegsBut ks a b
  faults : a.faultQ <+: b.faultQ
  sessions : (b.lc.hands, b.lc.sess) = (a.lc.hands, a.lc.sess)
  qps : b.qps = a.qps
  wins : b.wins = a.wins
  ports : b.ports = a.ports
  regQ : b.regQ = a.regQ

section
variable {ks : List Nat} {a b : Block}

theorem LcFrame.refl (ks : List Nat) (a : Block) : LcFrame ks a a := ⟨RegsBut.refl _ _, List.prefix_rfl, rfl, rfl, rfl, rfl, rfl⟩

theorem LcFrame.trans {c : Block} (h : LcFrame ks a b) (k : LcFrame ks b c) : LcFrame ks a c :=
  ⟨h.regs.trans k.regs, h.faults.trans k.faults, k.sessions.trans h.sessions, k.qps.trans h.qps, k.wins.trans h.wins,
   k.ports.trans h.ports, k.regQ.trans h.regQ⟩

theorem LcFrame.mono {ls : List Nat} (h : LcFrame ks a b) (hsub : ks ⊆ ls) : LcFrame ls a b :=
  ⟨h.regs.mono hsub, h.faults, h.sessions, h.qps, h.wins, h.ports, h.regQ⟩

theorem LcFrame.each {α : Type} {f : Block → α → Block} (hf : ∀ b x, LcFrame ks b (f b x)) :
    ∀ (l : List α) (b : Block), LcFrame ks b (b.each l f)
  | [], b => LcFrame.refl ks b
  | x :: l, b => (hf b x).trans (LcFrame.each hf l (f b x))

theorem LcFrame.wr (h : LcFrame ks a b) {f : Field} {v i j : Nat} (hk : f.key i j ∈ ks := by decide) : LcFrame ks a (b.wr f v i j) :=
  h.trans ⟨(RegsBut.refl _ b).wr f v i j hk, List.prefix_rfl, rfl, rfl, rfl, rfl, rfl⟩

theorem LcFrame.onLc (h : LcFrame ks a b) {g : Lichen → Lichen}
    (hs : ((g b.lc).hands, (g b.lc).sess) = (b.lc.hands, b.lc.sess) := by rfl) :
    LcFrame ks a (b.onLc g) :=
  h.trans ⟨RegsBut.refl _ b, List.prefix_rfl, hs, rfl, rfl, rfl, rfl⟩

theorem LcFrame.commitField (h : LcFrame ks a b) (f : Field) (i j : Nat) : LcFrame ks a (b.commitField f i j) :=
  h.trans ⟨RegsBut.refl _ b, List.prefix_rfl, rfl, rfl, rfl, rfl, rfl⟩

theorem LcFrame.logs {c : Block} {e : LogE} {cause : Nat} (h : b.Logs c e cause) : LcFrame logKeys b c :=
  ⟨h.regs, h.faults ▸ List.prefix_append _ _, (congrArg (fun c : Block => (c.lc.hands, c.lc.sess)) h.rest :),
   (congrArg Block.qps h.rest :), (congrArg Block.wins h.rest :), (congrArg Block.ports h.rest :), (congrArg Block.regQ h.rest :)⟩

theorem LcFrame.lcEvent (h : LcFrame ks a b) (code arg cause : Nat) (hlog : logKeys ⊆ ks := by decide) :
    LcFrame ks a (b.lcEvent code arg cause) := by
  by_cases hrun : b.rd LC_STATUS.RUN = 1
  · exact h.trans ((LcFrame.logs (Block.lcEvent_running hrun code arg cause)).mono hlog)
  · rw [Block.lcEvent_waiting hrun]
    exact h.trans ⟨RegsBut.refl _ b, List.prefix_rfl, rfl, rfl, rfl, rfl, rfl⟩

theorem LcFrame.deadLetters (h : LcFrame ks a b) (hring : a.deadLettersInHbm)
    (hk : BK_DL.BASE.key 0 0 ∉ ks ∧ BK_DL.LOG2_SIZE.key 0 0 ∉ ks := by decide) : b.deadLettersInHbm := by
  unfold Block.deadLettersInHbm
  rwa [h.regs _ 0 0 hk.1, h.regs _ 0 0 hk.2]

theorem LcFrame.rd (h : LcFrame ks a b) (f : Field) (hk : f.key 0 0 ∉ ks := by decide) : b.rd f = a.rd f := h.regs f 0 0 hk

end

/-! ### Activations -/

/-- The register fields that the end of an activation changes. -/
def actKeys : List Nat :=
  [LC_FW_STATUS.PENDING.key 0 0, LC_FW_STATUS.ACTIVE.key 0 0, LC_FW_STATUS.ACTIVATIONS.key 0 0] ++ logKeys

theorem LcFrame.dropAct (b : Block) (c : Nat) : LcFrame [LC_FW_STATUS.PENDING.key 0 0] b (b.dropAct c) :=
  ((LcFrame.refl _ b).onLc (g := fun l => { l with acts := l.acts.filter (fun a => a.comp != c) })).wr

theorem LcFrame.fwCommit (b : Block) (c : Nat) : LcFrame actKeys b (b.fwCommit c) := by
  unfold Block.fwCommit Block.setActive
  refine LcFrame.lcEvent ?_ _ _ _
  exact ((((LcFrame.dropAct b c).mono (by decide)).onLc).wr.onLc).wr

theorem LcFrame.commitAll (ks : List Nat) (b : Block) : LcFrame ks b b.commitAll := by
  rw [Block.commitAll_frame]
  exact (LcFrame.refl ks b).onLc

theorem LcFrame.logOwed (b : Block) : LcFrame logKeys b b.logOwed :=
  ((LcFrame.refl _ b).onLc (g := fun l => { l with owed := [] })).trans
    (LcFrame.each (fun b (x : LogE × Nat) => LcFrame.logs (b.logNow_logs x.1 x.2)) _ _)

/-- Lichen runs again (R630): beside its own state, what it does is commit and log. -/
theorem LcFrame.lichenUp (b : Block) (why : Nat) : LcFrame actKeys (b.wr LC_STATUS.RUN 1) (b.lichenUp why) := by
  unfold Block.lichenUp
  extract_lets b₁ b₂
  have h : LcFrame actKeys b₁ b₂ := by
    unfold b₂
    split_ifs
    · exact LcFrame.fwCommit b₁ 0
    · exact LcFrame.refl _ _
  exact ((h.trans (LcFrame.commitAll _ _)).trans ((LcFrame.logOwed _).mono (by decide))).lcEvent _ _ _

/-! ### The identity key and the lock (R635) -/

/-- The register fields that a change of the identity key, and those that the lock, writes. -/
def keyKeys : List Nat := SV_STATUS.ID_KEY.key 0 0 :: logKeys
def lockKeys : List Nat := [SV_STATUS.LOCKED.key 0 0, LC_FW_STATUS.PENDING.key 0 0] ++ keyKeys

theorem LcFrame.setIdKey (b : Block) (v : Nat) : LcFrame keyKeys b (b.setIdKey v) := by
  unfold Block.setIdKey
  split_ifs
  · exact LcFrame.refl _ b
  all_goals exact ((LcFrame.refl _ b).wr.onLc).lcEvent _ _ _

theorem Block.idKey_setIdKey (b : Block) {v : Nat} (hv : v < 4) : (b.setIdKey v).rd SV_STATUS.ID_KEY = v := by
  unfold Block.setIdKey
  split_ifs with h
  · exact h
  all_goals
    refine (Block.regsBut_lcEvent _ _ _ _ SV_STATUS.ID_KEY 0 0 (by decide)).trans ?_
    exact (Block.rd_wr_self _ _ _ _ _).trans (Nat.mod_eq_of_lt hv)

@[simp] theorem Block.acts_lcEvent (b : Block) (code arg cause : Nat) : (b.lcEvent code arg cause).lc.acts = b.lc.acts :=
  (congrArg (fun c : Block => c.lc.acts) (b.besideLog_lcEvent code arg cause) :)

@[simp] theorem Block.acts_setIdKey (b : Block) (v : Nat) : (b.setIdKey v).lc.acts = b.lc.acts := by
  unfold Block.setIdKey
  split_ifs <;> simp [Block.onLc]

theorem LcFrame.setLock (b : Block) (v : Bool) : LcFrame [SV_STATUS.LOCKED.key 0 0] b (b.setLock v) :=
  LcFrame.commitField (LcFrame.wr (LcFrame.refl _ b)) _ 0 0

@[simp] theorem Block.locked_setLock (b : Block) (v : Bool) : (b.setLock v).rd SV_STATUS.LOCKED = v.toNat := by
  exact (Block.rd_wr_self b SV_STATUS.LOCKED v.toNat 0 0).trans (Nat.mod_eq_of_lt v.toNat_lt)

/-- What is left of the activations once those of the listed components have been dropped. -/
theorem Block.acts_each_dropAct (l : List Act) : ∀ (b : Block), ∀ a ∈ (b.each l (fun b x => b.dropAct x.comp)).lc.acts,
    a ∈ b.lc.acts ∧ ∀ x ∈ l, a.comp ≠ x.comp := by
  induction l with
  | nil => exact fun b a ha => ⟨ha, by simp⟩
  | cons x l ih =>
    intro b a ha
    obtain ⟨hin, hl⟩ := ih (b.dropAct x.comp) a ha
    obtain ⟨hb, hx⟩ := List.mem_filter.1 hin
    exact ⟨hb, List.forall_mem_cons.2 ⟨by simpa using hx, hl⟩⟩

/-- The lock is set to `v` and the identity key to state `k`, unless it is erased. -/
def Block.lockKey (b : Block) (v : Bool) (k : Nat) : Block :=
  let b := b.setLock v
  if b.rd SV_STATUS.ID_KEY = 2 then b else b.setIdKey k

theorem Block.lock_eq (b : Block) : b.lock =
    (b.lockKey true 1).each ((b.lockKey true 1).lc.acts.filter (fun a => a.begun.isNone)) (fun b a => b.dropAct a.comp) := rfl

theorem LcFrame.lockKey (b : Block) (v : Bool) (k : Nat) : LcFrame lockKeys b (b.lockKey v k) := by
  have hset := (LcFrame.setLock b v).mono (ls := lockKeys) (by decide)
  unfold Block.lockKey
  dsimp only
  split_ifs
  · exact hset
  · exact hset.trans ((LcFrame.setIdKey _ k).mono (by decide))

theorem Block.lockKey_spec (b : Block) (v : Bool) {k : Nat} (hk : k < 4) : (b.lockKey v k).rd SV_STATUS.LOCKED = v.toNat ∧
    (b.lockKey v k).rd SV_STATUS.ID_KEY = if b.rd SV_STATUS.ID_KEY = 2 then 2 else k := by
  have hkey : (b.setLock v).rd SV_STATUS.ID_KEY = b.rd SV_STATUS.ID_KEY := (LcFrame.setLock b v).rd _
  unfold Block.lockKey
  simp only [hkey]
  split_ifs with h
  · exact ⟨b.locked_setLock v, hkey.trans h⟩
  · exact ⟨((LcFrame.setIdKey _ k).rd SV_STATUS.LOCKED).trans (b.locked_setLock v), Block.idKey_setIdKey _ hk⟩

theorem LcFrame.lock (b : Block) : LcFrame lockKeys b b.lock :=
  (LcFrame.lockKey b true 1).trans
    (LcFrame.each (fun b (a : Act) => (LcFrame.dropAct b a.comp).mono (by decide)) _ _)

/-- Locking: the vault is locked, the identity key too unless it is erased, and only activations that have begun are left. -/
theorem Block.lock_spec (b : Block) : b.lock.rd SV_STATUS.LOCKED = 1 ∧
    b.lock.rd SV_STATUS.ID_KEY = (if b.rd SV_STATUS.ID_KEY = 2 then 2 else 1) ∧ ∀ a ∈ b.lock.lc.acts, a.begun.isSome = true := by
  have hdrop : LcFrame [LC_FW_STATUS.PENDING.key 0 0] (b.lockKey true 1) b.lock :=
    LcFrame.each (fun b (a : Act) => LcFrame.dropAct b a.comp) _ _
  obtain ⟨hlocked, hkey⟩ := b.lockKey_spec true (k := 1) (by decide)
  refine ⟨(hdrop.rd SV_STATUS.LOCKED).trans hlocked, (hdrop.rd SV_STATUS.ID_KEY).trans hkey, fun a ha => ?_⟩
  obtain ⟨hin, hkept⟩ := Block.acts_each_dropAct _ _ a ha
  by_contra hbegun
  exact hkept a (List.mem_filter.2 ⟨hin, by simpa using hbegun⟩) rfl

/-! ### Alarms (R635, R636) -/

/-- The register fields that an alarm writes. -/
def alarmKeys : List Nat :=
  [SV_ALARM.LATCH.key 0 0, SV_ALARM.FIRST.key 0 0, SV_ALARM_TICK.TICK.key 0 0, SV_CNT.ALARMS.key 0 0, SV_CNT.LOCKS.key 0 0,
   SV_CNT.ERASES.key 0 0] ++ logKeys

/-- The first alarm's source and tick are noted where nothing is latched (R636). -/
def Block.noteFirst (b : Block) (s : Nat) : Block :=
  if b.rd SV_ALARM.LATCH = 0 then (b.wr SV_ALARM.FIRST s).wr SV_ALARM_TICK.TICK b.now else b

/-- An alarm is latched and counted. -/
def Block.latchAlarm (b : Block) (s : Nat) : Block :=
  (b.wr SV_ALARM.LATCH (setBits (b.rd SV_ALARM.LATCH) s 1 1)).inc SV_CNT.ALARMS

/-- The effects of its policy are counted. -/
def Block.countPolicy (b : Block) (p : Nat) : Block :=
  (b.whenB (decide (p ≥ 1)) (fun b => b.inc SV_CNT.LOCKS)).whenB (decide (p ≥ 2)) (fun b => b.inc SV_CNT.ERASES)

theorem Block.alarmOne_eq (b : Block) (s p : Nat) :
    b.alarmOne s p = (((b.noteFirst s).latchAlarm s).countPolicy p).lcEvent 11 (s + p * 2 ^ 3) 1 := rfl

theorem LcFrame.noteFirst (b : Block) (s : Nat) :
    LcFrame [SV_ALARM.FIRST.key 0 0, SV_ALARM_TICK.TICK.key 0 0] b (b.noteFirst s) := by
  unfold Block.noteFirst
  split_ifs
  · exact (LcFrame.refl _ b).wr.wr
  · exact LcFrame.refl _ b

theorem LcFrame.latchAlarm (b : Block) (s : Nat) :
    LcFrame [SV_ALARM.LATCH.key 0 0, SV_CNT.ALARMS.key 0 0] b (b.latchAlarm s) := (LcFrame.refl _ b).wr.wr

theorem LcFrame.countPolicy (b : Block) (p : Nat) :
    LcFrame [SV_CNT.LOCKS.key 0 0, SV_CNT.ERASES.key 0 0] b (b.countPolicy p) := by
  have hinc : LcFrame [SV_CNT.LOCKS.key 0 0, SV_CNT.ERASES.key 0 0] b (b.whenB (decide (p ≥ 1)) (fun b => b.inc SV_CNT.LOCKS)) := by
    unfold Block.whenB
    split_ifs
    · exact (LcFrame.refl _ b).wr
    · exact LcFrame.refl _ b
  unfold Block.countPolicy
  rw [Block.whenB]
  split_ifs
  · exact hinc.wr
  · exact hinc

theorem LcFrame.alarmOne (b : Block) (s p : Nat) : LcFrame alarmKeys b (b.alarmOne s p) := by
  rw [Block.alarmOne_eq]
  exact ((((LcFrame.noteFirst b s).mono (by decide)).trans ((LcFrame.latchAlarm _ s).mono (by decide))).trans
    ((LcFrame.countPolicy _ p).mono (by decide))).lcEvent _ _ _

theorem bit_eq_testBit (v k : Nat) : bit v k = v.testBit k := Nat.testBit_eq_decide_div_mod_eq.symm

/-- A number whose lowest bit has been set keeps the others. -/
theorem testBit_set_lowest (q j : Nat) : (q + 1 - q % 2).testBit j = (q.testBit j || j == 0) := by
  cases j with
  | zero =>
    have hodd : (q + 1 - q % 2) % 2 = 1 := by omega
    simp [hodd]
  | succ j =>
    have hhalf : (q + 1 - q % 2) / 2 = q / 2 := by omega
    rw [Nat.testBit_succ, Nat.testBit_succ, hhalf]
    simp

/-- Setting bit `s` of a six-bit word sets that bit alone. -/
theorem bit_setBits_one (v s : Nat) {k : Nat} (hk : k < 6) :
    bit (setBits v s 1 1 % 2 ^ 6) k = (bit v k || k == s) := by
  have hset : setBits v s 1 1 = 2 ^ s * (v / 2 ^ s + 1 - v / 2 ^ s % 2) + v % 2 ^ s := by
    have hv := Nat.div_add_mod v (2 ^ s)
    have hbit : v / 2 ^ s % 2 ≤ v / 2 ^ s := Nat.mod_le _ _
    have hmul := Nat.mul_le_mul_left (2 ^ s) hbit
    show v + 1 * 2 ^ s - v / 2 ^ s % 2 * 2 ^ s = _
    rw [Nat.mul_sub, Nat.mul_add, Nat.mul_comm (v / 2 ^ s % 2)]
    omega
  have hsplit : v.testBit k = (2 ^ s * (v / 2 ^ s) + v % 2 ^ s).testBit k := by rw [Nat.div_add_mod]
  have hlt : v % 2 ^ s < 2 ^ s := Nat.mod_lt _ (Nat.two_pow_pos s)
  rw [bit_eq_testBit, bit_eq_testBit, Nat.testBit_mod_two_pow, hset, hsplit, Nat.testBit_two_pow_mul_add _ hlt,
    Nat.testBit_two_pow_mul_add _ hlt, testBit_set_lowest]
  split_ifs with hks
  · simp [hk, hks.ne]
  · have hzero : (k - s == 0) = (k == s) := by grind
    simp [hk, hzero]

theorem Block.lc_wr (b : Block) (f : Field) (v i j : Nat) : (b.wr f v i j).lc = b.lc := rfl
theorem Block.lc_inc (b : Block) (f : Field) (n i j : Nat) : (b.inc f n i j).lc = b.lc := rfl

theorem Block.latch_latchAlarm (b : Block) (s : Nat) :
    (b.latchAlarm s).rd SV_ALARM.LATCH = setBits (b.rd SV_ALARM.LATCH) s 1 1 % 2 ^ 6 :=
  (Block.rd_wr_id _ (by decide) _ _ _ _ _).trans (Block.rd_wr_self _ _ _ _ _)

theorem Block.count_latchAlarm (b : Block) (s : Nat) :
    (b.latchAlarm s).rd SV_CNT.ALARMS = min (b.rd SV_CNT.ALARMS + 1) (2 ^ 16 - 1) := by
  have hcount : (b.wr SV_ALARM.LATCH (setBits (b.rd SV_ALARM.LATCH) s 1 1)).rd SV_CNT.ALARMS = b.rd SV_CNT.ALARMS :=
    Block.rd_wr_id _ (by decide) _ _ _ _ _
  refine (Block.rd_wr_self _ _ _ _ _).trans ?_
  rw [hcount, Nat.mod_eq_of_lt]
  · rfl
  · exact lt_of_le_of_lt (min_le_right _ _) (by decide)

/-- The alarms of the sources `ss` have been noted with policy `p`, and not yet acted on (R636). -/
structure Noted (a b : Block) (ss : List Nat) (p : Nat) : Prop where
  latch : ∀ k < 6, bit (b.rd SV_ALARM.LATCH) k = (bit (a.rd SV_ALARM.LATCH) k || ss.contains k)
  count : b.rd SV_CNT.ALARMS = if ss = [] then a.rd SV_CNT.ALARMS else min (a.rd SV_CNT.ALARMS + ss.length) (2 ^ 16 - 1)
  first : a.rd SV_ALARM.LATCH = 0 → ∀ s ∈ ss.head?, b.rd SV_ALARM.FIRST = s ∧ b.rd SV_ALARM_TICK.TICK = a.now % 2 ^ 64
  later : a.rd SV_ALARM.LATCH ≠ 0 →
    b.rd SV_ALARM.FIRST = a.rd SV_ALARM.FIRST ∧ b.rd SV_ALARM_TICK.TICK = a.rd SV_ALARM_TICK.TICK
  records : a.rd LC_STATUS.RUN = 1 → ∀ s ∈ ss, ∃ r ∈ b.faultQ, r.cls = 20 ∧ r.cause = 1 ∧ r.aux1 = s + p * 2 ^ 3
  acts : b.lc.acts = a.lc.acts
  frame : LcFrame alarmKeys a b

theorem Noted.refl (a : Block) (p : Nat) : Noted a a [] p :=
  ⟨fun _ _ => by simp, rfl, fun _ _ h => by simp at h, fun _ => ⟨rfl, rfl⟩, fun _ _ h => by simp at h, rfl,
   LcFrame.refl _ a⟩

/-- One alarm is noted. -/
theorem noted_alarmOne (a : Block) {s p : Nat} (hs : s < 6) (hp : p < 4) : Noted a (a.alarmOne s p) [s] p := by
  have hfirst := LcFrame.noteFirst a s
  have hlatch := LcFrame.latchAlarm (a.noteFirst s) s
  have hcount := LcFrame.countPolicy ((a.noteFirst s).latchAlarm s) p
  have hlate : LcFrame ([SV_CNT.LOCKS.key 0 0, SV_CNT.ERASES.key 0 0] ++ logKeys) ((a.noteFirst s).latchAlarm s) (a.alarmOne s p) :=
    (hcount.mono (by decide)).lcEvent _ _ _
  refine ⟨fun k hk => ?latch, ?count, fun hnone x hx => ?first, fun hsome => ?later, fun hrun x hx => ?records,
    ?acts, LcFrame.alarmOne a s p⟩
  case latch =>
    rw [hlate.rd SV_ALARM.LATCH, Block.latch_latchAlarm, hfirst.rd SV_ALARM.LATCH, bit_setBits_one _ _ hk]
    simp only [List.contains_cons, List.contains_nil, Bool.or_false]
  case count =>
    rw [hlate.rd SV_CNT.ALARMS, Block.count_latchAlarm, hfirst.rd SV_CNT.ALARMS, if_neg (List.cons_ne_nil s []), List.length_singleton]
  case first =>
    obtain rfl : s = x := by simpa using hx
    have hnote : a.noteFirst s = (a.wr SV_ALARM.FIRST s).wr SV_ALARM_TICK.TICK a.now := if_pos hnone
    rw [hlate.rd SV_ALARM.FIRST, hlatch.rd SV_ALARM.FIRST, hlate.rd SV_ALARM_TICK.TICK, hlatch.rd SV_ALARM_TICK.TICK, hnote]
    refine ⟨?_, Block.rd_wr_self _ _ _ _ _⟩
    rw [Block.rd_wr_id _ (by decide)]
    exact (Block.rd_wr_self _ _ _ _ _).trans (Nat.mod_eq_of_lt (lt_trans hs (by decide)))
  case later =>
    have hnote : a.noteFirst s = a := if_neg hsome
    rw [hlate.rd SV_ALARM.FIRST, hlatch.rd SV_ALARM.FIRST, hlate.rd SV_ALARM_TICK.TICK, hlatch.rd SV_ALARM_TICK.TICK, hnote]
    exact ⟨rfl, rfl⟩
  case records =>
    obtain rfl := List.mem_singleton.1 hx
    have hstill : (((a.noteFirst x).latchAlarm x).countPolicy p).rd LC_STATUS.RUN = 1 := by
      rw [hcount.rd LC_STATUS.RUN, hlatch.rd LC_STATUS.RUN, hfirst.rd LC_STATUS.RUN, hrun]
    have hrec := (Block.lcEvent_running hstill 11 (x + p * 2 ^ 3) 1).recorded (by decide) (by omega)
    rw [Block.alarmOne_eq, hrec]
    exact ⟨_, List.mem_append_right _ (List.mem_singleton_self _), rfl, rfl, rfl⟩
  case acts =>
    have hregs : (((a.noteFirst s).latchAlarm s).countPolicy p).lc = a.lc := by
      simp only [Block.countPolicy, Block.whenB, Block.latchAlarm, Block.noteFirst, apply_ite Block.lc, Block.lc_wr, Block.lc_inc,
        ite_self]
    rw [Block.alarmOne_eq, Block.acts_lcEvent, hregs]

/-- Noting one alarm after another. -/
theorem Noted.cons {a b c : Block} {s p : Nat} {ss : List Nat} (h : Noted a b [s] p) (k : Noted b c ss p) (hs : s < 6) :
    Noted a c (s :: ss) p := by
  have hlatched : b.rd SV_ALARM.LATCH ≠ 0 := by
    intro hzero
    have hbit := h.latch s hs
    rw [hzero] at hbit
    simp [bit] at hbit
  obtain ⟨hfirst, htick⟩ := k.later hlatched
  refine ⟨fun i hi => ?_, ?_, fun hnone x hx => ?_, fun hsome => ?_, fun hrun x hx => ?_, k.acts.trans h.acts,
    h.frame.trans k.frame⟩
  · rw [k.latch i hi, h.latch i hi, Bool.or_assoc]
    simp
  · have hone := h.count
    rw [if_neg (List.cons_ne_nil s []), List.length_singleton] at hone
    rw [k.count, hone, if_neg (List.cons_ne_nil _ _), List.length_cons]
    split_ifs with hlast
    · simp [hlast]
    · omega
  · obtain rfl : s = x := by simpa using hx
    rw [hfirst, htick]
    exact h.first hnone s rfl
  · rw [hfirst, htick]
    exact h.later hsome
  · rcases List.mem_cons.1 hx with rfl | hx
    · obtain ⟨r, hr, hspec⟩ := h.records hrun x (List.mem_singleton_self x)
      exact ⟨r, k.frame.faults.subset hr, hspec⟩
    · exact k.records ((h.frame.rd LC_STATUS.RUN).trans hrun) x hx

theorem noted_alarms {p : Nat} (hp : p < 4) : ∀ (ss : List Nat) (a : Block), (∀ s ∈ ss, s < 6) →
    Noted a (a.each ss (fun b s => b.alarmOne s p)) ss p
  | [], a, _ => Noted.refl a p
  | _ :: ss, a, hss =>
    have ⟨hs, hrest⟩ := List.forall_mem_cons.1 hss
    (noted_alarmOne a hs hp).cons (noted_alarms hp ss _ hrest) hs

/-! ### Erasing (R635) -/

/-- The register fields that say what is active and what the alarms have noted. -/
def notedFields : List Field :=
  [SV_STATUS.ACTIVE, SV_ALARM.LATCH, SV_ALARM.FIRST, SV_ALARM_TICK.TICK, SV_CNT.ALARMS]

/-- The effects of ERASE leave no association, window, queue pair, session or handshake; they touch neither the lock nor what the
alarms have noted, and erase the identity key where the fuse says so. -/
structure Erased (a b : Block) : Prop where
  kept : ∀ f ∈ SV_STATUS.LOCKED :: notedFields, b.rd f = a.rd f
  key : b.rd SV_STATUS.ID_KEY = if a.on LC_INV1.FUSE_ERASE = true then 2 else a.rd SV_STATUS.ID_KEY
  faults : a.faultQ <+: b.faultQ
  acts : b.lc.acts = a.lc.acts
  gone : b.lc.sess = [] ∧ b.lc.hands = [] ∧ b.qps = [] ∧ b.wins = [] ∧ b.ports.assocs = []
  regQ : b.regQ = a.regQ

/-- ERASE, first part: associations, windows and queue pairs are gone. -/
def Block.disconnected (b : Block) : Block := { b.onPorts (fun p => { p with assocs := [], active := [] }) with wins := [], qps := [] }

/-- ERASE, second part: what the queue pairs carried has been diverted. -/
def Block.undelivered (b : Block) : Block := b.disconnected.each b.qps (fun b q => b.qpFail q 5)

/-- ERASE, third part: sessions and handshakes end. -/
def Block.sessionless (b : Block) : Block := b.undelivered.onLc (fun l => { l with hands := [], sess := [] })

theorem Block.erase_eq (b : Block) :
    b.erase = if b.sessionless.on LC_INV1.FUSE_ERASE then b.sessionless.setIdKey 2 else b.sessionless := rfl

theorem erased_erase {a : Block} (hring : a.deadLettersInHbm) : Erased a a.erase := by
  have hcalm : Calm a.disconnected a.undelivered :=
    Calm.each (fun _ _ hb => hb.qpFail (a := a.disconnected) hring _ _) (Calm.refl _)
  have hended : ∀ f : Field, f.id ∈ vaultFields → a.sessionless.rd f = a.rd f := fun f hf => hcalm.rd f hf 0 0
  have hfuse : a.sessionless.on LC_INV1.FUSE_ERASE = a.on LC_INV1.FUSE_ERASE :=
    congrArg (· == 1) (hended LC_INV1.FUSE_ERASE (by decide))
  have hacts : a.sessionless.lc.acts = a.lc.acts := (congrArg Lichen.acts hcalm.lc :)
  have hassocs : a.sessionless.ports.assocs = [] := congrArg Ports.assocs hcalm.ports
  have hlisted : ∀ f ∈ SV_STATUS.LOCKED :: notedFields, f.id ∈ vaultFields ∧ f.key 0 0 ∉ keyKeys := by decide
  rw [Block.erase_eq, hfuse]
  split_ifs with hf
  · have hkey := LcFrame.setIdKey a.sessionless 2
    obtain ⟨hhands, hsess⟩ := Prod.mk.inj hkey.sessions
    refine ⟨fun f hm => (hkey.rd f (hlisted f hm).2).trans (hended f (hlisted f hm).1), ?_, hcalm.faults.trans hkey.faults, ?_,
      ⟨hsess, hhands, hkey.qps.trans hcalm.qps, hkey.wins.trans hcalm.wins, ?_⟩, hkey.regQ.trans hcalm.regQ⟩
    · rw [if_pos hf]
      exact Block.idKey_setIdKey _ (by decide)
    · rw [Block.acts_setIdKey, hacts]
    · rw [hkey.ports, hassocs]
  · exact ⟨fun f hm => hended f (hlisted f hm).1, by rw [if_neg hf]; exact hended _ (by decide), hcalm.faults, hacts,
      ⟨rfl, rfl, hcalm.qps, hcalm.wins, hassocs⟩, hcalm.regQ⟩

/-! ### The policy acts (R635) -/

/-- What the strongest policy does once the alarms have been noted. -/
def Block.act (b : Block) (p : Nat) : Block := (b.whenB (decide (p ≥ 1)) Block.lock).whenB (decide (p ≥ 2)) Block.erase

theorem Block.act_zero (b : Block) : b.act 0 = b := rfl
theorem Block.act_one (b : Block) : b.act 1 = b.lock := rfl
theorem Block.act_erase (b : Block) {p : Nat} (hp : 2 ≤ p) : b.act p = b.lock.erase := by
  have hone : 1 ≤ p := by omega
  simp [Block.act, Block.whenB, hp, hone]

/-- The module with the alarms of `ss` noted. -/
def Block.noted (b : Block) (ss : List Nat) : Block :=
  (b.each ss (fun c s => c.alarmOne s ((ss.map b.policyOf).foldl max 0))).onLc (fun l => { l with alarmed := true })

theorem Block.alarms_eq (b : Block) {ss : List Nat} (hne : ss ≠ []) :
    b.alarms ss = (b.noted ss).act ((ss.map b.policyOf).foldl max 0) :=
  if_neg (by simpa using hne)

theorem noted_noted {a : Block} {ss : List Nat} (hp : (ss.map a.policyOf).foldl max 0 < 4) (hss : ∀ s ∈ ss, s < 6) :
    Noted a (a.noted ss) ss ((ss.map a.policyOf).foldl max 0) := by
  obtain ⟨hlatch, hcount, hfirst, hlater, hrecords, hacts, hframe⟩ := noted_alarms hp ss a hss
  exact ⟨hlatch, hcount, hfirst, hlater, hrecords, hacts, hframe.onLc⟩

/-- Acting leaves what has been noted, and owes no register write. -/
theorem Block.act_frame {b : Block} (hring : b.deadLettersInHbm) (p : Nat) : (∀ f ∈ notedFields, (b.act p).rd f = b.rd f) ∧
    b.faultQ <+: (b.act p).faultQ ∧ (b.act p).regQ = b.regQ := by
  have hlisted : ∀ f ∈ notedFields, f.key 0 0 ∉ lockKeys := by decide
  have hl := LcFrame.lock b
  have he := erased_erase (hl.deadLetters hring)
  rcases (by omega : p = 0 ∨ p = 1 ∨ 2 ≤ p) with rfl | rfl | h2
  · exact ⟨fun _ _ => rfl, List.prefix_rfl, rfl⟩
  · exact ⟨fun f hf => hl.rd f (hlisted f hf), hl.faults, hl.regQ⟩
  · rw [b.act_erase h2]
    exact ⟨fun f hf => (he.kept f (List.mem_cons_of_mem _ hf)).trans (hl.rd f (hlisted f hf)), hl.faults.trans he.faults,
      he.regQ.trans hl.regQ⟩

/-- Alarms leave alone what is active, and owe no register write. -/
theorem Block.alarms_frame {a : Block} {ss : List Nat} (hne : ss ≠ []) (hss : ∀ s ∈ ss, s < 6)
    (hp : (ss.map a.policyOf).foldl max 0 < 4) (hring : a.deadLettersInHbm) :
    (a.alarms ss).rd SV_STATUS.ACTIVE = a.rd SV_STATUS.ACTIVE ∧ (a.alarms ss).regQ = a.regQ := by
  have hframe := (noted_noted hp hss).frame
  obtain ⟨hkept, -, hq⟩ := Block.act_frame (hframe.deadLetters hring) ((ss.map a.policyOf).foldl max 0)
  rw [a.alarms_eq hne]
  exact ⟨(hkept _ (by decide)).trans (hframe.rd _), hq.trans hframe.regQ⟩

/-- The largest of numbers below a bound is below it. -/
theorem foldl_max_lt {n : Nat} : ∀ {l : List Nat} {m : Nat}, m < n → (∀ x ∈ l, x < n) → l.foldl max m < n
  | [], _, hm, _ => hm
  | x :: _, m, hm, hl =>
    have ⟨hx, hl⟩ := List.forall_mem_cons.1 hl
    foldl_max_lt (m := max m x) (max_lt hm hx) hl

end Sys2Proof.Machine

namespace Sys2Proof
open Machine Machine.Reg

/-- What O53 says of the alarms of sources `ss`. -/
def AlarmsRaised (a : Block) (ss : List Nat) (b : Block) : Prop :=
  let latch := a.rd SV_ALARM.LATCH
  let key := a.rd SV_STATUS.ID_KEY
  let p := (ss.map a.policyOf).foldl max 0
  (∀ k < 6, bit (b.rd SV_ALARM.LATCH) k = (bit latch k || ss.contains k)) ∧
  b.rd SV_CNT.ALARMS = min (a.rd SV_CNT.ALARMS + ss.length) (2 ^ 16 - 1) ∧
  (latch = 0 → some (b.rd SV_ALARM.FIRST) = ss.head? ∧ b.rd SV_ALARM_TICK.TICK = a.rd TK_COUNT.COUNT % 2 ^ 64) ∧
  (latch ≠ 0 → b.rd SV_ALARM.FIRST = a.rd SV_ALARM.FIRST ∧ b.rd SV_ALARM_TICK.TICK = a.rd SV_ALARM_TICK.TICK) ∧
  (a.rd LC_STATUS.RUN = 1 → ∀ k ∈ ss, ∃ r ∈ b.faultQ, r.cls = 20 ∧ r.cause = 1 ∧ r.aux1 = k + p * 2 ^ 3) ∧
  (p = 0 → b.rd SV_STATUS.LOCKED = a.rd SV_STATUS.LOCKED ∧ b.rd SV_STATUS.ID_KEY = key ∧ b.lc.acts = a.lc.acts) ∧
  (1 ≤ p → b.rd SV_STATUS.LOCKED = 1 ∧ ∀ a ∈ b.lc.acts, a.begun.isSome = true) ∧
  (p = 1 → b.rd SV_STATUS.ID_KEY = (if key = 2 then 2 else 1) ∧ b.lc.sess = a.lc.sess ∧ b.qps = a.qps ∧ b.wins = a.wins) ∧
  (2 ≤ p → b.rd SV_STATUS.ID_KEY = (if key = 2 ∨ a.on LC_INV1.FUSE_ERASE = true then 2 else 1) ∧ b.lc.sess = [] ∧
    b.lc.hands = [] ∧ b.qps = [] ∧ b.wins = [] ∧ b.ports.assocs = [])

/-- Noted alarms, acted on with the strongest policy, are what the statement asks for. -/
theorem alarmsRaised {a : Block} {ss : List Nat} (hne : ss ≠ []) (hss : ∀ s ∈ ss, s < 6) (hfit : ∀ k < 6, a.policyOf k < 4)
    (hring : a.deadLettersInHbm) : AlarmsRaised a ss (a.alarms ss) := by
  unfold AlarmsRaised
  intro latch key p
  have hp : p < 4 := foldl_max_lt (by decide) (List.forall_mem_map.2 fun s hs => hfit s (hss s hs))
  have hraise : a.alarms ss = (a.noted ss).act p := a.alarms_eq hne
  obtain ⟨hlatch, hcount, hfirst, hlater, hrecords, hacts, hframe⟩ : Noted a (a.noted ss) ss p := noted_noted hp hss
  have hring' : (a.noted ss).deadLettersInHbm := hframe.deadLetters hring
  obtain ⟨hkept, hfaults, -⟩ := Block.act_frame hring' p
  have hkey : (a.noted ss).rd SV_STATUS.ID_KEY = key := hframe.rd _
  obtain ⟨hlocked, hidKey, hbegun⟩ := (a.noted ss).lock_spec
  have hlock := LcFrame.lock (a.noted ss)
  have herase := erased_erase (hlock.deadLetters hring')
  rw [hraise]
  refine ⟨?latch, ?count, ?first, ?later, ?records, ?none, ?locks, ?lock, ?erase⟩
  case latch => rwa [hkept SV_ALARM.LATCH (by decide)]
  case count => rw [hkept SV_CNT.ALARMS (by decide), hcount, if_neg hne]
  case first =>
    intro hnone
    obtain ⟨s, rest, rfl⟩ := List.exists_cons_of_ne_nil hne
    rw [hkept SV_ALARM.FIRST (by decide), hkept SV_ALARM_TICK.TICK (by decide), (hfirst hnone s rfl).1]
    exact ⟨rfl, (hfirst hnone s rfl).2⟩
  case later =>
    rwa [hkept SV_ALARM.FIRST (by decide), hkept SV_ALARM_TICK.TICK (by decide)]
  case records =>
    intro hrun k hk
    obtain ⟨r, hr, hspec⟩ := hrecords hrun k hk
    exact ⟨r, hfaults.subset hr, hspec⟩
  case none =>
    intro hzero
    rw [hzero, Block.act_zero]
    exact ⟨hframe.rd _, hkey, hacts⟩
  case locks =>
    intro hone
    rcases (by omega : p = 1 ∨ 2 ≤ p) with h1 | h2
    · rw [h1, Block.act_one]
      exact ⟨hlocked, hbegun⟩
    · rw [Block.act_erase _ h2, herase.kept SV_STATUS.LOCKED (by decide), herase.acts]
      exact ⟨hlocked, hbegun⟩
  case lock =>
    intro h1
    rw [h1, Block.act_one, hidKey, hkey]
    obtain ⟨-, hsess⟩ := Prod.mk.inj (hlock.sessions.trans hframe.sessions)
    exact ⟨rfl, hsess, hlock.qps.trans hframe.qps, hlock.wins.trans hframe.wins⟩
  case erase =>
    intro h2
    have hfuse : (a.noted ss).lock.on LC_INV1.FUSE_ERASE = a.on LC_INV1.FUSE_ERASE :=
      congrArg (· == 1) ((hlock.rd LC_INV1.FUSE_ERASE).trans (hframe.rd LC_INV1.FUSE_ERASE))
    rw [Block.act_erase _ h2, herase.key, hidKey, hkey, hfuse]
    refine ⟨?_, herase.gone⟩
    by_cases hf : a.on LC_INV1.FUSE_ERASE = true <;> simp [hf]

/-! ## Re-attestation (R638) and the latch (R636) -/

end Sys2Proof

namespace Sys2Proof.Machine
open Reg

/-- Whether a re-attestation runs, and whether an alarm has arisen since the last one (R638). -/
def Lichen.attestation (l : Lichen) : Bool × Bool := (l.attest, l.alarmed)

@[simp] theorem Block.attestation_lcEvent (b : Block) (code arg cause : Nat) :
    (b.lcEvent code arg cause).lc.attestation = b.lc.attestation :=
  (congrArg (fun c : Block => c.lc.attestation) (b.besideLog_lcEvent code arg cause) :)

@[simp] theorem Block.attestation_lockKey (b : Block) (v : Bool) (k : Nat) : (b.lockKey v k).lc.attestation = b.lc.attestation := by
  unfold Block.lockKey Block.setIdKey
  dsimp only
  split_ifs
  · rfl
  · rfl
  all_goals exact Block.attestation_lcEvent _ _ _ _

/-- Re-attestation has come to its result: Lichen runs, and neither the lock, the identity key, the latch nor the active sources
have changed. -/
structure Attested (a b : Block) : Prop where
  runs : b.rd LC_STATUS.RUN = 1
  kept : ∀ f ∈ [SV_STATUS.ACTIVE, SV_STATUS.LOCKED, SV_STATUS.ID_KEY, SV_ALARM.LATCH], b.rd f = a.rd f
  done : b.lc.attestation = (false, false)
  regQ : b.regQ = a.regQ

/-- The result of a re-attestation has been reached. -/
def Block.attestDone (b : Block) : Block := b.onLc (fun l => { l with attest := false, alarmed := false })

@[simp] theorem Block.rd_attestDone (b : Block) (f : Field) (i j : Nat) : b.attestDone.rd f i j = b.rd f i j := rfl

/-- Lichen restarted, where it had not restarted yet, and the result reached. -/
def Block.attested (b : Block) : Block :=
  (if b.lc.attest then (if b.rd LC_STATUS.RUN = 2 then b.lichenUp b.lc.why else b) else b.attestStart.lichenUp 1).attestDone

theorem Block.doReattest_eq {b : Block} (hrun : b.rd LC_STATUS.RUN ≠ 0) (fail : Option (Fin 4)) : b.doReattest fail =
    if fail.isNone ∧ b.attested.rd SV_STATUS.ACTIVE = 0 then
      (b.attested.lockKey false 0).lcEvent 13 1 0
    else b.attested.lcEvent 13 (2 * (fail.elim 0 (·.val))) 10 := if_neg hrun

theorem Block.attestStart_eq {b : Block} (hrun : b.rd LC_STATUS.RUN ≠ 0) :
    b.attestStart = (b.wr LC_STATUS.RUN 2).onLc (fun l => { l with why := 1, attest := true }) := if_neg hrun

theorem attested_attested {a : Block} (hrun : a.rd LC_STATUS.RUN = 1 ∨ a.rd LC_STATUS.RUN = 2) : Attested a a.attested := by
  have hup : ∀ b : Block, RegsBut [LC_STATUS.RUN.key 0 0] a b → b.regQ = a.regQ → ∀ why, Attested a (b.lichenUp why).attestDone := by
    intro b hb hq why
    have hf := LcFrame.lichenUp b why
    generalize b.lichenUp why = c at hf ⊢
    refine ⟨((hf.rd LC_STATUS.RUN).trans (Block.rd_wr_self b LC_STATUS.RUN 1 0 0)), fun f hm => ?_, rfl, hf.regQ.trans hq⟩
    have hlisted : ∀ f ∈ [SV_STATUS.ACTIVE, SV_STATUS.LOCKED, SV_STATUS.ID_KEY, SV_ALARM.LATCH],
      f.key 0 0 ∉ actKeys ∧ f.key 0 0 ∉ [LC_STATUS.RUN.key 0 0] := by decide
    obtain ⟨hact, hone⟩ := hlisted f hm
    exact (hf.rd f hact).trans ((hb.wr LC_STATUS.RUN 1 0 0 (List.mem_singleton_self _)) f 0 0 hone)
  unfold Block.attested
  split_ifs with hatt h2
  · exact hup a (RegsBut.refl _ a) rfl a.lc.why
  · exact ⟨(a.rd_attestDone _ _ _).trans (hrun.resolve_right h2), fun f _ => a.rd_attestDone f 0 0, rfl, rfl⟩
  · rw [Block.attestStart_eq (by omega)]
    exact hup _ (RegsBut.onLc ((RegsBut.refl _ a).wr LC_STATUS.RUN 2 0 0 (List.mem_singleton_self _)) _) rfl _

/-! ### Clearing the latch -/

/-- A six-bit word made of its bits has them. -/
theorem bit_sum (c : Nat → Bool) {k : Nat} (hk : k < 6) :
    bit (((List.range 6).map (fun s => if c s then 2 ^ s else 0)).sum % 2 ^ 6) k = c k := by
  have hterm : ∀ s, (if c s then 2 ^ s else 0) = 2 ^ s * (c s).toNat := fun s => by cases c s <;> simp
  have hle : ∀ s, (c s).toNat ≤ 1 := fun s => Bool.toNat_le (c s)
  have hbit : bit (((List.range 6).map (fun s => if c s then 2 ^ s else 0)).sum % 2 ^ 6) k = ((c k).toNat == 1) := by
    have h0 := hle 0; have h1 := hle 1; have h2 := hle 2; have h3 := hle 3; have h4 := hle 4; have h5 := hle 5
    simp only [hterm, bit]
    congr 1
    interval_cases k <;> simp [List.range_succ] <;> omega
  rw [hbit]
  cases c k <;> rfl

/-- The write of a latch bit carries the word's bit of that source. -/
theorem bit_latch_of (v : Nat) {k : Nat} (hk : k < 6) : bit (SV_ALARM.LATCH.of v) k = bit v k := by
  have hof : SV_ALARM.LATCH.of v = v % 2 ^ 6 := congrArg (· % 2 ^ 6) (Nat.div_one v)
  rw [hof, bit_eq_testBit, bit_eq_testBit, Nat.testBit_mod_two_pow, decide_eq_true hk, Bool.true_and]

theorem Block.bit_clearLatch (b : Block) (v : Nat) {k : Nat} (hk : k < 6) : bit ((b.clearLatch v).rd SV_ALARM.LATCH) k =
    (bit (b.rd SV_ALARM.LATCH) k && (!bit v k || bit (b.rd SV_STATUS.ACTIVE) k)) := by
  refine (congrArg (bit · k) (Block.rd_wr_self b SV_ALARM.LATCH _ 0 0)).trans ?_
  exact bit_sum (fun s => bit (b.rd SV_ALARM.LATCH) s && (!bit v s || bit (b.rd SV_STATUS.ACTIVE) s)) hk

set_option maxRecDepth 20000 in
theorem svAlarm_fields : (RegAt.mk .sv 0 0x10).fields.isEmpty = false := by decide

theorem Block.doRegisterWrite_svAlarm (b : Block) (lichen : Bool) (ctx : BitVec 12) (v : W64) :
    b.doRegisterWrite lichen ctx 0x100002 v = b.clearLatch (SV_ALARM.LATCH.of v.toNat) :=
  b.doRegisterWrite_sv lichen ctx v (o := 0x10) (by decide) (by decide) svAlarm_fields

end Sys2Proof.Machine

/-! ## The vault (R634 to R639, R644) -/

namespace Sys2Proof
open Machine Machine.Reg

/-- What O53 says of one state. -/
def VaultClaims (s : State) : Prop :=
  let latch := s.m.rd SV_ALARM.LATCH
  let key := s.m.rd SV_STATUS.ID_KEY
  let run := s.m.rd LC_STATUS.RUN
  (∀ active : BitVec 5,
    (let new := (List.range 5).filter (fun k => bit active.toNat k && !bit (s.m.rd SV_STATUS.ACTIVE) k)
     (new = [] → Runs (.tamperAlarm active) s (fun b => b.rd SV_STATUS.ACTIVE = active.toNat ∧
       Only s.m b [SV_STATUS.ACTIVE.key 0 0] [])) ∧
     (new ≠ [] → s.m.deadLettersInHbm → Runs (.tamperAlarm active) s (fun b =>
       b.rd SV_STATUS.ACTIVE = active.toNat ∧ AlarmsRaised s.m new b)))) ∧
  (s.m.deadLettersInHbm → Runs .svTestTrigger s (AlarmsRaised s.m [5])) ∧
  (∀ (lichen : Bool) (ctx : BitVec 12) (v : W64), Runs (.registerWrite lichen ctx 0x100002 v) s (fun b =>
    (∀ k < 6, bit (b.rd SV_ALARM.LATCH) k = (bit latch k && (!bit v.toNat k || bit (s.m.rd SV_STATUS.ACTIVE) k))) ∧
    Only s.m b [SV_ALARM.LATCH.key 0 0] [])) ∧
  (∀ fail : Option (Fin 4),
    (run = 0 → Runs (.reattest fail) s (fun b => b = s.m)) ∧
    (run = 1 ∨ run = 2 → (let good := fail = none ∧ s.m.rd SV_STATUS.ACTIVE = 0
      (good → Runs (.reattest fail) s (fun b => b.rd SV_STATUS.LOCKED = 0 ∧ b.rd SV_STATUS.ID_KEY = (if key = 2 then 2 else 0) ∧
        b.lc.attest = false ∧ b.lc.alarmed = false ∧ b.rd SV_ALARM.LATCH = latch)) ∧
      (¬ good → Runs (.reattest fail) s (fun b => b.rd SV_STATUS.LOCKED = s.m.rd SV_STATUS.LOCKED ∧ b.rd SV_STATUS.ID_KEY = key ∧
        b.lc.attest = false ∧ b.lc.alarmed = false ∧ ∃ r ∈ b.faultQ, r.cls = 20 ∧ r.cause = 10)))))

theorem vault_iff : Obligations.Vault ↔ ∀ s : State, s.m.regQ = [] → VaultClaims s := Iff.rfl

theorem exec_reattest (fail : Option (Fin 4)) (s : State) : exec (.reattest fail) s = s.run (·.doReattest fail) := rfl
theorem exec_tamperAlarm (active : BitVec 5) (s : State) : exec (.tamperAlarm active) s = s.run (·.doTamperAlarm active) := rfl

theorem Machine.Block.policyOf_wr_active (a : Block) (v : Nat) : (a.wr SV_STATUS.ACTIVE v).policyOf = a.policyOf := by
  funext k
  simp (disch := decide) only [Block.policyOf, Block.rd_wr_id]

/-- The sources that are active have no part in what their alarms do. -/
theorem AlarmsRaised.of_active {a b : Block} {v : Nat} {ss : List Nat} (h : AlarmsRaised (a.wr SV_STATUS.ACTIVE v) ss b) :
    AlarmsRaised a ss b := by
  have hrd : ∀ f : Field, f.id ≠ SV_STATUS.ACTIVE.id → (a.wr SV_STATUS.ACTIVE v).rd f = a.rd f :=
    fun f hf => Block.rd_wr_id a (Ne.symm hf) v 0 0 0 0
  unfold AlarmsRaised at h ⊢
  simp (disch := decide) only [a.policyOf_wr_active, hrd, Block.on] at h ⊢
  exact h

/-- The strongest policy of sources whose policies fit their fields. -/
theorem strongest_lt {a : Block} {ss : List Nat} (hss : ∀ k ∈ ss, k < 6) (hfit : ∀ k < 6, a.policyOf k < 4) :
    (ss.map a.policyOf).foldl max 0 < 4 :=
  foldl_max_lt (by decide) (List.forall_mem_map.2 fun k hk => hfit k (hss k hk))

/-- The alarms of sources that have become active, with their bits noted. -/
theorem raised_active {a : Block} (v : BitVec 5) {ss : List Nat} (hne : ss ≠ []) (hss : ∀ k ∈ ss, k < 6)
    (hfit : ∀ k < 6, a.policyOf k < 4) (hring : a.deadLettersInHbm) :
    let b := (a.wr SV_STATUS.ACTIVE v.toNat).alarms ss
    b.regQ = a.regQ ∧ b.rd SV_STATUS.ACTIVE = v.toNat ∧ AlarmsRaised a ss b := by
  have hactive : (a.wr SV_STATUS.ACTIVE v.toNat).rd SV_STATUS.ACTIVE = v.toNat :=
    (Block.rd_wr_self a SV_STATUS.ACTIVE v.toNat 0 0).trans (Nat.mod_eq_of_lt (lt_trans v.isLt (by decide)))
  have hring' : (a.wr SV_STATUS.ACTIVE v.toNat).deadLettersInHbm :=
    (LcFrame.wr (ks := [SV_STATUS.ACTIVE.key 0 0]) (LcFrame.refl _ a)).deadLetters hring
  have hfit' : ∀ k < 6, (a.wr SV_STATUS.ACTIVE v.toNat).policyOf k < 4 := by rwa [a.policyOf_wr_active]
  obtain ⟨hkept, hq⟩ := Block.alarms_frame hne hss (strongest_lt hss hfit') hring'
  exact ⟨hq, hkept.trans hactive, (alarmsRaised hne hss hfit' hring').of_active⟩

theorem tamperAlarm_claims {s : State} (hq : s.m.regQ = []) (hfit : ∀ k < 6, s.m.policyOf k < 4) (active : BitVec 5) :
    let new := (List.range 5).filter (fun k => bit active.toNat k && !bit (s.m.rd SV_STATUS.ACTIVE) k)
    (new = [] → Runs (.tamperAlarm active) s (fun b => b.rd SV_STATUS.ACTIVE = active.toNat ∧
      Only s.m b [SV_STATUS.ACTIVE.key 0 0] [])) ∧
    (new ≠ [] → s.m.deadLettersInHbm → Runs (.tamperAlarm active) s (fun b =>
      b.rd SV_STATUS.ACTIVE = active.toNat ∧ AlarmsRaised s.m new b)) := by
  intro new
  have hdo : s.m.doTamperAlarm active = (s.m.wr SV_STATUS.ACTIVE active.toNat).alarms new := rfl
  have hactive : (s.m.wr SV_STATUS.ACTIVE active.toNat).rd SV_STATUS.ACTIVE = active.toNat :=
    (Block.rd_wr_self s.m SV_STATUS.ACTIVE _ 0 0).trans (Nat.mod_eq_of_lt (lt_trans active.isLt (by decide)))
  have hss : ∀ k ∈ new, k < 6 := fun k hk => lt_trans (List.mem_range.1 (List.mem_filter.1 hk).1) (by decide)
  refine ⟨fun hnone => ?_, fun hne hring => ?_⟩
  · rw [hnone] at hdo
    exact runs_to (exec_tamperAlarm _ _) hdo hq ⟨hactive, (Only.refl _ _ _).wr _ _ _ _ (List.mem_singleton_self _)⟩
  · obtain ⟨hregQ, hclaims⟩ := raised_active active hne hss hfit hring
    exact runs_to (exec_tamperAlarm _ _) hdo (hregQ.trans hq) hclaims

theorem reattest_claims {s : State} (hq : s.m.regQ = []) (hrun : s.m.rd LC_STATUS.RUN = 1 ∨ s.m.rd LC_STATUS.RUN = 2)
    (fail : Option (Fin 4)) :
    let good := fail = none ∧ s.m.rd SV_STATUS.ACTIVE = 0
    (good → Runs (.reattest fail) s (fun b => b.rd SV_STATUS.LOCKED = 0 ∧
      b.rd SV_STATUS.ID_KEY = (if s.m.rd SV_STATUS.ID_KEY = 2 then 2 else 0) ∧ b.lc.attest = false ∧ b.lc.alarmed = false ∧
      b.rd SV_ALARM.LATCH = s.m.rd SV_ALARM.LATCH)) ∧
    (¬ good → Runs (.reattest fail) s (fun b => b.rd SV_STATUS.LOCKED = s.m.rd SV_STATUS.LOCKED ∧
      b.rd SV_STATUS.ID_KEY = s.m.rd SV_STATUS.ID_KEY ∧ b.lc.attest = false ∧ b.lc.alarmed = false ∧
      ∃ r ∈ b.faultQ, r.cls = 20 ∧ r.cause = 10)) := by
  intro good
  obtain ⟨hruns, hkept, hdone, hregQ⟩ := attested_attested hrun
  have hdo := Block.doReattest_eq (b := s.m) (by omega) fail
  have hgood : (fail.isNone = true ∧ s.m.attested.rd SV_STATUS.ACTIVE = 0) ↔ good := by
    rw [hkept SV_STATUS.ACTIVE (by decide), Option.isNone_iff_eq_none]
  refine ⟨fun h => ?_, fun h => ?_⟩
  · rw [if_pos (hgood.2 h)] at hdo
    obtain ⟨hlocked, hkey⟩ := s.m.attested.lockKey_spec false (k := 0) (by decide)
    have hlock := LcFrame.lockKey s.m.attested false 0
    have hlog := (LcFrame.refl logKeys (s.m.attested.lockKey false 0)).lcEvent 13 1 0
    obtain ⟨hattest, halarmed⟩ := Prod.mk.inj (((Block.attestation_lcEvent _ 13 1 0).trans
      (s.m.attested.attestation_lockKey false 0)).trans hdone)
    refine runs_to (exec_reattest _ _) hdo ((hlog.regQ.trans hlock.regQ).trans (hregQ.trans hq)) ⟨?_, ?_, hattest, halarmed, ?_⟩
    · exact (hlog.rd SV_STATUS.LOCKED).trans hlocked
    · rw [hlog.rd SV_STATUS.ID_KEY, hkey, hkept SV_STATUS.ID_KEY (by decide)]
    · rw [hlog.rd SV_ALARM.LATCH, hlock.rd SV_ALARM.LATCH, hkept SV_ALARM.LATCH (by decide)]
  · rw [if_neg (mt hgood.1 h)] at hdo
    have hlogs := Block.lcEvent_running hruns 13 (2 * (fail.elim 0 (·.val))) 10
    have hlog := LcFrame.logs hlogs
    have hrec := hlogs.recorded (by decide) (by cases fail with | none => simp | some c => simp; omega)
    obtain ⟨hattest, halarmed⟩ := Prod.mk.inj ((Block.attestation_lcEvent s.m.attested 13 (2 * (fail.elim 0 (·.val))) 10).trans hdone)
    refine runs_to (exec_reattest _ _) hdo (hlog.regQ.trans (hregQ.trans hq)) ⟨?_, ?_, hattest, halarmed, ?_⟩
    · exact (hlog.rd SV_STATUS.LOCKED).trans (hkept _ (by decide))
    · exact (hlog.rd SV_STATUS.ID_KEY).trans (hkept _ (by decide))
    · rw [hrec]
      exact ⟨_, List.mem_append_right _ (List.mem_singleton_self _), rfl, rfl⟩

/-- Where every policy fits the two bits of its field, all that O53 says holds. -/
theorem vaultClaims_of_policies_fit {s : State} (hq : s.m.regQ = []) (hfit : ∀ k < 6, s.m.policyOf k < 4) : VaultClaims s := by
  refine ⟨tamperAlarm_claims hq hfit, fun hring => ?test, fun lichen ctx v => ?clear,
    fun fail => ⟨fun h0 => runs_to (exec_reattest _ _) (if_pos h0) hq rfl, fun hrun => reattest_claims hq hrun fail⟩⟩
  case test =>
    have hss : ∀ k ∈ [5], k < 6 := by decide
    obtain ⟨-, hregQ⟩ := Block.alarms_frame (by decide) hss (strongest_lt hss hfit) hring
    exact runs_to (f := Block.doSvTestTrigger) rfl rfl (hregQ.trans hq) (alarmsRaised (by decide) hss hfit hring)
  case clear =>
    refine runs_to (exec_registerWrite _ _ _ _ _) (s.m.doRegisterWrite_svAlarm lichen ctx v) hq ⟨fun k hk => ?_, ?_⟩
    · rw [Block.bit_clearLatch _ _ hk, bit_latch_of _ hk]
    · exact (Only.refl _ _ _).wr _ _ _ _ (List.mem_singleton_self _)

/-- The module as it comes out of reset meets all of it. -/
theorem vaultClaims_reset : VaultClaims State.reset := vaultClaims_of_policies_fit rfl (by decide)

end Sys2Proof

/-! ## The vault's records (R636) -/

namespace Sys2Proof
open Machine Machine.Reg

/-- A module whose test source has a policy that no two-bit field holds: nothing in the statement keeps a register's value within
its field. Lichen runs and the erase fuse is not blown. -/
def widePolicy : State :=
  { State.reset with
    m := { Block.reset with regs :=
      [(LC_STATUS.RUN.key 0 0, 1), (LC_INV1.FUSE_ERASE.key 0 0, 0), (SV_POLICY.P_TEST.key 0 0, 2 ^ 61)] } }

/-- The test trigger's alarm has one record, whose AUX 1 is the argument cut to its 64 bits: the policy has gone. -/
theorem widePolicy_records :
    (widePolicy.m.doSvTestTrigger.faultQ.filter (fun r => r.cause == 1)).map (·.aux1) = [5] := by decide

theorem widePolicy_drains : widePolicy.m.doSvTestTrigger.regQ = [] := by decide

/-- Refutes O53: where the policy of a source is 2^61, its alarm's record holds (5 + 2^61 * 2^3) mod 2^64 = 5, and not the
5 + 2^61 * 2^3 that the statement asks for. It fails at such states alone: see `vaultClaims_of_policies_fit`. -/
theorem not_vault : ¬ Obligations.Vault := by
  unfold Obligations.Vault
  intro h
  obtain ⟨-, htest, -⟩ := h widePolicy rfl
  obtain ⟨t, hexec, -, halarms⟩ := htest (by decide)
  obtain ⟨-, -, -, -, hrecords, -⟩ := halarms
  obtain ⟨r, hr, -, hcause, haux⟩ := hrecords (by decide) 5 (by decide)
  have ht : t.m = widePolicy.m.doSvTestTrigger := by
    have hrun : exec .svTestTrigger widePolicy = .next { widePolicy with m := widePolicy.m.doSvTestTrigger.drainRegs } := rfl
    rw [hrun, Block.drainRegs_nil _ widePolicy_drains] at hexec
    cases hexec
    rfl
  have hmem : r.aux1 ∈ (widePolicy.m.doSvTestTrigger.faultQ.filter (fun r => r.cause == 1)).map (·.aux1) :=
    List.mem_map_of_mem (List.mem_filter.2 ⟨ht ▸ hr, by simp [hcause]⟩)
  rw [widePolicy_records, List.mem_singleton, haux] at hmem
  exact absurd hmem (by decide)

end Sys2Proof
